-- ==== Sys2Proof/Word.lean ====
section
/-! DEFINITION. The words the manual counts in, and their plainest arithmetic. -/

namespace Sys2Proof

/-- A byte of a line, a descriptor or an image. -/
abbrev Byte := BitVec 8

/-- A register or doubleword, 64 bits (R14). -/
abbrev Word := BitVec 64

/-- The 128 B of one line, byte k of the line in bits [8k+7:8k] (R17, R222). -/
abbrev LineData := BitVec 1024

/-- One enable for each byte of a line. -/
abbrev LineMask := BitVec 128

/-- One bit for each of the 16 words of a line. -/
abbrev WordMask := BitVec 16

end Sys2Proof
end

