-- ==== Sys2Proof/Syntax.lean ====
section
/-! DEFINITION. The commands of the block: one constructor for each row of the table of operations and events,
with the operands the row's rule names. A row that the block raises by itself (a timer, an arbiter's decision, a
completion) is a command too: it stands for the moment at which the event happens. -/

namespace Sys2Proof

/-- The data ports of a channel, in the numbering of R192 with X0 last (R22). -/
inductive Port where
  | M0 | M1 | M2 | M3 | V0 | V1 | D0 | I0 | X0
  deriving DecidableEq, Repr

/-- A data port of a channel. -/
structure PortId where
  ch : Nat
  port : Port
  deriving DecidableEq, Repr

/-- The shared target paths of R111. -/
inductive PathId where
  | spine (ch cluster : Nat)
  | x0e (ch : Nat)
  | brX0 (ch : Nat)
  | brS0
  | brCw
  deriving DecidableEq, Repr

/-- The request payload of R81 but for OP, which the row names. -/
structure ReqBeat where
  id : BitVec 8
  addr : BitVec 48
  len : BitVec 12
  aux : BitVec 16
  cls : BitVec 3
  qos : BitVec 4
  ctx : BitVec 6
  shift : BitVec 8
  ff : Bool
  wake : Bool
  rsv : Option (BitVec 5) := none
  deriving DecidableEq, Repr

/-- A write data beat (R92); a port of width W uses the low W bytes, W enables and W / 8 poison bits. -/
structure WBeat where
  data : BitVec 2048
  be : BitVec 256
  wpoison : BitVec 32
  last : Bool
  deriving DecidableEq, Repr

/-- A read data beat as S0 returns it (R92, R277). -/
structure S0Beat where
  id : BitVec 8
  data : BitVec 2048
  pmask : BitVec 32
  status : BitVec 4
  last : Bool
  deriving DecidableEq, Repr

/-- The level on AON_RST_N with the straps that stand at the pins INST_NUM and PITHEAD_SEL (R303, R496). -/
structure PowerPins where
  low : Bool
  instNum : BitVec 6
  pitheadSel : Bool
  deriving DecidableEq, Repr

/-- A response of S0 to one of the block's own writes: its ID, and whether it answers the doorbell or a record (R275, R434). -/
structure OwnWrite where
  id : BitVec 8
  doorbell : Bool
  deriving DecidableEq, Repr

/-- A 256 B flit (R295): link control, CRC, and the 15 chunks, chunk 1 in the low 128 bits. -/
structure Flit where
  ctl : BitVec 96
  crc : BitVec 32
  body : BitVec 1920
  deriving DecidableEq, Repr

/-- Where a message enters the causeway: a peer port, or the local side. -/
inductive CwIn where
  | peer (n : Nat)
  | loc
  deriving DecidableEq, Repr

/-- What a training or retraining attempt of a PHY finds (R290): the lanes found failed, the failed lanes that the partner reports
over the sideband, its fuses among them, and whether clock, valid and track lanes and the 32 GT/s rate are usable. -/
structure Trained where
  ok : Bool
  failed : BitVec 64
  partner : BitVec 64
  deriving DecidableEq, Repr

/-- What the N0 device answers to command 0x5A, the SFDP header and tables, by the facts they state (R324, R325; their layout is JESD216's): the
signature and the 4 KiB erase type, the density, native 4-byte commands and the entry method otherwise, the quad-enable method, the read
modes 1-1-4 or 1-4-4 and 8D-8D-8D, the maximum clock of the xSPI Profile 1.0 table in kHz, and the page-program and erase times. -/
structure Sfdp where
  signature : Bool
  erase4k : Bool
  log2Size : Nat
  native4 : Bool
  entry4 : Nat
  quadEnable : Nat
  readQuad : Bool
  read8d : Bool
  xspiKhz : Option Nat
  programUs : Nat
  eraseMs : Nat
  deriving DecidableEq, Repr

/-- A stored word that comes back wrong in a pass of the known-answer run (R334): channel, physical bank (64 S0B, 65 S1B), pass, row, word, and the bits
of the codeword that are flipped, data below and check byte above. -/
structure CellFault where
  ch : Nat
  bank : Nat
  pass : Nat
  row : Nat
  word : Nat
  flips : BitVec 72
  deriving DecidableEq, Repr

/-- The physical facts a boot meets: the N0 device and its image bytes, the words that the known-answer run reads back wrong, and
whether every unit vector matched (R324, R334, R335). -/
structure BootInput where
  sfdp : Sfdp
  image : List Byte
  faults : List CellFault
  unitsOk : Bool
  deriving DecidableEq, Repr

/-- What waits on a tally (R264): a waiting entry of the table, a stalled request of a port, or one of another instance by its ORIG. -/
inductive Waiter where
  | entry (t : Nat)
  | request (p : PortId) (id : BitVec 8)
  | remote (inst orig : Nat) (id : BitVec 8)
  deriving DecidableEq, Repr

/-- Where a starving operation waits (R204): the n-th transfer at a path, or the n-th operation at a channel's banks. -/
inductive StarvedAt where
  | path (p : PathId) (n : Nat)
  | bank (ch n : Nat)
  deriving DecidableEq, Repr

/-- What a wake brings back: a channel, or the instance (R366, R369). -/
inductive WakeUnit where
  | chan (ch : Nat)
  | inst
  deriving DecidableEq, Repr

/-- The commands, one constructor a row. -/
inductive Instr where
  -- data port requests (R81 to R86, R138, R173, R253)
  | rd (p : PortId) (r : ReqBeat)
  | wr (p : PortId) (r : ReqBeat)
  | red (p : PortId) (r : ReqBeat)
  | tileRd (p : PortId) (r : ReqBeat)
  | tileWr (p : PortId) (r : ReqBeat)
  | tileRed (p : PortId) (r : ReqBeat)
  | gather (p : PortId) (r : ReqBeat)
  | scatter (p : PortId) (r : ReqBeat)
  | scatterRed (p : PortId) (r : ReqBeat)
  | fence (p : PortId) (r : ReqBeat)
  | tallyAcq (p : PortId) (r : ReqBeat)
  | tallyExt (p : PortId) (r : ReqBeat)
  | tallyRel (p : PortId) (r : ReqBeat)
  -- beats and responses
  | wdatBeat (p : PortId) (b : WBeat)
  | rdatBeat (p : PortId) (id : BitVec 8)
  | wrspTransfer (p : PortId) (id : BitVec 8)
  | fenceComplete (p : PortId) (id : BitVec 8)
  -- inside the channels
  | pathGrant (p : PathId)
  | bankSlotGrant (ch bank : Nat)
  | checkPoint (ch n : Nat)
  | mergeBufferEntry (ch n : Nat)
  | mergeWindowExpiry (ch n : Nat)
  | descriptorReady (ch n : Nat)
  | indexLineReady (ch n : Nat)
  -- tallies
  | leaseStart (t : Nat)
  | tallyLeaseExpiry (t : Nat)
  | tallyWait (w : Waiter)
  -- arbitration
  | rotationStart
  | budgetWindowStart
  | starve (w : StarvedAt)
  | conflictWindowEnd
  | conflictStorm (p : PortId)
  | stepLong
  | peerReservationRecheck (n : Nat)
  | rosterRestore (ch roster cluster slot : Nat) (readbackOk : Bool)
  -- integrity
  | dredgeStep (ch : Nat)
  | ceWindowStart
  | quiesceDone (ch : Nat)
  | copyDone (ch : Nat)
  | verifyDone (ch : Nat)
  | sparingTimeLimit (ch : Nat)
  -- sump
  | s0RequestTransfer
  | s0ReadBeat (b : S0Beat)
  | s0WriteResponse (id : BitVec 8) (status : BitVec 4)
  | s0DrainEnd
  -- peer links and mesh
  | flitReceive (n : Nat) (f : Flit)
  | nak (n : Nat) (f : Flit)
  | replayTimeout (n : Nat)
  | requestMessage (src : CwIn)
  | writeLine (src : CwIn)
  | responseMessage (src : CwIn)
  | hello (n : Nat)
  | beacon (n : Nat)
  | image (n : Nat)
  | imageEnd (n : Nat)
  | imageAck (src : CwIn)
  | start (n : Nat)
  | abort (n : Nat)
  | routeSet (src : CwIn)
  | routeAck (src : CwIn)
  | offReq (src : CwIn)
  | offAck (src : CwIn)
  | bootReq (n : Nat)
  | offPlanTimeout
  | offAckTimeout
  | causewayDrainEnd
  | routeChangeRelease (d : Nat)
  | trainingComplete (n : Nat) (t : Trained)
  | trainingAttemptTimeout (n : Nat)
  | partnerTraining (n : Nat)
  | linkRetry (n : Nat)
  | linkError (n : Nat)
  | retrainEnd (n : Nat) (t : Trained)
  | workerMissing (inst : Nat)
  -- resets and bring-up
  | aonRstN (p : PowerPins)
  | cwRstN (low : Bool) (instNum : BitVec 6) (pitheadSel : Bool)
  | instRstN (low : Bool)
  | boot (b : BootInput)
  | ready
  | crashDump (level : BitVec 8)
  | holdupRecheck (level : BitVec 8)
  | presenceN (low : Bool)
  | tamperN
  | wipeDone
  -- power
  | wakeN
  | idleAfter (ch : Nat)
  | sleepAfter (ch : Nat)
  | handshakeCommit
  | hsLimit
  | stateEntryComplete
  | wakeComplete (u : WakeUnit)
  -- recovery
  | hangWatchdog (p : PortId) (id : BitVec 8)
  | channelStallCheck (ch : Nat)
  | channelResetDone (ch : Nat)
  | replayComplete (ch : Nat)
  | replayLimit (ch : Nat)
  | recoveryTimeout (ch : Nat)
  | sweepEnd (c : Nat)
  | sweepEscalation (c : Nat)
  | quietTimeEnd (c : Nat)
  | retrainRecoveryTimeout
  -- safety
  | lockstep (mem : Bool)
  | heartbeat
  | clkRootWindow (count : Nat)
  | clockFaultTimeout
  | refAonFault (count : Nat)
  | cfgScrub
  -- events and time
  | eventRecordIssue
  | recordWriteAck (w : OwnWrite) (status : BitVec 4)
  | doorbellTimeout
  | timeSyncFrame (v : Word) (parity : Bool)
  | syncWaitTimeout
  -- observation
  | freeze (high : Bool)
  | traceTrigger (src : Nat)
  | tracePostDone
  | traceSync
  | counterSample
  | soundingCopyDone
  -- completions of management commands
  | seamReleaseComplete (seam : Nat)
  | seedClearDone (seam : Nat)
  | chStopDone
  | nvmSequenceDone (mismatch : Option Nat)
  -- management commands, at their take (R483)
  | nop
  | apply
  | stepMark
  | rosterSelect
  | seamAssign
  | seamRelease
  | sumpValidate
  | ctxOpen
  | ctxReset
  | ctxClose
  | jobAbort
  | chStop
  | chStart
  | chReset
  | instReset
  | bankRetire
  | pwrSet
  | sounding
  | lcAdvance
  | nvmWrite (level : BitVec 8) (image : List Byte) (readError : Bool)
  | debugUnlock
  | dumpErase (level : BitVec 8)
  -- G0 writes with a behaviour of their own
  | cmdqTail (v : Word)
  | cplTail (v : Word)
  | evtTail (v : Word)
  | evtEnable (v : Word)
  | evtDisable (v : Word)
  | canaryClear (v : Word)
  | dmaResume (ch : Nat)
  | encode (ch : Nat)
  | rawWrite (ch : Nat)
  | rawRead (ch : Nat)
  | decode (ch : Nat)
  | eccTestDone (ch : Nat)
  | confClr (ch : Nat) (v : Word)
  | clrCnt (ch : Nat)
  | obsCtlClear (v : Word)
  | obsCtlFreeze (v : Word)
  | arm (v : Word)
  | trcStop (v : Word)
  | force (v : Word)
  | train (n : Nat)
  | retrain (n : Nat)
  | disable (n : Nat) (on : Bool)
  | chkClr (n : Nat)
  | timeLoad (v : Word)
  | rlogData
  | trcRdata
  | dbgData (write : Option Word)
  | halt (on : Bool)
  | step
  | registerWrite (off : Nat) (v : Word) (parOk : Bool)
  -- rows added after the first table
  | bumpSpacingEnd (c : Nat)
  | presenceHold
  | tamperNRelease
  | powerCycleDumpWait
  | heartbeatWrite
  | flitSend (n : Nat)
  | t0RecordSend
  | g0Read (off : Nat) (parOk : Bool)
  deriving DecidableEq, Repr

end Sys2Proof
end

