-- ==== Sys2Proof/Config.lean ====
section
/-! DEFINITION. What an implementation fixes, and the free values: constants without a body, of which no proof can see
a value. -/

namespace Sys2Proof.Config

/-- The words the manual leaves undefined: data read in the slot after a write of the same word (R109, R110), and what
one Aplery instruction writes (R478). The k-th use takes `freeWord k`; `State.free` counts the uses. Free value, log 5. -/
opaque freeWord : Nat → Word

/-- Port cycles of one REF_AON period at reference frequency: 10 ns by 0.4 ns (R35). DESIGN CHOICE: the two clocks are
taken at their reference ratio and at phase 0 (log 7). -/
def refCycles : Nat := 25

/-- Port cycles of one microsecond tick: 100 REF_AON edges (R39). -/
def usCycles : Nat := 2500

/-- The slots of a roster (R190). -/
def slots : Nat := 256

/-- The merge window in port cycles (R233). -/
def mergeWindow : Nat := 64

/-- The tally table's and the mark table's size (R252, R266). -/
def tallyEntries : Nat := 512

/-- The sump window's base, and the end of the local address space (R48). -/
def sumpBase : Nat := 0x20000000000

/-- One past the last local address (R48). -/
def localEnd : Nat := 0x40000000000

end Sys2Proof.Config
end

