-- ==== Sys2Proof/Machine/State.lean ====
section
/-! DEFINITION. The state of one instance as plain data: every register, table, queue and pin the manual names, and
the queue of commands that wait. Tables indexed by a number are association lists with a default (Machine/Tables). -/

namespace Sys2Proof.Machine

/-- A table keyed by a number; an absent key has the table's default. -/
abbrev Tbl (α : Type) := List (Nat × α)

/-- A byte-cell memory in canonical form (strictly rising keys, no zero byte listed); an unlisted byte reads 0. -/
abbrev Memory := List Host.Cell

/-- The synthesis parameters (R489). `bankSize` is the BUILD code: 0 for 256 KiB, 1 for 512 KiB, 2 for 1 MiB. -/
structure Build where
  channels : Nat
  bankSize : Nat
  peers : Nat
  deriving DecidableEq, Repr

/-- Operation codes of R83. -/
inductive Op where
  | rd | wr | red | tileRd | tileWr | tileRed | gather | scatter | scatterRed | fence | tallyAcq | tallyExt | tallyRel
  deriving DecidableEq, Repr

/-- Status codes of R96. -/
inductive Status where
  | okay | poison | trap | locked | leaseLost | broken | canary | asleep | aborted | unsup | sumpErr | noroute
  deriving DecidableEq, Repr

/-- Where a request entered: a data port of this instance, or another instance by a peer port (R189, R300). -/
inductive Origin where
  | loc (p : PortId)
  | remote (inst orig peer : Nat)
  deriving DecidableEq, Repr

/-- A seam descriptor and its FILL mark (R51, R288). -/
structure Seam where
  valid : Bool
  size : Nat
  base : Nat
  keep : Bool
  sump : Bool
  secure : Bool
  zmap : Bool
  watch : Bool
  format : Nat
  ilv : Bool
  hash : Nat
  seed : Nat
  owners : Word
  sumpInvalid : Bool
  clearing : Bool
  fill : Nat
  deriving DecidableEq, Repr

/-- Why an accepted request has issued nothing yet (R463's WAIT reasons that stand in the port); `decode` until its decode cycle
has passed (R54, R100). -/
inductive Hold where
  | none | decode | classLimit | power | tally | fence | freeze | sameBlock
  deriving DecidableEq, Repr

/-- The progress of an outstanding request. -/
inductive Phase where
  /-- Accepted and decoded, nothing issued; `why` is the reason last found. -/
  | waiting (why : Hold)
  /-- Held unanswered after a decode failure with its R68 code (R69). -/
  | decodeHeld (code : Nat)
  /-- Its line operations, descriptor or message are on their way. -/
  | active
  /-- Removed by a sweep or a channel reset: to be answered ABORTED at its end (R384). -/
  | swept
  /-- The whole request is answered with this status (R94, R502). -/
  | answered (st : Status)
  deriving DecidableEq, Repr

/-- One line (128 B) of read data that has come back for a request. `given` holds, for a line that S0 or another instance returned, the PMASK
of the 256 B beat it lies in, which the port's beats keep with `st` (R277). -/
structure LineRes where
  no : Nat
  data : LineData
  pm : WordMask
  coll : WordMask
  st : Status
  due : Nat
  given : Option (BitVec 32) := none
  deriving DecidableEq, Repr

/-- An outstanding request (R100): its payload, where it stands, what it has sent and received. `beatAt` holds the
cycles in which its write data came, `beats` the beats of a descriptor operation once they are known (else 0), `far` the
write latency of its farthest line (R116). `half` names, by path, the beats that have passed with one line of two (R111). -/
structure Txn where
  uid : Nat
  org : Origin
  op : Op
  req : ReqBeat
  acceptedAt : Nat
  age : Nat
  autoWake : Bool
  hung : Bool
  phase : Phase
  seam : Option Nat
  due : Nat
  wbeats : List WBeat
  beatAt : List Nat
  gotLast : Bool
  lastAt : Nat
  mismatch : Bool
  issuedLines : Nat
  results : List LineRes
  lineAcks : Nat
  far : Nat
  total : Nat
  beats : Nat
  beatsOut : Nat
  rejected : Bool
  failed : Option Status
  stallUs : Option Nat
  stallLine : Nat
  unlocked : Bool
  waitReported : Bool
  half : List (PathId × Nat)
  deriving DecidableEq, Repr

/-- What a line operation does at its bank. The last four are the channel sequencer's own: a raw test access (R241), a line of a
re-seed's clearing (R67) or of a wipe (R345), and a dry read of a replay (R393). -/
inductive LKind where
  | read | write | reduce (redop : Nat) | desc | index | drain | test | clear | wipe | replay
  deriving DecidableEq, Repr

/-- Where a line operation of a channel stands: on its way to stage F, waiting for its slot in P, at a check point E, K or
F, at the merge buffer, committed and waiting for its slot at the array input register, or read and on its way to the end
of stage C, or Z of a zero line (R115, R153, R160). In `line` it has had its slot behind a turn of its line that has yet to
pass K, and acts on the line once that has (log 9). -/
inductive Stage where
  | fwd | bank | chkE | chkK | chkF | merge | store | ret | line
  deriving DecidableEq, Repr

/-- A line operation (R30): it carries its request's port, ID, CTX, SHIFT, CLASS and QOS. `desc` marks one that a descriptor's expansion
issued; `pairX` and `pair` number the beat that a line of a linear request has on X0 egress and bridge, and on a spine input
(R111). `park` counts the parking cycles of R114 on its way. In stage `ret` its `data`, `wp` and `coll` are what was read, with the
words that are poisoned and that collided, and `back` is what its way back adds. `reported` marks a written STARVE record (R204),
`full` a wait for a full merge buffer (R232), `noTag` a zero-line write that sets no tag (R183). `grantAt` is the cycle of its slot,
`unread` marks a turn whose line has yet to be read for errors, `old` one whose line's tag was set after its stage F (R183). -/
structure LineOp where
  serial : Nat
  uid : Nat
  org : Origin
  src : Nat
  cls : Nat
  qos : Nat
  ctx : Nat
  shift : BitVec 8
  kind : LKind
  ch : Nat
  bank : Nat
  row : Nat
  line : Nat
  seam : Nat
  fmt : Nat
  no : Nat
  stage : Stage
  readyAt : Nat
  waited : Nat
  data : LineData
  be : LineMask
  wp : WordMask
  checked : LineMask
  coll : WordMask
  park : Nat
  back : Nat
  id : BitVec 8
  desc : Bool
  pairX : Nat
  pair : Nat
  reported : Bool
  full : Bool
  noTag : Bool
  grantAt : Nat := 0
  unread : Bool := false
  old : Bool := false
  deriving DecidableEq, Repr

/-- What a transfer carries over the shared paths (R111). -/
inductive Payload where
  | lines (ops : List LineOp)
  | sump (uid : Nat)
  | inst (uid : Nat)
  | desc (uid : Nat)
  | tally (uid : Nat)
  | record (seq : BitVec 32)
  | doorbell
  deriving DecidableEq, Repr

/-- A transfer waiting at a shared path, with the paths still ahead of it (R112, R197). -/
structure Xfer where
  serial : Nat
  path : PathId
  rest : List PathId
  src : Nat
  org : Origin
  cls : Nat
  qos : Nat
  ctx : Nat
  readyAt : Nat
  waited : Nat
  beats : Nat
  reported : Bool
  payload : Payload
  deriving DecidableEq, Repr

/-- A shared path: the last grantee, the cycle from which it is free (R113), and the request whose next beat may follow
its first without a decision (R197). -/
structure PathSt where
  last : Option Nat
  freeAt : Nat
  cont : Option Nat
  starveRep : Bool
  deriving DecidableEq, Repr

/-- One line operation a tile lane will issue (R140): the line, whether it is a scale line, the elements it serves in
descriptor order (of a scale line, the first elements of its first and last block), and the beat that decides when: on a
read the first beat that needs it, on a write the number of beats it needs. -/
structure PlanLine where
  line : Nat
  scale : Bool
  first : Nat
  last : Nat
  beat : Nat
  deriving DecidableEq, Repr

/-- An index line that a gather unit has read (R173). -/
structure IndexLine where
  no : Nat
  data : LineData
  pm : WordMask
  due : Nat
  deriving DecidableEq, Repr

/-- The state of a descriptor operation in its lane or gather unit (R138, R173). -/
inductive DStage where
  | queued | fetching | ready | expanding | issued
  deriving DecidableEq, Repr

/-- A descriptor operation in a tile lane (lane 0 to 6 by port, X0 7) or the gather unit (8) (R137, R172). `readyAt` is the
cycle from which its stage may go on; `next` counts the lines of the plan that are issued, or the index lines that are
usable; `rowNext` and `rowLine` name the next line of a row. -/
structure DescOp where
  uid : Nat
  ch : Nat
  lane : Nat
  stage : DStage
  desc : BitVec 512
  bad : Bool
  readyAt : Nat
  snap : Word
  plan : List PlanLine
  next : Nat
  index : List IndexLine
  indexNext : Nat
  rowNext : Nat
  rowLine : Nat
  oor : Bool
  deriving DecidableEq, Repr

/-- A merge-buffer entry (R230). `first` is the serial of the operation that allocated it, `checked` marks the bytes committed at
entry (R232). -/
structure MergeEntry where
  serial : Nat
  first : Nat
  id : BitVec 8
  line : Nat
  seam : Nat
  bank : Nat
  row : Nat
  data : LineData
  mask : LineMask
  wp : WordMask
  ctx : Nat
  shift : BitVec 8
  org : Origin
  src : Nat
  cls : Nat
  qos : Nat
  alloc : Nat
  checked : LineMask
  draining : Bool
  deriving DecidableEq, Repr

/-- What a bank's arbiter and the collision rule remember (R109, R194, R238, R244). -/
structure BankSt where
  lastSlot : Option Nat
  lastAt : Nat
  lastSrc : Option Nat
  wroteRow : Nat
  wroteWords : WordMask
  wrotePort : Option Origin
  ceWin : Nat
  excluded : Nat
  deriving DecidableEq, Repr

/-- The dredge of a channel (R236 to R239). -/
structure Dredge where
  passes : Nat
  row : Nat
  passStart : Nat
  running : Bool
  reads : List Nat
  turns : List Nat
  deriving DecidableEq, Repr

/-- The ECC test registers (R241). -/
structure EccTest where
  busy : Bool
  err : Bool
  op : Nat
  addr : Word
  data : Word
  check : Word
  deriving DecidableEq, Repr

/-- A retirement trigger: the bank, and the command that asked, if any (R244). -/
structure Trigger where
  bank : Nat
  cmd : Option Nat
  deriving DecidableEq, Repr

/-- Sparing of a channel (R244 to R248). `phase` is SPARE_MAP.SPARING, `row` the next row of the copy or the verify, `redo` a row
that is copied once more, `bad` a mismatch that fails the spare (R247). -/
structure Sparing where
  s0State : Nat
  s0Bank : Nat
  s1State : Nat
  s1Bank : Nat
  phase : Nat
  bank : Nat
  onto : Nat
  startUs : Nat
  cmd : Option Nat
  row : Nat
  redo : Bool
  bad : Bool
  waiting : Option Trigger
  noSpare : List Nat
  deriving DecidableEq, Repr

/-- The phases of a channel recovery (R392), after the grant check of its first 2 µs. -/
inductive RPhase where
  | check | reset | replay | done
  deriving DecidableEq, Repr

/-- A channel recovery or a CH_RESET in progress (R391 to R395). `grants0` are the channel's grants at the hand-off,
`fromUs` the tick it came at, `left` the suspects yet to replay, `last` each suspect's last operation, `removed` the
requests whose work the channel reset removed, `replayUs` the tick at which the running replay began. -/
structure Recov where
  phase : RPhase
  startAt : Nat
  fromUs : Nat
  grants0 : Nat
  replay : Bool
  abort : Bool
  cmd : Option Nat
  ctx : Nat
  suspects : List Nat
  left : List Nat
  guilty : List Nat
  last : List (Nat × Nat)
  removed : List Nat
  replayUs : Nat
  late : Bool
  deriving DecidableEq, Repr

/-- A channel: its counters, its integrity machinery and its control state (R16, R29, R474). `gatherUsed` counts the line
operations its gather unit issued in cycle `gatherAt`, `gatherLast` is the source of the last (R177). `haltAt` is the cycle in which
HALT was set. -/
structure Channel where
  conf : Tbl Nat
  confWin : Tbl Nat
  confBank : Tbl Nat
  confRep : List Nat
  starved : BitVec 9
  starveRep : List Nat
  roster : Tbl Nat
  rosterBad : List Nat
  budget : Tbl Nat
  ce : Tbl Nat
  ue : Tbl Nat
  tagUe : Nat
  tagCe : Nat
  poisonRd : Nat
  dmaHalt : Bool
  haltAt : Nat
  merge : List MergeEntry
  mbFullWaits : Nat
  mbRejected : Nat
  repair : List (Nat × Nat)
  tagFix : List (Nat × List Nat)
  dredge : Dredge
  ecc : EccTest
  spare : Sparing
  banks : Tbl BankSt
  slotCnt : Tbl Nat
  zhitCnt : Tbl Nat
  unownCnt : Tbl Nat
  ownedCnt : Tbl Nat
  passedCnt : Tbl Nat
  stopped : Bool
  recov : Option Recov
  noneGuiltyUs : Option Nat
  grants : Nat
  gatherAt : Nat
  gatherUsed : Nat
  gatherLast : Option Nat
  idleFrom : Nat
  deriving DecidableEq, Repr

/-- The states of a context (R375). -/
inductive CState where
  | closed | open | resetting | rejecting
  deriving DecidableEq, Repr

/-- A sweep in progress (R383). `abortOnly` marks an abort sweep, `final` its final state, `startAt` the port cycle of
its step 1, `limitUs` the tick its 50 µs count from, `escalated` that they have passed once. -/
structure Sweep where
  abortOnly : Bool
  abort : Bool
  final : CState
  startAt : Nat
  limitUs : Nat
  escalated : Bool
  cmds : List Nat
  deriving DecidableEq, Repr

/-- A command that waits before it may act on its context: a CTX_OPEN or CTX_RESET in quiet time (R376), or a bump
that waits for its spacing (R379). -/
inductive CtxWait where
  | openQuiet (cmd : Nat) (job : BitVec 32) (pkg : BitVec 14)
  | resetQuiet (cmd : Nat) (abort : Bool)
  | bump (cmd : Nat) (abort close : Bool)
  deriving DecidableEq, Repr

/-- A context (R374, R407). `trip` holds the cycle, channel and cluster of each check that tripped in the cycle of the last trip
(R161, R163). -/
structure Ctx where
  state : CState
  faulted : Bool
  suspect : Bool
  shift : BitVec 8
  pkg : BitVec 14
  job : BitVec 32
  dropped : Nat
  resets : Nat
  quietFrom : Option Nat
  lastBump : Option Nat
  sweep : Option Sweep
  wait : List CtxWait
  site : Word
  trip : List (Nat × Nat × Nat)
  rng : Word
  deriving DecidableEq, Repr

/-- The states of a tally entry that is not free (R252). -/
inductive TState where
  | waiting | held | lost
  deriving DecidableEq, Repr

/-- A tally entry that is not free (R252, R269). `granting` marks a grant whose lease has yet to start (step 4 of
R253); `uid` is the acquire to answer, `arrival` the order in which it reached the tally logic. -/
structure Tally where
  idx : Nat
  state : TState
  ctx : Nat
  shift : BitVec 8
  line : Nat
  span : Nat
  lease : Nat
  leaseUs : Nat
  granting : Bool
  uid : Nat
  ch : Nat
  arrival : Nat
  fromUs : Nat
  waitReported : Bool
  deriving DecidableEq, Repr

/-- A broken mark (R266), oldest first in its list; `idx` is its place in the mark table. -/
structure Mark where
  idx : Nat
  line : Nat
  span : Nat
  deriving DecidableEq, Repr

/-- The registers of the global block that firmware writes and whose fields act by their value alone (R473). A
SHADOW register has a written and an active value (R404). -/
structure Regs where
  hangCtl : Word
  conflictCtl : Word
  canaryFence : Word
  canaryFlag : Word
  arbCtl : Word
  classLimitW : Word
  classLimitA : Word
  bgBudgetW : Word
  bgBudgetA : Word
  stepCtl : Word
  tallyCtl : Word
  dredgeCtl : Word
  ceCtl : Word
  sumpCtl : Word
  pwrPolicy : Word
  recovCtl : Word
  deriving DecidableEq, Repr

/-- The roster side of arbitration that is common to the instance (R190, R210, R217, R220). `fresh` holds from ready to the
rotation origin, `bankCycles` counts CLK_BANK cycles since it. -/
structure Arb where
  bankCycles : Nat
  fresh : Bool
  rotation : Nat
  rule : Tbl Nat
  admitted : BitVec 4
  degraded : List (Nat × Nat)
  fallback : Bool
  active : Nat
  pend : Option Nat
  pendStep : Bool
  pendFrom : Nat
  budgetRot : Nat
  confFrom : Nat
  confLen : Nat
  ceFrom : Nat
  ceLen : Nat
  stepFrom : Option (Nat × Word)
  stepReported : Bool
  declared : BitVec 4
  cwStarveRep : Bool
  copy : Tbl Nat
  deriving DecidableEq, Repr

/-- Whose request a request on S0 is (R275): a data request's, the block's own write of a record or a doorbell, or the read of
the event ring's base that ends a recovery with RETRAIN (R398). -/
inductive S0Who where
  | data (uid : Nat)
  | record (seq : BitVec 32)
  | doorbell
  | probe
  deriving DecidableEq, Repr

/-- A request on S0 (R273, R274), `since` the cycle it stands at S0 from, then the one it transferred in; `data` holds its write data beats,
`beats` counts the read beats that have come, `err` marks a SUMP_ERR among them. -/
structure S0Req where
  id : BitVec 8
  write : Bool
  addr : BitVec 48
  len : Nat
  cls : Nat
  qos : Nat
  ctx : Nat
  shift : BitVec 8
  who : S0Who
  data : List WBeat
  beats : Nat
  err : Bool
  since : Nat
  deriving DecidableEq, Repr

/-- S0 and its counters (R274 to R288). -/
structure Sump where
  queue : List S0Req
  out : List S0Req
  invalidRd : Nat
  proto : Nat
  errors : Nat
  stale : List (BitVec 8)
  deriving DecidableEq, Repr

/-- The virtual channels' message kinds (R296, R300). -/
inductive MKind where
  | request | writeLine | response | control
  deriving DecidableEq, Repr

/-- A message (R300): its header chunk, and the byte-enable and data chunks that follow when present. `since` is the port
cycle it stands in its queue from; `inp` its input (0 to 3 a peer port, 4 this instance); `seq` and `chunk` the place it
arrived at, for the checker's log; `uid` the request of this instance it serves, 0 where none. -/
structure Msg where
  kind : MKind
  hdr : BitVec 128
  be : Option (BitVec 128)
  data : Option LineData
  since : Nat
  inp : Nat
  seq : Nat
  chunk : Nat
  uid : Nat := 0
  deriving DecidableEq, Repr

/-- The link states of R291. -/
inductive LState where
  | down | training | hello | active | retraining | held | disabled
  deriving DecidableEq, Repr

/-- An entry of the peer checker's log (R321, R322). -/
structure ChkEntry where
  time : Word
  head : BitVec 32
  chunk : Nat
  seq : Nat
  code : Nat
  deriving DecidableEq, Repr

/-- A peer port's link layer (R291 to R299, R321, R322). `downUs` is the tick at which the state was entered, `retr` marks
a link that has been ACTIVE since it trained, `oldWidth` the width before a retraining, `sentAt` the cycles the flits of the replay
buffer went in, `replayPos` the next flit of a replay in progress, `skip` that chunks are discarded up to the next header, `txRest` the chunks of the message being sent that are still to go, with its channel and destination,
`carried` the flits with the destinations whose messages they carry (R307), `beaconed` and `imaged` that the pithead's BEACON and image have gone out on the port since its link trained, `chkMs` the ms, first code and count of the
violations whose record is due (R321). -/
structure Link where
  state : LState
  disable : Bool
  partner : Nat
  partnerPort : Nat
  partnerValid : Bool
  width : Nat
  oldWidth : Nat
  attempts : Nat
  failed : BitVec 64
  downUs : Nat
  crcErr : Nat
  replays : Nat
  retrains : Nat
  lostFlits : Nat
  chk : Tbl Nat
  log : Tbl ChkEntry
  logNext : Nat
  logWrap : Bool
  chkMs : Option (Nat × Nat × Nat)
  helloSent : Bool
  helloGot : Bool
  seqNext : Nat
  seqExp : Nat
  nakSent : Bool
  replay : List Flit
  nakDue : Bool
  sentAt : List Nat
  skip : Bool
  beaconed : Bool
  imaged : Bool
  replayPos : Option Nat
  replayTries : Nat
  retr : Bool
  carried : List (Nat × Nat)
  lastReq : Nat
  txRest : Option (Nat × List (BitVec 128))
  credit : Nat × Nat × Nat
  owed : Nat × Nat × Nat
  tx : List Msg
  rx : List Msg
  partialKind : Option MKind
  partialChunks : List (BitVec 128)
  lastFlit : Option Flit
  deriving DecidableEq, Repr

/-- An off plan the pithead carries out (R314): `waiting` holds a receiver once for each ROUTE_ACK it owes. -/
structure OffPlan where
  inst : Nat
  waiting : List Nat
  fromUs : Nat
  deriving DecidableEq, Repr

/-- The causeway (R303 to R322). `asking` marks an instance woken from Off that has yet to be started again (R317);
`acked`, `heard`, `sentStart`, `missing` and `offGranted` are the pithead's notes on the other instances (R314 to R317); `beaconHops` the
HOPS of the BEACON that is passed on (R315), `lastLocal` the input last granted a request at the local output (R306). -/
structure Causeway where
  instNum : Nat
  pitheadSel : Bool
  pitheadInst : Nat
  parent : Option Nat
  routes : Bool
  demoted : Bool
  ctl : Word
  nbr : Word
  noroute : Nat
  rspDropped : Nat
  hopDropped : Nat
  aborts : Nat
  route : Tbl Nat
  inUse : Tbl Nat
  jobs : Tbl (BitVec 14 × BitVec 32)
  aseq : Nat
  seen : Tbl (List Nat)
  latched : List (BitVec 32 × BitVec 14 × Nat × Nat × Option Nat)
  links : Tbl Link
  usePort : Tbl Nat
  changing : Tbl Nat
  openCls : Tbl (Nat × Nat)
  local_ : List Msg
  held : List (Nat × Nat × Msg)
  bootBytes : Tbl LineData
  imageOk : Bool
  started : Bool
  imageReady : Bool
  stopTransit : Bool
  asking : Bool
  acked : List Nat
  heard : List Nat
  beaconHops : Nat
  lastLocal : Nat
  sentStart : List Nat
  missing : List Nat
  offPlans : List OffPlan
  offGranted : List Nat
  deriving DecidableEq, Repr

/-- Power states of a channel (R352). -/
inductive PState where
  | run | idle | sleep
  deriving DecidableEq, Repr

/-- Power states of the instance (R352). -/
inductive IState where
  | on | deep | off
  deriving DecidableEq, Repr

/-- The phase of a power handshake (R355, R361). -/
inductive HsPhase where
  | ask | offAck | drain | entering
  deriving DecidableEq, Repr

/-- A power handshake (R355 to R363). `target` is coded as PWR_STAT.HS_TARGET, `granted` marks a granted OFF_ACK, `usedUs` is
handshake time before the tick `fromUs` from which the phase runs. -/
structure Handshake where
  target : Nat
  mask : List Nat
  auto : Bool
  cmd : Option Nat
  phase : HsPhase
  granted : Bool
  usedUs : Nat
  fromUs : Nat
  drainUs : Nat
  deriving DecidableEq, Repr

/-- The power controller (R352 to R373). `waking` lists the channels that wake with their source, `wakingInst` the source of a
wake of the instance to Run, `runWait` the PWR_SET commands to Run with the channels they still wait for. -/
structure Power where
  inst : IState
  ch : Tbl PState
  idleUs : Tbl Nat
  hs : Option Handshake
  waking : List (Nat × Nat)
  wakingInst : Option Nat
  runWait : List (Nat × List Nat)
  refuseReason : Nat
  refuseCh : Nat
  lastWake : Nat
  deriving DecidableEq, Repr

/-- Recovery beyond one channel (R378, R397 to R400, R407). -/
structure Recovery where
  instResets : Nat
  chRecoveries : Nat
  lastLevel : Nat
  resetTimes : List Nat
  draining : Option Nat
  cause : Nat
  retrain : Bool
  resetUs : Nat
  retraining : Bool
  dumpWait : Option Nat
  abortOut : List (Option (BitVec 32 × BitVec 14))
  abortNow : Option (BitVec 32 × BitVec 14)
  pwrCycleReq : Bool
  stopWait : List (Nat × List Nat)
  deriving DecidableEq, Repr

/-- The safety controller and the configuration scrub (R411 to R421). `faultPwr` is AUTO_PWR as it stood when the CLK_ROOT fault was
found. -/
structure Safety where
  heartbeatMs : Nat
  scrubMs : Nat
  lockstepReact : Bool
  rootMhz : Nat
  cfgFixes : Nat
  faults : Nat
  flags : BitVec 6
  lastBeat : Nat
  lastBeatTime : Word
  clkHeld : Bool
  good : Nat
  faultUs : Nat
  faultPwr : Bool
  portsStopped : Bool
  seamCopy : Tbl (Word × Word)
  routeCopy : Tbl Nat
  nbrCopy : Word
  scrubUs : Nat
  deriving DecidableEq, Repr

/-- An event record (R423), but for SEQ, which its place gives it; `born` is the port cycle in which it arose (R424). -/
structure Record where
  born : Nat
  type : Nat
  inst : Nat
  logged : Bool
  synced : Bool
  channel : Option Nat
  ctx : Option (Nat × BitVec 8)
  epoch : Nat
  tgen : Nat
  time : Word
  p3 : Word
  p4 : Word
  p5 : Word
  p6 : Word
  deriving DecidableEq, Repr

/-- The event unit (R426 to R434, R440). `issued` is the issue store: records with their SEQ and whether acknowledged. -/
structure Events where
  base : Word
  ctl : Word
  head : BitVec 32
  tail : BitVec 32
  badTail : Bool
  writeErr : Bool
  dbAddr : Word
  dbCtl : Word
  ringBase : Nat
  ringSize : Nat
  nextSeq : BitVec 32
  issued : List (BitVec 32 × Bool × Record)
  again : List Record
  queue : List Record
  lost : Nat
  lostFirst : Word
  lostLast : Word
  dbOut : Bool
  dbDue : Bool
  dbValue : BitVec 32
  dbFromUs : Option Nat
  deriving DecidableEq, Repr

/-- What discovery takes from the N0 device for its later use (R324): the 4-byte entry method where it has no native commands, the quad-enable
method, and the page-program and erase times. -/
structure NvmDev where
  entry4 : Option Nat
  quadEnable : Nat
  programUs : Nat
  eraseMs : Nat
  deriving DecidableEq, Repr

/-- A row fuse (R242): its channel, its entry number, and what it names. -/
structure RowFuse where
  ch : Nat
  entry : Nat
  bank : Nat
  row : Nat
  redundant : Nat
  deriving DecidableEq, Repr

/-- The retention log (R435): WRITE_COUNT, OVERWRITTEN, NEXT, the retirement list and the records with the SEQ they took. -/
structure RLog where
  writeCount : Nat
  overwritten : Nat
  next : Nat
  retired : List Nat
  records : Tbl (Nat × Record)
  addr : Nat
  deriving DecidableEq, Repr

/-- A crash dump in the N0 device (R350): BOOT_STAT, the timebase value, and the retention log. -/
structure Dump where
  bootStat : Word
  time : Word
  log : RLog
  deriving DecidableEq, Repr

/-- Bring-up, life cycle and NVM (R323 to R351). `wipeHold` holds the ports until a wipe that woke the core is done (R346). `dumpDeferred` is the tick of the last hold-up check that failed for the
pending crash dump, `nvmSeq` the running sequence (0 NVM_WRITE, 1 DUMP_ERASE, 2 crash dump) with its command. `pins` holds a bit for each reset input that is low: 0 INST_RST_N, 1 CW_RST_N,
2 AON_RST_N (R496); `straps` are the levels of INST_NUM and PITHEAD_SEL (R303), and `dumpArea` tells that the N0 device last found
has a dump area (R326). -/
structure Bring where
  phase : Nat
  cause : Nat
  warm : Bool
  bootMs : Nat
  katFail : BitVec 8
  releasedUs : Nat
  inReset : Bool
  pins : BitVec 3
  straps : Nat × Bool
  dumpArea : Bool
  coreLost : Bool
  store : List Byte
  lcState : Nat
  holdMs : Nat
  presenceLow : Bool
  presenceFrom : Nat
  tamper : Bool
  tampered : Bool
  unlocked : Bool
  wiping : Bool
  wipeCause : Nat
  wipeSeams : List Nat
  wipeCmd : Option Nat
  wipeTarget : Nat
  wipeHold : Bool
  holdupMin : Nat
  deferrals : Nat
  holdupLevel : Nat
  dumpSlots : BitVec 4
  dumpPending : Bool
  dumpDeferred : Option Nat
  nvmMode : Nat
  nvmDensity : Nat
  nvmDev : Option NvmDev
  nvmSeq : Option (Nat × Option Nat)
  dumps : Tbl Dump
  bankFuse : List (Nat × Nat × Nat)
  rowFuse : List RowFuse
  laneFuse : List (Nat × Nat)
  deriving DecidableEq, Repr

/-- The timebase (R436 to R440). -/
structure TimeBase where
  ns : Word
  frozen : Bool
  frozenAt : Word
  synced : Bool
  tgen : Nat
  syncEn : Bool
  syncWait : Nat
  tol : Nat
  badFrames : Nat
  frames : Nat
  firstLoad : Bool
  resumedUs : Option Nat
  loadPending : Option (Word × Nat)
  deriving DecidableEq, Repr

/-- A trace record (R451). -/
structure TraceRec where
  w0 : Word
  w1 : Word
  cls : Nat
  inWindow : Bool
  deriving DecidableEq, Repr

/-- The trace states of R454. -/
inductive TrcState where
  | idle | armed | triggered | stopped
  deriving DecidableEq, Repr

/-- Observation: counters, trace and sounding (R441 to R465). -/
structure Observe where
  ocnt : Tbl Nat
  osel : Tbl Word
  freeze : Bool
  pinEn : Bool
  trigFrozen : Bool
  pin : Bool
  freezes : Nat
  trcCtl : Word
  trcTrig : Word
  trcAlo : Word
  trcAhi : Word
  trcThresh : Word
  trcFilt : Word
  trcRaddr : Nat
  trcState : TrcState
  stream : Bool
  pre : Nat
  post : Nat
  postLeft : Nat
  dropped : Nat
  disc : BitVec 8
  written : Nat
  buffer : List TraceRec
  oldest : Nat
  stamp : Nat
  syncAt : Nat
  t0At : Nat
  sampleFrom : Nat
  t0 : Option (Word × Word)
  sndHeld : Bool
  sndBusy : Bool
  sndCause : Nat
  sndOver : Nat
  sndCmd : Option Nat
  trigDue : Bool
  inCycle : Nat × Nat
  snapshot : Tbl Word
  deriving DecidableEq, Repr

/-- The debug window (R477 to R479). Memories and core registers are tables of doublewords. -/
structure Debug where
  halt : Bool
  addr : Word
  code : Tbl Word
  data : Tbl Word
  regs : Tbl Word
  deriving DecidableEq, Repr

/-- A management command that has been taken (R482, R486): its queue index and doublewords. -/
structure Taken where
  idx : BitVec 32
  dw0 : Word
  dw1 : Word
  dw2 : Word
  deriving DecidableEq, Repr

/-- The command queue (R480, R481). `running` holds the commands taken and not complete, oldest first. -/
structure CmdQ where
  tail : BitVec 32
  head : BitVec 32
  cplHead : BitVec 32
  cplTail : BitVec 32
  badCpl : Bool
  badTail : Bool
  slots : Tbl Word
  cpl : Tbl (Word × Word)
  running : List Taken
  deriving DecidableEq, Repr

/-- G0's answer to its last access (R469): RDATA and STATUS (0 OKAY, 1 IGNORED, 2 UNMAPPED, 3 ERROR). -/
structure G0Resp where
  rdata : Word
  status : Nat
  deriving DecidableEq, Repr

/-- A read data beat as a port shows it (R92). -/
structure RBeat where
  id : BitVec 8
  data : BitVec 2048
  pmask : BitVec 32
  coll : Bool
  status : Status
  shift : BitVec 8
  last : Bool
  deriving DecidableEq, Repr

/-- A write response as a port shows it (R93). -/
structure WResp where
  id : BitVec 8
  status : Status
  shift : BitVec 8
  deriving DecidableEq, Repr

/-- What a data port has shown last, the read response it is in the middle of (R95), the read beat and the write response that stand
presented with READY low, by request (R78), the cycles from which its request and write
data channels take another beat (R78), the cycles of its last transfers on the other two, the runs of stalled cycles (R463), and
its issue limit (R22) as the byte time from which it may issue again. -/
structure PortOut where
  current : Option Nat
  rdat : Option RBeat
  wrsp : Option WResp
  rdatHeld : Option (Nat × RBeat)
  wrspHeld : Option Nat
  reqFree : Nat
  wdatFree : Nat
  rdatAt : Nat
  wrspAt : Nat
  rdatStall : Nat
  wrspStall : Nat
  issueFree : Nat
  deriving DecidableEq, Repr

/-- Why the machine stops. -/
inductive Fault where
  /-- Raised by no arm of this model: a command that names a unit the build does not have changes nothing (log 6). Safe. -/
  | absentUnit
  deriving DecidableEq, Repr

/-- Why a command has no meaning. -/
inductive Refusal where
  /-- Raised by no arm of this model: every row of the table has its meaning. Safe. -/
  | notModelled (mnemonic : String)
  deriving DecidableEq, Repr

/-- The SRAM arrays and the zero-tag words: the only state that holds data by address. -/
structure Arrays where
  mem : Memory
  tags : Memory
  deriving DecidableEq, Repr

/-- Everything of one instance but its arrays. `zeroLines` holds the lines (channel, bank, row) that read as zeros
although no tag bit says so, because the write that cleared their tag has yet to be performed (R182, log 11); `usBase` is the cycle
that the microsecond ticks count from (R39); `ctlClear` holds, by G0 offset, the W1C bits that stood at 0 when the CLK_CTL cycle
began (R472). -/
structure Block where
  build : Build
  now : Nat
  serial : Nat
  free : Nat
  usBase : Nat
  zeroLines : List Nat
  ctlClear : Tbl Word
  seams : Tbl Seam
  txns : List Txn
  xfers : List Xfer
  ops : List LineOp
  descs : List DescOp
  paths : List (PathId × PathSt)
  outs : List (PortId × PortOut)
  chans : Tbl Channel
  ctxs : Tbl Ctx
  tallies : List Tally
  marks : List Mark
  marksDropped : Nat
  regs : Regs
  arb : Arb
  sump : Sump
  cw : Causeway
  bring : Bring
  power : Power
  recov : Recovery
  safety : Safety
  ev : Events
  rlog : RLog
  time : TimeBase
  obs : Observe
  dbg : Debug
  cmdq : CmdQ
  g0 : Option G0Resp
  deriving DecidableEq, Repr

/-- One instance of the block, and the queue of commands that wait. -/
structure State where
  arr : Arrays
  blk : Block
  pending : List Instr
  deriving DecidableEq, Repr

/-! Values after reset. -/

/-- The reset value of a seam descriptor (R51). -/
def Seam.init : Seam :=
  { valid := false, size := 0, base := 0, keep := false, sump := false, secure := false, zmap := false,
    watch := false, format := 0, ilv := false, hash := 2, seed := 0, owners := 0, sumpInvalid := false,
    clearing := false, fill := 0 }

/-- A bank nothing has been granted on. -/
def BankSt.init : BankSt :=
  { lastSlot := none, lastAt := 0, lastSrc := none, wroteRow := 0, wroteWords := 0, wrotePort := none, ceWin := 0, excluded := 0 }

/-- A channel at instance reset: stopped (R402), counters 0, rosters OPEN (R193). -/
def Channel.init : Channel :=
  { conf := [], confWin := [], confBank := [], confRep := [], starved := 0, starveRep := [], roster := [],
    rosterBad := [], budget := [], ce := [], ue := [], tagUe := 0, tagCe := 0, poisonRd := 0, dmaHalt := false, haltAt := 0,
    merge := [], mbFullWaits := 0, mbRejected := 0, repair := [], tagFix := [],
    dredge := { passes := 0, row := 0, passStart := 0, running := false, reads := [], turns := [] },
    ecc := { busy := false, err := false, op := 0, addr := 0, data := 0, check := 0 },
    spare := { s0State := 0, s0Bank := 0, s1State := 0, s1Bank := 0, phase := 0, bank := 0, onto := 0, startUs := 0,
               cmd := none, row := 0, redo := false, bad := false, waiting := none, noSpare := [] },
    banks := [], slotCnt := [], zhitCnt := [], unownCnt := [], ownedCnt := [], passedCnt := [], stopped := true,
    recov := none, noneGuiltyUs := none, grants := 0, gatherAt := 0, gatherUsed := 0, gatherLast := none, idleFrom := 0 }

/-- A context after power-on: CLOSED under shift 0 (R401, R407). -/
def Ctx.init : Ctx :=
  { state := .closed, faulted := false, suspect := false, shift := 0, pkg := 0, job := 0, dropped := 0, resets := 0,
    quietFrom := none, lastBump := none, sweep := none, wait := [], site := 0, trip := [], rng := 0 }

/-- A path nothing has used. DESIGN CHOICE: parked on nobody (log 17). -/
def PathSt.init : PathSt := { last := none, freeAt := 0, cont := none, starveRep := false }

/-- A port that has shown nothing. -/
def PortOut.init : PortOut := { current := none, rdat := none, wrsp := none, rdatHeld := none, wrspHeld := none, reqFree := 0, wdatFree := 0, rdatAt := 0, wrspAt := 0, rdatStall := 0, wrspStall := 0, issueFree := 0 }

/-- A peer link at causeway reset (R322). -/
def Link.init : Link :=
  { state := .down, disable := false, partner := 0, partnerPort := 0, partnerValid := false, width := 0, oldWidth := 0, attempts := 0,
    failed := 0, downUs := 0, crcErr := 0, replays := 0, retrains := 0, lostFlits := 0, chk := [], log := [],
    logNext := 0, logWrap := false, chkMs := none, helloSent := false, helloGot := false, seqNext := 0, seqExp := 0,
    nakSent := false, nakDue := false, replay := [], sentAt := [], skip := false, beaconed := false, imaged := false, replayPos := none, replayTries := 0, retr := false,
    carried := [], lastReq := 0, txRest := none, credit := (0, 0, 0), owed := (0, 0, 0),
    tx := [], rx := [], partialKind := none, partialChunks := [], lastFlit := none }

/-- The reset values of the writable global registers (R71, R65, R165, R203, R199, R200, R220, R269, R237, R244, R288,
R373, R407). -/
def Regs.init : Regs :=
  { hangCtl := 2000, conflictCtl := 0x0000F4240101E848#64, canaryFence := 0, canaryFlag := 0,
    arbCtl := 0x0000040000000000#64, classLimitW := 0, classLimitA := 0, bgBudgetW := 0x0300000000000000#64,
    bgBudgetA := 0x0300000000000000#64, stepCtl := 0, tallyCtl := 1000, dredgeCtl := 600,
    ceCtl := 0x000000030E100400#64, sumpCtl := 0x0000040000000064#64, pwrPolicy := 0x03E8000000000000#64,
    recovCtl := 0x07D00040003C0007#64 }

/-- Arbitration at instance reset (R210). -/
def Arb.init : Arb :=
  { bankCycles := 0, fresh := false, rotation := 0, rule := [(0, 15), (1, 15), (2, 15), (3, 15)], admitted := 0, degraded := [],
    fallback := false, active := 0, pend := none, pendStep := false, pendFrom := 0, budgetRot := 0, confFrom := 0,
    confLen := 125000, ceFrom := 0, ceLen := 3600, stepFrom := none, stepReported := false, declared := 0,
    cwStarveRep := false, copy := [] }

/-- S0 with nothing on it (R288). -/
def Sump.init : Sump := { queue := [], out := [], invalidRd := 0, proto := 0, errors := 0, stale := [] }

/-- The causeway at causeway reset, with the straps it samples (R303, R312, R322). -/
def Causeway.init (instNum : Nat) (pitheadSel : Bool) : Causeway :=
  { instNum := instNum, pitheadSel := pitheadSel, pitheadInst := if pitheadSel then instNum else 0, parent := none,
    routes := false, demoted := false, ctl := 0x000000000001000F#64, nbr := 0, noroute := 0, rspDropped := 0,
    hopDropped := 0, aborts := 0, route := [], inUse := [], jobs := [], aseq := 0, seen := [], latched := [],
    links := [], usePort := [], changing := [], openCls := [], local_ := [], held := [], bootBytes := [], imageOk := false, started := false, imageReady := false, stopTransit := false,
    asking := false, acked := [], heard := [], beaconHops := 0, lastLocal := 0, sentStart := [], missing := [], offPlans := [], offGranted := [] }

/-- Bring-up at power-on: blank fuses (log 16), kept fields 0 (log 15), NVM_HOLDUP_MIN 0xFF (R351). -/
def Bring.init (straps : Nat × Bool) : Bring :=
  { phase := 0, cause := 0, warm := false, bootMs := 0, katFail := 0, releasedUs := 0, inReset := false, pins := 0, straps := straps, dumpArea := false, coreLost := true,
    store := [], lcState := 0, holdMs := 0, presenceLow := false, presenceFrom := 0, tamper := false,
    tampered := false, unlocked := false, wiping := false, wipeCause := 0, wipeSeams := [], wipeCmd := none,
    wipeTarget := 0, wipeHold := false, holdupMin := 255, deferrals := 0, holdupLevel := 0, dumpSlots := 0, dumpPending := false, dumpDeferred := none,
    nvmMode := 0, nvmDensity := 0, nvmDev := none, nvmSeq := none, dumps := [], bankFuse := [], rowFuse := [], laneFuse := [] }

/-- Power at reset: everything runs (R373). -/
def Power.init : Power :=
  { inst := .on, ch := [], idleUs := [], hs := none, waking := [], wakingInst := none, runWait := [], refuseReason := 0, refuseCh := 0,
    lastWake := 0 }

/-- Recovery after power-on (R407). -/
def Recovery.init : Recovery :=
  { instResets := 0, chRecoveries := 0, lastLevel := 0, resetTimes := [], draining := none, cause := 0, retrain := false,
    resetUs := 0, retraining := false, dumpWait := none, abortOut := [], abortNow := none, pwrCycleReq := false,
    stopWait := [] }

/-- Safety after power-on (R421). -/
def Safety.init : Safety :=
  { heartbeatMs := 100, scrubMs := 100, lockstepReact := false, rootMhz := 5000, cfgFixes := 0, faults := 0, flags := 0,
    lastBeat := 0, lastBeatTime := 0, clkHeld := false, good := 0, faultUs := 0, faultPwr := false, portsStopped := false, seamCopy := [],
    routeCopy := [], nbrCopy := 0, scrubUs := 0 }

/-- The event unit after power-on (R440). -/
def Events.init : Events :=
  { base := 0, ctl := 0, head := 0, tail := 0, badTail := false, writeErr := false, dbAddr := 0, dbCtl := 0,
    ringBase := 0, ringSize := 0, nextSeq := 0, issued := [], again := [], queue := [], lost := 0, lostFirst := 0,
    lostLast := 0, dbOut := false, dbDue := false, dbValue := 0, dbFromUs := none }

/-- The retention log cleared at power-on (R435). -/
def RLog.init : RLog := { writeCount := 0, overwritten := 0, next := 4, retired := [], records := [], addr := 0 }

/-- The timebase at power-on (R436, R440). -/
def TimeBase.init : TimeBase :=
  { ns := 0, frozen := false, frozenAt := 0, synced := false, tgen := 0, syncEn := true, syncWait := 1000, tol := 100,
    badFrames := 0, frames := 0, firstLoad := false, resumedUs := none, loadPending := none }

/-- Observation at instance reset (R448, R459, R465). -/
def Observe.init : Observe :=
  { ocnt := [], osel := [], freeze := false, pinEn := true, trigFrozen := false, pin := false, freezes := 0, trcCtl := 0,
    trcTrig := 0, trcAlo := 0, trcAhi := 0, trcThresh := 0, trcFilt := 0x0000000000810800#64, trcRaddr := 0,
    trcState := .idle, stream := false, pre := 0, post := 0, postLeft := 0, dropped := 0, disc := 0,
    written := 0, buffer := [], oldest := 0, stamp := 0, syncAt := 0, t0At := 0, sampleFrom := 0, t0 := none, sndHeld := false, sndBusy := false,
    sndCause := 0, sndOver := 0, sndCmd := none, trigDue := false, inCycle := (0, 0), snapshot := [] }

/-- The debug window at instance reset (R478). -/
def Debug.init : Debug := { halt := false, addr := 0, code := [], data := [], regs := [] }

/-- The command queue at instance reset (R480, R488). -/
def CmdQ.init : CmdQ :=
  { tail := 0, head := 0, cplHead := 0, cplTail := 0, badCpl := false, badTail := false, slots := [], cpl := [],
    running := [] }

/-- The block of any legal build right after power-on, with its straps: nothing has booted. -/
def Block.powerOn (b : Build) (instNum : Nat) (pitheadSel : Bool) : Block :=
  { build := b, now := 0, serial := 0, free := 0, usBase := 0, zeroLines := [], ctlClear := [], seams := [], txns := [], xfers := [], ops := [],
    descs := [], paths := [], outs := [], chans := [], ctxs := [], tallies := [], marks := [], marksDropped := 0,
    regs := Regs.init, arb := Arb.init, sump := Sump.init, cw := Causeway.init instNum pitheadSel, bring := Bring.init (instNum, pitheadSel),
    power := Power.init, recov := Recovery.init, safety := Safety.init, ev := Events.init, rlog := RLog.init,
    time := TimeBase.init, obs := Observe.init, dbg := Debug.init, cmdq := CmdQ.init, g0 := none }

/-- An instance of any legal build right after power-on. -/
def State.powerOn (b : Build) (instNum : Nat) (pitheadSel : Bool) : State :=
  { arr := { mem := [], tags := [] }, blk := Block.powerOn b instNum pitheadSel, pending := [] }

/-- The machine right after reset: the reference configuration (R7) after power-on, before BOOT, with an empty queue.
DESIGN CHOICE: straps INST_NUM 0 and PITHEAD_SEL 1 (log 3). -/
def State.reset : State := State.powerOn { channels := 8, bankSize := 2, peers := 4 } 0 true

end Sys2Proof.Machine
end

