-- ==== Sys2Proof/Machine/Tables.lean ====
section
/-! DEFINITION. Tables, bit fields, lines as words and bytes, and the CRC of R297: the plain helpers every family uses. -/

namespace Sys2Proof.Machine

/-- The entry at `i`, or the default `d`. -/
def tget {α : Type} (d : α) : Tbl α → Nat → α
  | [], _ => d
  | (k, v) :: t, i => if k = i then v else tget d t i

/-- The table with entry `i` set to `v`. -/
def tset {α : Type} (t : Tbl α) (i : Nat) (v : α) : Tbl α := (i, v) :: t.filter (fun e => e.1 != i)

/-- The table with entry `i` changed by `f`. -/
def tmod {α : Type} (d : α) (t : Tbl α) (i : Nat) (f : α → α) : Tbl α := tset t i (f (tget d t i))

/-- A counter that stops at `cap` (the manual's "stops at"). -/
def satAdd (cap a b : Nat) : Nat := min cap (a + b)

/-- Field [lo+len-1:lo] of a bit vector, as a number. -/
def fld {n : Nat} (w : BitVec n) (lo len : Nat) : Nat := (w.toNat >>> lo) % 2 ^ len

/-- Bit `i` of a bit vector. -/
def bit {n : Nat} (w : BitVec n) (i : Nat) : Bool := w.getLsbD i

/-- A number placed as field [lo+len-1:lo] of a register. -/
def put (lo len v : Nat) : Word := BitVec.ofNat 64 ((v % 2 ^ len) <<< lo)

/-- A flag placed at bit `i` of a register. -/
def putBit (i : Nat) (b : Bool) : Word := if b then BitVec.ofNat 64 (1 <<< i) else 0

/-- A mask with bits [lo+len-1:lo] set. -/
def maskOf (lo len : Nat) : Word := put lo len (2 ^ len - 1)

/-- A register written through a mask of its writable bits: the others keep their value (R468). -/
def writeMask (old new mask : Word) : Word := (old &&& ~~~mask) ||| (new &&& mask)

/-- Byte k of a line. -/
def lineByte (d : LineData) (k : Nat) : Byte := d.extractLsb' (8 * k) 8

/-- Word k of a line (R222). -/
def lineWord (d : LineData) (k : Nat) : Word := d.extractLsb' (64 * k) 64

/-- The line whose word k is `f k`. -/
def lineOf (f : Nat → Word) : LineData :=
  (List.range 16).foldl (fun acc k => acc ||| ((f k).setWidth 1024 <<< (64 * k))) 0

/-- One bit of a word mask for each k with `f k`. -/
def wordsOf (f : Nat → Bool) : WordMask :=
  (List.range 16).foldl (fun acc k => if f k then acc ||| (1#16 <<< k) else acc) 0

/-- One bit of a byte mask for each k with `f k`. -/
def bytesOf (f : Nat → Bool) : LineMask :=
  (List.range 128).foldl (fun acc k => if f k then acc ||| (1#128 <<< k) else acc) 0

/-- Every bit of each enabled byte. -/
def spread (m : LineMask) : LineData :=
  (List.range 128).foldl (fun acc k => if m.getLsbD k then acc ||| (255#1024 <<< (8 * k)) else acc) 0

/-- `new` laid over `old` where the mask enables a byte. -/
def overlay (old new : LineData) (m : LineMask) : LineData := (old &&& ~~~(spread m)) ||| (new &&& spread m)

/-- The enables of word k. -/
def wordEnable (m : LineMask) (k : Nat) : Nat := fld m (8 * k) 8

/-- A line from its bytes, lowest first; missing bytes are 0. -/
def lineOfBytes (l : List Byte) : LineData :=
  BitVec.ofNat 1024 (l.foldr (fun b acc => acc * 256 + b.toNat) 0)

/-- The bytes of a line, lowest first. -/
def bytesOfLine (d : LineData) : List Byte := (List.range 128).map (lineByte d)

/-- A number from little-endian bytes. -/
def leNat (l : List Byte) : Nat := l.foldr (fun b acc => acc * 256 + b.toNat) 0

/-- The low `n` bytes of a number, little-endian. -/
def leBytes (n v : Nat) : List Byte := (List.range n).map (fun k => BitVec.ofNat 8 (v >>> (8 * k)))

/-- How many bits of a bit vector are set. -/
def ones {n : Nat} (w : BitVec n) : Nat := (List.range n).foldl (fun a i => if w.getLsbD i then a + 1 else a) 0

/-- One bit of the reflected CRC-32C register. -/
def crcBit (c : BitVec 32) : BitVec 32 := if c.getLsbD 0 then (c >>> 1) ^^^ 0x82F63B78#32 else c >>> 1

/-- One byte of CRC-32C. -/
def crcByte (c : BitVec 32) (b : Byte) : BitVec 32 :=
  (List.range 8).foldl (fun c _ => crcBit c) (c ^^^ b.setWidth 32)

/-- CRC-32C: reflected, initial value and final XOR all ones (R297). -/
def crc32c (l : List Byte) : BitVec 32 := ~~~(l.foldl crcByte 0xFFFFFFFF#32)

/-- The number of microsecond ticks up to a port cycle: each falls on every 100th REF_AON edge from the release of AON_RST_N (R39). -/
def usAt (b : Block) (cycle : Nat) : Nat := (cycle - b.usBase) / Config.usCycles

/-- The number of microsecond ticks so far. -/
def usNow (b : Block) : Nat := usAt b b.now

/-- A microsecond timer of limit `l` that started at tick `from` has reached it (R39). -/
def usDue (b : Block) (from_ l : Nat) : Bool := from_ + l + 1 ≤ usNow b

/-- The first element with the property, and the list without it. -/
def takeFirst {α : Type} (p : α → Bool) : List α → Option (α × List α)
  | [] => none
  | x :: l => if p x then some (x, l) else (takeFirst p l).map (fun r => (r.1, x :: r.2))

/-- Insertion of `x` into a list sorted by `key`, after its equals. -/
def insertBy {α : Type} (key : α → Nat) (x : α) : List α → List α
  | [] => [x]
  | y :: l => if key x < key y then x :: y :: l else y :: insertBy key x l

/-- A list sorted by `key`, equals in their order. -/
def sortBy {α : Type} (key : α → Nat) (l : List α) : List α := l.foldl (fun a x => insertBy key x a) []

/-- The element of least key, the first among equals. -/
def leastBy {α : Type} (key : α → Nat) : List α → Option α
  | [] => none
  | x :: l => match leastBy key l with
    | none => some x
    | some y => if key x ≤ key y then some x else some y

end Sys2Proof.Machine
end

