-- ==== Sys2Proof/Machine/Ecc.lean ====
section
/-! DEFINITION. The word code of R222 to R224, and the stored words of the arrays. -/

namespace Sys2Proof.Machine

/-- The codeword position of data bit `i`: the positions from 3 to 71 that are no power of two, in ascending order. -/
def dataPos (i : Nat) : Nat :=
  if i < 1 then 3 else if i < 4 then i + 4 else if i < 11 then i + 5 else if i < 26 then i + 6
  else if i < 57 then i + 7 else i + 8

/-- c[6:0] of a data word: the XOR of the positions of its set bits (R222). -/
def syndromeOf (d : Word) : Nat :=
  (List.range 64).foldl (fun a i => if d.getLsbD i then a ^^^ dataPos i else a) 0

/-- Parity of the ones of a number below 2^n. -/
def parityOf {n : Nat} (w : BitVec n) : Bool := ones w % 2 == 1

/-- The check byte of a data word (R222). -/
def eccEncode (d : Word) : Byte :=
  let c := syndromeOf d
  let q := (parityOf d) != (parityOf (BitVec.ofNat 7 c))
  BitVec.ofNat 8 (c + if q then 128 else 0)

/-- The verdicts of R223, coded as ECC_TEST_CHECK.VERDICT. -/
inductive Verdict where
  | clean | corrected | uncorrectable | poisoned
  deriving DecidableEq, Repr

/-- What decoding a stored word gives: syndrome, q, verdict, and the data delivered (0 where none is valid). -/
structure Decoded where
  syn : Nat
  q : Bool
  verdict : Verdict
  data : Word
  deriving DecidableEq, Repr

/-- The decoder of R223. -/
def eccDecode (d : Word) (c : Byte) : Decoded :=
  let s := syndromeOf d ^^^ (c.toNat % 128)
  let q := parityOf d != parityOf c
  if s = 0 then { syn := s, q := q, verdict := if q then .corrected else .clean, data := d }
  else if q then
    if s ≤ 71 then
      let fixed := match (List.range 64).find? (fun i => dataPos i == s) with
        | some i => d ^^^ (1#64 <<< i)
        | none => d
      { syn := s, q := q, verdict := .corrected, data := fixed }
    else { syn := s, q := q, verdict := .uncorrectable, data := 0 }
  else if s = 3 ∧ d = 0 ∧ c = 3 then { syn := s, q := q, verdict := .poisoned, data := 0 }
  else { syn := s, q := q, verdict := .uncorrectable, data := 0 }

/-- The stored form of a poisoned word (R224). -/
def poisonWord : Word × Byte := (0, 3)

end Sys2Proof.Machine
end

