-- ==== Sys2Proof/Machine/Memory.lean ====
section
/-! DEFINITION. The byte-cell memory of the arrays: canonical form, reads, writes, and stored words and lines. -/

namespace Sys2Proof.Machine

/-- The canonical form: keys strictly rising from `lo`, no zero byte listed. -/
def wfFrom : Nat → Memory → Bool
  | _, [] => true
  | lo, (a, v) :: m => decide (lo ≤ a) && decide (v ≠ 0) && wfFrom (a + 1) m

/-- The canonical form of a memory. -/
def Memory.wf (m : Memory) : Bool := wfFrom 0 m

/-- One byte; an unlisted byte reads 0 (log 4). -/
def readByte : Memory → Nat → Byte
  | [], _ => 0
  | (a, v) :: m, k => if a = k then v else readByte m k

/-- The cells of `l` laid out from key `k`, zero bytes left out. -/
def cellsFrom (k : Nat) : List Byte → Memory
  | [] => []
  | b :: l => if b = 0 then cellsFrom (k + 1) l else (k, b) :: cellsFrom (k + 1) l

/-- The bytes from key `k` on replaced by `l`; every other byte unchanged. -/
def writeBytes (m : Memory) (k : Nat) (l : List Byte) : Memory :=
  m.filter (fun e => decide (e.1 < k)) ++ cellsFrom k l ++ m.filter (fun e => decide (k + l.length ≤ e.1))

/-- Every byte with `lo ≤ key < hi` set to 0. -/
def zeroRange (m : Memory) (lo hi : Nat) : Memory :=
  m.filter (fun e => decide (e.1 < lo) || decide (hi ≤ e.1))

/-- `n` bytes from key `k`. -/
def readBytes (m : Memory) (k n : Nat) : List Byte := (List.range n).map (fun i => readByte m (k + i))

/-- Rows a bank's key space holds: 8,192 lines and 16 redundant rows (R17, R242). -/
def rowSpace : Nat := 8208

/-- The key of a stored line: channel, physical bank (64 S0B, 65 S1B), physical row. A word takes 16 keys. -/
def lineKey (ch bank row : Nat) : Nat := ((ch * 66 + bank) * rowSpace + row) * 256

/-- The key of a stored word. -/
def wordKey (ch bank row word : Nat) : Nat := lineKey ch bank row + word * 16

/-- A stored word: its data and its check byte. -/
def readWord (m : Memory) (key : Nat) : Word × Byte :=
  (BitVec.ofNat 64 (leNat (readBytes m key 8)), readByte m (key + 8))

/-- The nine bytes of a stored word. -/
def wordBytes (w : Word × Byte) : List Byte := leBytes 8 w.1.toNat ++ [w.2]

/-- A stored word written unchanged. -/
def writeWord (m : Memory) (key : Nat) (w : Word × Byte) : Memory := writeBytes m key (wordBytes w)

/-- The 256 keys of a line: 16 words of nine bytes, each padded to 16 keys. -/
def lineBytes (f : Nat → Word × Byte) : List Byte :=
  (List.range 16).flatMap (fun k => wordBytes (f k) ++ List.replicate 7 0)

/-- A whole stored line written. -/
def writeLine (m : Memory) (key : Nat) (f : Nat → Word × Byte) : Memory := writeBytes m key (lineBytes f)

end Sys2Proof.Machine
end

