-- ==== Sys2Proof/Machine/Numbers.lean ====
section
/-! DEFINITION. Element formats: their values (R122, R126), conversions and rounding (R127 to R129), MX scales (R128),
the reduce arithmetic (R149, R150) and what trips the canary (R159). -/

namespace Sys2Proof.Machine

/-- The value of an element: NaN or infinity with its sign, or an exact dyadic `±man × 2^exp`. -/
inductive FVal where
  | nan (neg : Bool)
  | inf (neg : Bool)
  | fin (neg : Bool) (man : Nat) (exp : Int)
  deriving DecidableEq, Repr

/-- How a float format ends its range: IEEE infinities and NaNs, the one NaN code of E4M3, or neither. -/
inductive Special where
  | ieee | e4m3 | none
  deriving DecidableEq, Repr

/-- A float format: exponent bits, fraction bits, and its special codes; the bias is 2^(e-1) - 1. -/
structure FFmt where
  e : Nat
  m : Nat
  sp : Special
  deriving DecidableEq, Repr

def fp32 : FFmt := ⟨8, 23, .ieee⟩
def bf16 : FFmt := ⟨8, 7, .ieee⟩
def fp16 : FFmt := ⟨5, 10, .ieee⟩
def e5m2 : FFmt := ⟨5, 2, .ieee⟩
def e4m3 : FFmt := ⟨4, 3, .e4m3⟩
def e3m2 : FFmt := ⟨3, 2, .none⟩
def e2m3 : FFmt := ⟨2, 3, .none⟩
def e2m1 : FFmt := ⟨2, 1, .none⟩

/-- The exponent bias. -/
def FFmt.bias (f : FFmt) : Nat := 2 ^ (f.e - 1) - 1

/-- The largest finite magnitude, as `(man, exp)` (R127). -/
def FFmt.maxFin (f : FFmt) : Nat × Int :=
  match f.sp with
  | .ieee => (2 ^ (f.m + 1) - 1, (2 ^ f.e - 2 : Int) - f.bias - f.m)
  | .e4m3 => (2 ^ (f.m + 1) - 2, (2 ^ f.e - 1 : Int) - f.bias - f.m)
  | .none => (2 ^ (f.m + 1) - 1, (2 ^ f.e - 1 : Int) - f.bias - f.m)

/-- The value a code of the format stands for. -/
def FFmt.decode (f : FFmt) (x : Nat) : FVal :=
  let neg := (x >>> (f.e + f.m)) % 2 == 1
  let ex := (x >>> f.m) % 2 ^ f.e
  let fr := x % 2 ^ f.m
  let top := 2 ^ f.e - 1
  if f.sp = .ieee ∧ ex = top then (if fr = 0 then .inf neg else .nan neg)
  else if f.sp = .e4m3 ∧ ex = top ∧ fr = 2 ^ f.m - 1 then .nan neg
  else if ex = 0 then .fin neg fr (1 - (f.bias : Int) - f.m)
  else .fin neg (fr + 2 ^ f.m) ((ex : Int) - f.bias - f.m)

/-- The sign bit of a code, placed. -/
def FFmt.sign (f : FFmt) (neg : Bool) : Nat := if neg then 2 ^ (f.e + f.m) else 0

/-- The format's quiet NaN with a sign (R127, R150). -/
def FFmt.nan (f : FFmt) (neg : Bool) : Nat :=
  f.sign neg + match f.sp with
    | .ieee => (2 ^ f.e - 1) * 2 ^ f.m + 2 ^ (f.m - 1)
    | _ => (2 ^ f.e - 1) * 2 ^ f.m + (2 ^ f.m - 1)

/-- The format's infinity, or its NaN where it has none (R127). -/
def FFmt.inf (f : FFmt) (neg : Bool) : Nat :=
  match f.sp with
  | .ieee => f.sign neg + (2 ^ f.e - 1) * 2 ^ f.m
  | _ => f.nan neg

/-- The format's largest finite code. -/
def FFmt.big (f : FFmt) (neg : Bool) : Nat :=
  f.sign neg + match f.sp with
    | .ieee => (2 ^ f.e - 2) * 2 ^ f.m + (2 ^ f.m - 1)
    | .e4m3 => (2 ^ f.e - 1) * 2 ^ f.m + (2 ^ f.m - 2)
    | .none => (2 ^ f.e - 1) * 2 ^ f.m + (2 ^ f.m - 1)

/-- Rounding: to nearest with ties to even, or stochastic with the element's 16-bit random number (R129). -/
inductive Rounding where
  | nearest
  | stochastic (r : Nat)
  deriving DecidableEq, Repr

/-- `man` with its low `d` bits rounded away. -/
def roundOff (rm : Rounding) (man d : Nat) : Nat :=
  if d = 0 then man
  else match rm with
    | .nearest =>
      let k := man >>> d
      let rest := man % 2 ^ d
      if 2 ^ d < 2 * rest ∨ (2 * rest = 2 ^ d ∧ k % 2 = 1) then k + 1 else k
    | .stochastic r => (man + (if 16 ≤ d then r <<< (d - 16) else r >>> (16 - d))) >>> d

/-- A non-zero magnitude at the format's quantum: the rounded significand and the exponent of its last bit. -/
def FFmt.quantize (f : FFmt) (rm : Rounding) (man : Nat) (exp : Int) : Nat × Int :=
  let q := max (exp + (Nat.log2 man : Int) - f.m) (1 - (f.bias : Int) - f.m)
  if q ≤ exp then (man <<< (exp - q).toNat, q) else (roundOff rm man (q - exp).toNat, q)

/-- `a × 2^p > b × 2^q`. -/
def above (a : Nat) (p : Int) (b : Nat) (q : Int) : Bool :=
  if p ≤ q then decide (b <<< (q - p).toNat < a) else decide (b < a <<< (p - q).toNat)

/-- The code of a value in the format (R127); `sat` is the SAT bit. The overflow test takes the rounded magnitude
(DEDUCED: R129 step 4 tests after rounding; log 21). -/
def FFmt.encode (f : FFmt) (rm : Rounding) (sat : Bool) : FVal → Nat
  | .nan neg => f.nan neg
  | .inf neg => if f.sp ≠ .ieee ∧ sat then f.big neg else f.inf neg
  | .fin neg man exp =>
    if man = 0 then f.sign neg
    else
      let (k, q) := f.quantize rm man exp
      if above k q f.maxFin.1 f.maxFin.2 then (if sat then f.big neg else f.inf neg)
      else if k < 2 ^ f.m then f.sign neg + k
      else
        let up := 2 ^ (f.m + 1) ≤ k
        let k := if up then k / 2 else k
        let q := if up then q + 1 else q
        f.sign neg + (q + f.m + f.bias).toNat * 2 ^ f.m + (k - 2 ^ f.m)

/-- Stored bits per element of a format code (R122); 0 for a reserved code. -/
def fmtBits (c : Nat) : Nat :=
  match c with
  | 0x00 | 0x01 | 0x07 | 0x08 | 0x09 | 0x10 | 0x11 | 0x15 => 8
  | 0x02 | 0x14 => 4
  | 0x03 | 0x04 => 32
  | 0x05 | 0x06 => 16
  | 0x12 | 0x13 => 6
  | _ => 0

/-- The MX formats, codes 0x10 to 0x15 (R122). -/
def isMx (c : Nat) : Bool := decide (0x10 ≤ c) && decide (c ≤ 0x15)

/-- The float format of a code's elements, where they are floats. -/
def fmtFloat (c : Nat) : Option FFmt :=
  match c with
  | 0x04 => some fp32
  | 0x05 => some bf16
  | 0x06 => some fp16
  | 0x07 | 0x10 => some e4m3
  | 0x08 | 0x11 => some e5m2
  | 0x12 => some e3m2
  | 0x13 => some e2m3
  | 0x14 => some e2m1
  | _ => none

/-- A two's complement integer of `n` bits, times 2^`exp`. -/
def intVal (n x : Nat) (exp : Int) : FVal :=
  if 2 ^ (n - 1) ≤ x then .fin true (2 ^ n - x) exp else .fin false x exp

/-- The value of a stored element before any scale (R122, R126). -/
def elemVal (c x : Nat) : FVal :=
  match fmtFloat c with
  | some f => f.decode x
  | none => if c = 0x15 then intVal 8 x (-6) else intVal (fmtBits c) x 0

/-- A value times its block's scale 2^(scale-127); a scale of 0xFF makes every element NaN with its own sign (R126). -/
def scaled (c x scale : Nat) : FVal :=
  if scale = 255 then .nan ((x >>> (fmtBits c - 1)) % 2 == 1)
  else match elemVal c x with
    | .fin neg man exp => .fin neg man (exp + (scale : Int) - 127)
    | v => v

/-- The conversion of an element on a read (R126, R127); the identity where the formats agree. -/
def convRead (sfmt pfmt : Nat) (sat : Bool) (scale x : Nat) : Nat :=
  if sfmt = pfmt then x
  else match fmtFloat pfmt with
    | some f => f.encode .nearest sat (if isMx sfmt then scaled sfmt x scale else elemVal sfmt x)
    | none => x

/-- The conversion of an element on a write to a format that is not MX (R127). -/
def convWrite (sfmt pfmt : Nat) (sat : Bool) (rm : Rounding) (x : Nat) : Nat :=
  if sfmt = pfmt then x
  else match fmtFloat sfmt with
    | some f => f.encode rm sat (elemVal pfmt x)
    | none => x

/-- emax of an MX element format (R128). -/
def mxEmax (c : Nat) : Int :=
  match c with
  | 0x10 => 8
  | 0x11 => 15
  | 0x12 => 4
  | 0x13 | 0x14 => 2
  | _ => 0

/-- floor(log2) of a non-zero magnitude. -/
def floorLog2 (man : Nat) (exp : Int) : Int := (Nat.log2 man : Int) + exp

/-- The scale of a block and whether it holds a NaN or infinity (R128 steps 1 to 3). -/
def mxScale (c : Nat) (vs : List FVal) : Nat :=
  if vs.any (fun v => match v with | .fin _ _ _ => false | _ => true) then 255
  else
    let tops := vs.filterMap (fun v => match v with
      | .fin _ man exp => if man = 0 then none else some (floorLog2 man exp)
      | _ => none)
    match tops.max? with
    | none => 0
    | some t => (max 0 (min 254 (t - mxEmax c + 127))).toNat

/-- One element of an MX block on a write (R128 step 4). -/
def mxElem (c scale : Nat) (rm : Rounding) (v : FVal) : Nat :=
  if scale = 255 then 0
  else match v with
    | .fin neg man exp =>
      let e := exp - (scale : Int) + 127
      if c = 0x15 then
        let k := if man = 0 then 0 else if (-6 : Int) ≤ e then man <<< (e + 6).toNat else roundOff rm man (-6 - e).toNat
        let k := min k 127
        if neg ∧ k ≠ 0 then 256 - k else k
      else match fmtFloat c with
        | some f => f.encode rm true (.fin neg man e)
        | none => 0
    | _ => 0

/-- Splits a rounded sum into the exact dyadic of two finite values. -/
def exactAdd (an : Bool) (am : Nat) (ae : Int) (bn : Bool) (bm : Nat) (be : Int) : Int × Int :=
  let e := min ae be
  let a : Int := (am <<< (ae - e).toNat : Nat)
  let b : Int := (bm <<< (be - e).toNat : Nat)
  ((if an then -a else a) + (if bn then -b else b), e)

/-- Floating-point addition s + x, rounded once, ties to even (R149, R150). -/
def FFmt.add (f : FFmt) (s x : Nat) : Nat :=
  match f.decode s, f.decode x with
  | .nan n, _ => f.nan n
  | _, .nan n => f.nan n
  | .inf a, .inf b => if a = b then f.inf a else f.nan false
  | .inf a, _ => f.inf a
  | _, .inf b => f.inf b
  | .fin an am ae, .fin bn bm be =>
    let (v, e) := exactAdd an am ae bn bm be
    if v = 0 then f.sign (an && bn)
    else f.encode .nearest false (.fin (decide (v < 0)) v.natAbs e)

/-- The order key of a value that is no NaN: -0 below +0 (R149's maximum and minimum). -/
def FFmt.key (f : FFmt) (x : Nat) : Int :=
  let mag := x % 2 ^ (f.e + f.m)
  if mag = x then (mag : Int) else -(mag : Int) - 1

/-- IEEE 754-2019 maximum or minimum (R149, R150). -/
def FFmt.pick (f : FFmt) (wantMax : Bool) (s x : Nat) : Nat :=
  match f.decode s, f.decode x with
  | .nan n, _ => f.nan n
  | _, .nan n => f.nan n
  | _, _ => if (f.key s < f.key x) = wantMax then x else s

/-- The reduce operations of R84: the result stored for stored element `s` and incoming element `x`. -/
def redElem (redop s x : Nat) : Nat :=
  match redop with
  | 1 => fp32.add s x
  | 2 => bf16.add s x
  | 3 => fp16.add s x
  | 4 => fp32.pick true s x
  | 5 => bf16.pick true s x
  | 6 => fp16.pick true s x
  | 7 => fp32.pick false s x
  | 8 => bf16.pick false s x
  | 9 => fp16.pick false s x
  | _ => (s + x) % 2 ^ 32

/-- The format code of a REDOP's elements (R84). -/
def redFmt (redop : Nat) : Nat :=
  match redop with
  | 1 | 4 | 7 => 0x04
  | 2 | 5 | 8 => 0x05
  | 3 | 6 | 9 => 0x06
  | _ => 0x03

/-- Element bytes of a REDOP (R84). -/
def redBytes (redop : Nat) : Nat := fmtBits (redFmt redop) / 8

/-- A REDOP of R84; codes 0 and 0xB to 0xF are reserved. -/
def redValid (redop : Nat) : Bool := decide (1 ≤ redop) && decide (redop ≤ 10)

/-- What an element trips the canary as, if it does: 1 NaN, 2 infinity (R159, R165). -/
def canaryCause (c x : Nat) : Option Nat :=
  match c with
  | 0x04 | 0x05 | 0x06 | 0x07 | 0x08 | 0x10 | 0x11 =>
    match elemVal c x with
    | .nan _ => some 1
    | .inf _ => some 2
    | _ => none
  | 0x09 => if x = 255 then some 1 else none
  | _ => none

end Sys2Proof.Machine
end

