-- ==== Sys2Proof/Machine/Address.lean ====
section
/-! DEFINITION. Package addresses, seams and the interleave of R47 to R59, and the decode of R50 and R68. -/

namespace Sys2Proof.Machine

/-- Lines per bank (R17). -/
def linesPerBank (b : Build) : Nat := 2048 <<< b.bankSize

/-- log2 of the lines per bank. -/
def logLines (b : Build) : Nat := 11 + b.bankSize

/-- c = log2 of the channel count (R56). -/
def logCh (b : Build) : Nat := if b.channels ≤ 2 then 1 else if b.channels ≤ 4 then 2 else 3

/-- Data capacity in bytes (R7). -/
def capacity (b : Build) : Nat := b.channels * 64 * linesPerBank b * 128

/-- The instance number of a package address (R47). -/
def instOf (a : BitVec 48) : Nat := fld a 42 6

/-- The local address of a package address (R47). -/
def localOf (a : BitVec 48) : Nat := fld a 0 42

/-- fold6 of R57 over `n` bits. -/
def fold6 (n x : Nat) : Nat := (x % 64) ^^^ ((x >>> 6) % 64) ^^^ (((x % 2 ^ n) >>> 12) % 64)

/-- Where a line lies (R56). -/
structure Loc where
  ch : Nat
  bank : Nat
  row : Nat
  deriving DecidableEq, Repr

/-- The interleave unit in lines: 1 or 4 (R56). -/
def unitLines (s : Seam) : Nat := if s.ilv then 4 else 1

/-- The bank of key `u` and row group `g` under the seam's hash (R57). -/
def hashBank (b : Build) (s : Seam) (u g : Nat) : Nat :=
  let n := logLines b - (if s.ilv then 2 else 0)
  let k := 2 * s.seed + 1
  if s.hash = 0 then u
  else if s.hash = 1 then u ^^^ fold6 n g
  else u ^^^ fold6 n ((g * k) % 2 ^ n)

/-- Channel, bank and row of the line with number `line` (local address / 128) in an on-chip seam (R56). -/
def locOf (b : Build) (s : Seam) (line : Nat) : Loc :=
  let u := line / unitLines s
  let q := line % unitLines s
  let g := u / 2 ^ (6 + logCh b)
  { ch := (u / 64) % 2 ^ logCh b, bank := hashBank b s (u % 64) g, row := g * unitLines s + q }

/-- The first byte of a seam and the byte after its last (R51: granules of 64 KiB). -/
def seamLo (s : Seam) : Nat := s.base * 65536
def seamHi (s : Seam) : Nat := (s.base + s.size) * 65536

/-- The VALID seams that share a byte with [lo, hi]. -/
def seamsOver (t : Tbl Seam) (lo hi : Nat) : List (Nat × Seam) :=
  t.filter (fun e => e.2.valid && decide (seamLo e.2 ≤ hi) && decide (lo < seamHi e.2))

/-- How many bytes of [lo, hi] a seam covers. -/
def covered (s : Seam) (lo hi : Nat) : Nat := min (hi + 1) (seamHi s) - max lo (seamLo s)

/-- The decode of a byte range for a context (R50, R68): the seam, or the lowest reason code that applies. -/
def decodeRange (t : Tbl Seam) (lo hi : Nat) (ctx : Nat) : Except Nat Nat :=
  let hit := seamsOver t lo hi
  let bytes := hit.foldl (fun a e => a + covered e.2 lo hi) 0
  if bytes < hi + 1 - lo then .error 1
  else match hit with
    | [(n, s)] => if bit s.owners ctx && !s.clearing then .ok n else .error 3
    | _ => .error 2

/-- The seam that holds a line, whoever owns it. -/
def seamAt (t : Tbl Seam) (line : Nat) : Option (Nat × Seam) := (seamsOver t (line * 128) (line * 128 + 127)).head?

/-- The channel that owns an on-chip local address: it does not depend on the hash (R59), only on the unit. -/
def chanOf (b : Build) (s : Seam) (addr : Nat) : Nat := (locOf b s (addr / 128)).ch

end Sys2Proof.Machine
end

