-- ==== Sys2Proof/Machine/Ops.lean ====
section
/-! DEFINITION. The named operations every family uses: the units of the block by number, counters and trace (R443 to
R456), event records and the retention log (R423 to R435), and the completion of management commands (R484, R486). -/

namespace Sys2Proof.Machine

/-! Units by number. -/

def chanOk (b : Block) (c : Nat) : Bool := decide (c < b.build.channels)
def peerOk (b : Block) (n : Nat) : Bool := decide (n < b.build.peers)
/-- A port that takes requests from outside: a port of a built channel but X0, which is internal (R24). -/
def portOk (b : Block) (p : PortId) : Bool := chanOk b p.ch && decide (p.port ≠ .X0)

def chan (b : Block) (c : Nat) : Channel := tget Channel.init b.chans c
def setChan (b : Block) (c : Nat) (f : Channel → Channel) : Block := { b with chans := tmod Channel.init b.chans c f }
def ctxOf (b : Block) (c : Nat) : Ctx := tget Ctx.init b.ctxs c
def setCtx (b : Block) (c : Nat) (f : Ctx → Ctx) : Block := { b with ctxs := tmod Ctx.init b.ctxs c f }
def linkOf (b : Block) (n : Nat) : Link := tget Link.init b.cw.links n
def setLink (b : Block) (n : Nat) (f : Link → Link) : Block :=
  { b with cw := { b.cw with links := tmod Link.init b.cw.links n f } }
def seamOf (b : Block) (n : Nat) : Seam := tget Seam.init b.seams n
def setSeam (b : Block) (n : Nat) (f : Seam → Seam) : Block := { b with seams := tmod Seam.init b.seams n f }
def bankOf (c : Channel) (k : Nat) : BankSt := tget BankSt.init c.banks k
def setBank (b : Block) (ch k : Nat) (f : BankSt → BankSt) : Block :=
  setChan b ch (fun c => { c with banks := tmod BankSt.init c.banks k f })

/-- A table indexed by a key with decidable equality. -/
def aget {κ α : Type} [DecidableEq κ] (d : α) : List (κ × α) → κ → α
  | [], _ => d
  | (k, v) :: t, i => if k = i then v else aget d t i
def aset {κ α : Type} [DecidableEq κ] (t : List (κ × α)) (i : κ) (v : α) : List (κ × α) :=
  (i, v) :: t.filter (fun e => decide (e.1 ≠ i))

def outOf (b : Block) (p : PortId) : PortOut := aget PortOut.init b.outs p
def setOut (b : Block) (p : PortId) (o : PortOut) : Block := { b with outs := aset b.outs p o }
def pathOf (b : Block) (p : PathId) : PathSt := aget PathSt.init b.paths p
def setPath (b : Block) (p : PathId) (o : PathSt) : Block := { b with paths := aset b.paths p o }

def txnOf (b : Block) (uid : Nat) : Option Txn := b.txns.find? (fun x => x.uid == uid)
def setTxn (b : Block) (uid : Nat) (f : Txn → Txn) : Block :=
  { b with txns := b.txns.map (fun x => if x.uid = uid then f x else x) }
def dropTxn (b : Block) (uid : Nat) : Block := { b with txns := b.txns.filter (fun x => decide (x.uid ≠ uid)) }

/-- The two operations come from one port, of this instance or of another; the peer port a request of another instance came by may change
with its route (R310). -/
def sameOrigin (x y : Origin) : Bool :=
  match x, y with
  | .loc p, .loc q => p == q
  | .remote i o _, .remote j k _ => i == j && o == k
  | _, _ => false

/-- The requests outstanding at a port, in acceptance order (R100). -/
def portTxns (b : Block) (p : PortId) : List Txn := b.txns.filter (fun x => decide (x.org = .loc p))

/-- The codes of ARB_STARVE for the ports (R203): 0 M0 to 8 X0. -/
def portCode (p : Port) : Nat :=
  match p with
  | .M0 => 0 | .M1 => 1 | .M2 => 2 | .M3 => 3 | .V0 => 4 | .V1 => 5 | .D0 => 6 | .I0 => 7 | .X0 => 8

/-- The source code of records: a port's code, or 9 for the causeway local port (R204). -/
def Origin.code : Origin → Nat
  | .loc p => portCode p.port
  | .remote _ _ _ => 9
/-- The channel a request entered at; 0 for a request from another instance. -/
def Origin.chan : Origin → Nat
  | .loc p => p.ch
  | .remote _ _ _ => 0

/-- Operation codes (R83). -/
def Op.code (o : Op) : Nat :=
  match o with
  | .rd => 0x00 | .wr => 0x01 | .red => 0x02 | .tileRd => 0x08 | .tileWr => 0x09 | .tileRed => 0x0A | .gather => 0x0C
  | .scatter => 0x0D | .scatterRed => 0x0E | .fence => 0x10 | .tallyAcq => 0x14 | .tallyExt => 0x15 | .tallyRel => 0x16

/-- Status codes (R96). -/
def Status.code (s : Status) : Nat :=
  match s with
  | .okay => 0 | .poison => 1 | .trap => 2 | .locked => 3 | .leaseLost => 4 | .broken => 5 | .canary => 6 | .asleep => 7
  | .aborted => 8 | .unsup => 9 | .sumpErr => 10 | .noroute => 11

/-! Outcomes. -/

/-- The block after a command that leaves the arrays as they are. -/
def done (s : State) (b : Block) : Host.Outcome State Fault Refusal := .next { s with blk := b }

/-- The block and the arrays after a command. -/
def doneArr (s : State) (r : Arrays × Block) : Host.Outcome State Fault Refusal := .next { s with arr := r.1, blk := r.2 }

/-- A command that names a unit: done if the build has it, else nothing changes, since the build has no such pin, queue or timer
(R489; log 6). -/
def guarded (ok : Bool) (s : State) (b : Block) : Host.Outcome State Fault Refusal := done s (if ok then b else s.blk)

/-- `guarded` for a command that changes the arrays. -/
def guardedArr (ok : Bool) (s : State) (r : Arrays × Block) : Host.Outcome State Fault Refusal :=
  doneArr s (if ok then r else (s.arr, s.blk))

/-! Power and readiness in one place. -/

/-- The power state of a channel (R352). -/
def chPower (b : Block) (c : Nat) : PState := tget .run b.power.ch c

/-- The state of the core domain, coded as PWR_STAT.HS_TARGET: that of its most awake channel, or the instance's (R352). -/
def coreState (b : Block) : Nat :=
  match b.power.inst with
  | .off => 4
  | .deep => 3
  | .on =>
    let l := List.range b.build.channels
    if l.any (fun c => chPower b c == .run) then 0
    else if l.any (fun c => chPower b c == .idle) then 1 else 2

/-- The channel sequencer's own line operations, which serve no request (R67, R241, R345, R393). -/
def bySequencer (k : LKind) : Bool := match k with | .test | .clear | .wipe | .replay => true | _ => false

/-- CLK_PORT runs in a channel: in Run, and while one of its ports has a request outstanding, which restarts it (R42, R354, R367). -/
def portsRun (b : Block) (c : Nat) : Bool :=
  chPower b c == .run || b.txns.any (fun x => match x.org with | .loc p => p.ch == c | .remote _ _ _ => false)

/-- CLK_TRC runs in Run and Idle (R42). -/
def trcRuns (b : Block) : Bool := decide (coreState b ≤ 1) && !b.safety.clkHeld

/-- The block is ready: boot has ended and released the ports (R338). PHASE 5 is READY (R351). -/
def isReady (b : Block) : Bool := b.bring.phase == 5 && !b.bring.inReset

/-- A recovery of the channel is past its grant check: the channel is frozen (R392). -/
def chFrozen (b : Block) (c : Nat) : Bool :=
  match (chan b c).recov with
  | some r => r.phase != .check
  | none => false

/-! Counters. -/

/-- Whether the counters are frozen (R446). -/
def obsFrozen (o : Observe) : Bool := o.freeze || (o.pinEn && o.pin) || o.trigFrozen

/-- What an occurrence of a counted event carries for the filters of R444; 99 where it carries none. -/
structure Tap where
  ch : Nat := 99
  port : Nat := 99
  cls : Nat := 99
  ctx : Nat := 99
  cluster : Nat := 99
  deriving DecidableEq, Repr

/-- The reset value of OSELn: every filter off (R448). -/
def oselInit : Word := putBit 53 true ||| putBit 46 true ||| putBit 42 true ||| putBit 37 true ||| putBit 33 true

/-- One filter of OSELn: off, not carried by the event, or equal. -/
def tapPass (any : Bool) (field v : Nat) : Bool := any || v == 99 || field == v

/-- Whether a counter with this OSELn counts an occurrence of `ev` (R443, R444). -/
def oselHit (w : Word) (ev : Nat) (t : Tap) : Bool :=
  bit w 63 && fld w 54 8 == ev && tapPass (bit w 53) (fld w 47 6) t.ctx && tapPass (bit w 46) (fld w 43 3) t.cls
    && tapPass (bit w 42) (fld w 38 4) t.port && tapPass (bit w 37) (fld w 34 3) t.ch
    && tapPass (bit w 33) (fld w 30 3) t.cluster

/-- 2^48 - 1, where the counters stop. -/
def cap48 : Nat := 2 ^ 48 - 1

/-- The counters after an event of code `ev` that adds `n` (R443). A counter that reaches the threshold of trigger
source 3 while ARMED makes the trigger due (R455). -/
def countObs (o : Observe) (ev : Nat) (t : Tap) (n : Nat) : Observe :=
  if obsFrozen o then o
  else
    let hits := o.osel.filter (fun e => oselHit e.2 ev t)
    let ocnt := hits.foldl (fun a e => tmod 0 a e.1 (fun v => satAdd cap48 v n)) o.ocnt
    let due := o.trcState == .armed && fld o.trcTrig 60 3 == 3
      && decide (fld o.trcThresh 0 48 ≤ tget 0 ocnt (fld o.trcTrig 51 9)) && hits.any (fun e => e.1 == fld o.trcTrig 51 9)
    { o with ocnt := ocnt, trigDue := o.trigDue || due }

/-- An event counted, while CLK_TRC runs (R443). -/
def count (b : Block) (ev : Nat) (t : Tap) (n : Nat) : Block :=
  if trcRuns b then { b with obs := countObs b.obs ev t n } else b

/-- A fixed arbitration counter, which a freeze stops too (R445, R447). -/
def fixedAdd (b : Block) (t : Tbl Nat) (i n : Nat) : Tbl Nat :=
  if obsFrozen b.obs then t else tmod 0 t i (fun v => satAdd cap48 v n)

/-! Trace. -/

/-- Slots that classes 0 to 6 may fill: 16 of 16,384 are reserved for class 7 (R453). -/
def trcRoom : Nat := 16368

/-- Index of the record to discard: the first unprotected record of the lowest class below 7, with that class. -/
def trcVictim (l : List TraceRec) : Option (Nat × TraceRec) :=
  leastBy (fun e => e.2.cls) ((l.zipIdx.map (fun e => (e.2, e.1))).filter (fun e => !e.2.inWindow && decide (e.2.cls < 7)))

/-- A MARK record (R451). -/
def trcMark (r : TraceRec) : Bool := r.cls == 7 && fld r.w0 8 6 == 1

/-- A discard counted in TRC_STAT.DROPPED and in the queued MARK, which is made if none is held (R456). A MARK's
payload holds 8 bits a class, each stopping at 255. -/
def trcDrop (o : Observe) (cls : Nat) : Observe :=
  let add (w : Word) : Word :=
    let v := fld w (8 * cls) 8
    if v = 255 then w else w + BitVec.ofNat 64 (1 <<< (8 * cls))
  let o := { o with dropped := satAdd (2 ^ 32 - 1) o.dropped 1 }
  if o.buffer.any trcMark then { o with buffer := o.buffer.map (fun r => if trcMark r then { r with w1 := add r.w1 } else r) }
  else
    let w0 := put 0 3 7 ||| put 8 6 1 ||| put 32 32 o.stamp
    { o with buffer := o.buffer ++ [{ w0 := w0, w1 := add 0, cls := 7, inWindow := false }] }

/-- The buffer without its n-th record; the oldest held slot moves when the head leaves. -/
def trcRemove (o : Observe) (n : Nat) : Observe :=
  { o with buffer := o.buffer.eraseIdx n, oldest := (o.oldest + 1) % 16384 }

/-- A record placed in the buffer under R454 and R456. -/
def trcPlace (o : Observe) (r : TraceRec) : Observe :=
  let app (o : Observe) : Observe := { o with buffer := o.buffer ++ [r], written := (o.written + 1) % 2 ^ 32 }
  let full := if r.cls = 7 then 16384 else trcRoom
  if o.buffer.length < full then app o
  else if o.stream = false ∨ r.cls = 7 then
    match (o.buffer.zipIdx.find? (fun e => !e.1.inWindow)) with
    | some e => app (trcRemove o e.2)
    | none => trcDrop o r.cls
  else match trcVictim o.buffer with
    | none => trcDrop o r.cls
    | some (n, v) =>
      if r.inWindow ∨ v.cls < r.cls then app (trcDrop (trcRemove o n) v.cls) else trcDrop o r.cls

/-- W0 of a record that enters now (R451). -/
def trcWord0 (b : Block) (cls kind info : Nat) (trig : Bool) : Word :=
  put 0 3 cls ||| putBit 3 (bit b.obs.disc cls) ||| putBit 4 trig ||| put 8 6 kind ||| put 14 13 info ||| put 27 3 b.now
    ||| put 32 32 b.obs.stamp

/-- A record enters whatever the trace's state, while CLK_TRC runs; `win` puts it into the window. -/
def trcPut (b : Block) (cls kind info : Nat) (trig win : Bool) (payload : Word) : Block :=
  if trcRuns b then
    let r : TraceRec := { w0 := trcWord0 b cls kind info trig, w1 := payload, cls := cls, inWindow := win }
    { b with obs := trcPlace { b.obs with disc := b.obs.disc &&& ~~~(BitVec.ofNat 8 (1 <<< cls)) } r }
  else b

/-- Records enter in this state: ARMED, or TRIGGERED while the window has room (R454). -/
def trcLive (o : Observe) : Bool :=
  match o.trcState with | .armed => true | .triggered => decide (0 < o.postLeft) | _ => false

/-- A record of a class below `cls` that entered in this CLK_TRC cycle. -/
def trcYields (o : Observe) (cls : Nat) (r : TraceRec) : Bool := fld r.w0 32 32 == o.stamp && decide (r.cls < cls)

/-- The record that has just entered stands before those of its CLK_TRC cycle that are of a lower class (R453), and before the MARK
that counts what it kept out. -/
def trcSettle (o : Observe) (cls : Nat) : Observe :=
  let after (r : TraceRec) : Bool := trcYields o cls r || (trcMark r && fld r.w0 32 32 == o.stamp)
  match o.buffer.reverse with
  | r :: l => if cls < 7 then { o with buffer := (l.dropWhile after).reverse ++ r :: (l.takeWhile after).reverse } else o
  | [] => o

/-- The record of this CLK_TRC cycle that a further one of class `cls` keeps out: the last of the lowest class below it (R453). -/
def trcOusted (o : Observe) (cls : Nat) : Option (Nat × TraceRec) :=
  leastBy (fun e => e.2.cls) ((o.buffer.zipIdx.map (fun e => (e.2, e.1))).reverse.filter (fun e => trcYields o cls e.2))

/-- The fifth record of a CLK_TRC cycle, which has room for 4: one of a lower class goes for it, and counts as dropped (R453, R456). -/
def trcOust (o : Observe) : Option (Nat × TraceRec) → Observe
  | none => o
  | some (n, v) =>
    let o := trcDrop { o with buffer := o.buffer.eraseIdx n, written := (o.written + 2 ^ 32 - 1) % 2 ^ 32 } v.cls
    if v.inWindow then { o with postLeft := o.postLeft + 1 } else o

/-- A record of class `cls` enters while the trace runs (R453, R454): at most 4 in a CLK_TRC cycle, in class order, highest first,
and those beyond 4 are dropped; one of class 7 is never dropped. -/
def trcEnter (b : Block) (cls kind info : Nat) (payload : Word) : Block :=
  if trcRuns b && trcLive b.obs then
    let cyc := b.now / 8
    let used := if b.obs.inCycle.1 = cyc then b.obs.inCycle.2 else 0
    let win := b.obs.trcState == .triggered
    let ousted := if 4 ≤ used then trcOusted b.obs cls else none
    let b := { b with obs := { b.obs with inCycle := (cyc, used + 1) } }
    if cls < 7 ∧ 4 ≤ used ∧ ousted.isNone = true then { b with obs := trcDrop b.obs cls }
    else
      let b := trcPut { b with obs := trcOust b.obs ousted } cls kind info false win payload
      { b with obs := trcSettle (if win then { b.obs with postLeft := b.obs.postLeft - 1 } else b.obs) cls }
  else b

/-- Whether a class is enabled (R459). -/
def clsOn (o : Observe) (c : Nat) : Bool := c == 7 || bit o.trcCtl (40 + c)

/-- The address window of TRC_ALO and TRC_AHI; AHI below ALO turns it off (R459). -/
def addrPass (o : Observe) (a : Nat) : Bool :=
  let lo := fld o.trcAlo 0 48
  let hi := fld o.trcAhi 0 48
  decide (hi < lo) || (decide (lo ≤ a) && decide (a ≤ hi))

/-- TRC_FILT on channel, port and context (R449). -/
def filtPass (o : Observe) (t : Tap) : Bool :=
  tapPass (bit o.trcFilt 23) (fld o.trcFilt 17 6) t.ctx && tapPass (bit o.trcFilt 16) (fld o.trcFilt 12 4) t.port
    && tapPass (bit o.trcFilt 11) (fld o.trcFilt 8 3) t.ch

/-- INFO of classes 1 to 6 (R451). -/
def tapInfo (t : Tap) : Nat := t.ch % 8 + (t.port % 16) * 8 + (t.ctx % 64) * 128

/-- A record of classes 1 to 6 under its filters. -/
def trace (b : Block) (cls kind : Nat) (t : Tap) (addr : Option Nat) (payload : Word) : Block :=
  let ok := clsOn b.obs cls && match cls with
    | 6 => true
    | 4 => filtPass b.obs { ctx := t.ctx }
    | _ => filtPass b.obs t && (match addr with | some a => addrPass b.obs a | none => true)
  if ok then trcEnter b cls kind (tapInfo t) payload else b

/-- A class 7 record (R449). -/
def traceSys (b : Block) (kind info : Nat) (payload : Word) : Block := trcEnter b 7 kind info payload

/-- A SYNC record pairs STAMP with the timebase and TGEN (R452). -/
def traceSync (b : Block) : Block :=
  let b := traceSys b 0 (b.time.tgen % 256 + (if b.time.synced then 256 else 0)) b.time.ns
  { b with obs := { b.obs with syncAt := b.obs.stamp } }

/-- A discontinuity: a SYNC enters before any other record, and the next record of every class is marked (R452). -/
def discontinuity (b : Block) : Block := traceSync { b with obs := { b.obs with disc := 0xFF#8 } }

/-- The timebase and trace effects of a change of the core domain's state (R436, R452): a stop of the timebase holds it,
adds 1 to TGEN and clears SYNCED; a restart resumes it and marks the trace's discontinuity. -/
def afterPower (old : Nat) (b : Block) : Block :=
  let new := coreState b
  if old ≤ 1 ∧ 2 ≤ new then
    { b with time := { b.time with frozen := true, frozenAt := b.time.ns, tgen := (b.time.tgen + 1) % 256, synced := false } }
  else if 2 ≤ old ∧ new ≤ 1 then
    discontinuity { b with time := { b.time with frozen := false, firstLoad := true, resumedUs := some (usNow b) } }
  else b

/-- A change of the power controller's state, with what it does to the timebase. -/
def setPower (b : Block) (f : Power → Power) : Block := afterPower (coreState b) { b with power := f b.power }

/-- LC_STAT.PRESENT and DEBUG_OPEN (R341 to R343). -/
def present (b : Block) : Bool := decide (100 ≤ b.bring.holdMs)
def debugOpen (b : Block) : Bool :=
  b.bring.lcState == 0 || b.bring.lcState == 3 || (b.bring.unlocked && present b)

/-! Records. -/

/-- The types whose Log column reads Yes (R425); CLOCK_FAULT is logged for CLK_ROOT. -/
def typeLogged (ty : Nat) (p3 : Word) : Bool :=
  if ty = 0x72 then !bit p3 0
  else [0x10, 0x11, 0x17, 0x18, 0x20, 0x22, 0x23, 0x24, 0x25, 0x26, 0x27, 0x28, 0x41, 0x44, 0x45, 0x46, 0x47, 0x50, 0x51,
    0x52, 0x53, 0x54, 0x55, 0x56, 0x57, 0x61, 0x62, 0x63, 0x64, 0x70, 0x71, 0x73, 0x74].contains ty

/-- The context part of a header: a context with its shift. -/
def ctxField (b : Block) (c : Nat) : Option (Nat × BitVec 8) := some (c, (ctxOf b c).shift)

/-- A record of this cycle (R423, R424). -/
def mkRecord (b : Block) (ty : Nat) (ch : Option Nat) (ctx : Option (Nat × BitVec 8)) (p3 p4 p5 p6 : Word) : Record :=
  { born := b.now, type := ty, inst := b.cw.instNum, logged := typeLogged ty p3, synced := b.time.synced, channel := ch, ctx := ctx,
    epoch := b.recov.instResets % 256, tgen := b.time.tgen, time := b.time.ns, p3 := p3, p4 := p4, p5 := p5, p6 := p6 }

/-- A record enters the retention log at NEXT (R435). -/
def rlogWrite (l : RLog) (r : Record) : RLog :=
  { l with
    writeCount := l.writeCount + 1
    overwritten := if l.writeCount < 1020 then l.overwritten else l.overwritten + 1
    next := if l.next = 1023 then 4 else l.next + 1
    records := tset l.records l.next (l.writeCount % 2 ^ 32, r) }

/-- The unit that detects a record's cause, in the order of R424: the safety controller, the Aplery sequencer, the causeway, the bridge and
S0, and the channels. Which unit detects what is read from the rules that raise the record (DEDUCED, log 107). -/
def recordUnit (r : Record) : Nat :=
  let bridge : Bool := r.type == 0x38 || r.type == 0x11 || (r.type == 0x13 && decide (2 ≤ fld r.p3 11 3))
  let safety : Bool := [0x02, 0x54, 0x70, 0x71].contains r.type || (r.type == 0x72 && !bit r.p3 0) || (r.type == 0x64 && decide (4 ≤ fld r.p3 0 4))
  if safety then 0
  else if bridge then 3
  else if [0x40, 0x41, 0x42, 0x43, 0x44, 0x45, 0x46].contains r.type then 2
  else if [0x10, 0x12, 0x13, 0x17, 0x20, 0x21, 0x22, 0x23, 0x25, 0x26, 0x27, 0x30, 0x31, 0x32].contains r.type then 4 + r.channel.getD 0
  else 1

/-- The cluster, bank and port code that a record names, in this order (R424, R425). -/
def recordPlace (r : Record) : Nat :=
  let at_ (cluster bank port : Nat) : Nat := (cluster * 128 + bank) * 16 + port
  let bankAt (p w : Nat) : Nat := at_ (fld r.p3 p w / 8) (fld r.p3 p w) 0
  match r.type with
  | 0x10 | 0x11 | 0x31 => at_ 0 0 (fld r.p3 48 4)
  | 0x12 => at_ (fld r.p3 4 6 / 8) (fld r.p3 4 6) (fld r.p3 0 4)
  | 0x13 => at_ (fld r.p3 8 3) 0 (fld r.p3 0 4)
  | 0x14 => at_ (fld r.p3 8 3) 0 0
  | 0x17 | 0x18 => at_ (fld r.p3 4 3) 0 0
  | 0x20 => at_ (fld r.p3 55 3) (fld r.p3 52 6) 0
  | 0x21 => at_ 0 0 (fld r.p3 0 4)
  | 0x22 | 0x28 => bankAt 0 7
  | 0x25 | 0x26 | 0x27 => bankAt 0 6
  | 0x40 | 0x41 | 0x42 | 0x43 | 0x44 => at_ 0 0 (fld r.p3 0 2)
  | _ => 0

/-- Of two records that arise in one port cycle the first comes before the second: by unit, by type, by place (R424). -/
def recordBefore (r q : Record) : Bool :=
  let key (r : Record) : Nat := (recordUnit r * 2 ^ 16 + r.type) * 2 ^ 14 + recordPlace r
  r.born == q.born && decide (key r < key q)

/-- The queue with a record that arises: behind what arose before it, and among the records of its cycle in the order of R424. -/
def placeRecord (l : List Record) (r : Record) : List Record :=
  l.takeWhile (fun q => !recordBefore r q) ++ r :: l.dropWhile (fun q => !recordBefore r q)

/-- A record enters the pending queue of 64, or is lost (R428). -/
def queueRecord (e : Events) (r : Record) : Events :=
  if e.queue.length < 64 then { e with queue := placeRecord e.queue r }
  else { e with
    lost := satAdd (2 ^ 32 - 1) e.lost 1
    lostFirst := if e.lost = 0 then r.time else e.lostFirst
    lostLast := r.time }

/-- A record arises (R424): it enters the log if its type has one, the queue if there is room, and the trace as a
class 6 record, lost or not (R449). It may be the event of trigger source 2 (R455). -/
def emitRecord (b : Block) (r : Record) : Block :=
  let b := { b with rlog := if r.logged then rlogWrite b.rlog r else b.rlog, ev := queueRecord b.ev r }
  let b := trace b 6 0 { ch := r.channel.getD 0, ctx := (r.ctx.map (·.1)).getD 0 } none
    (put 0 16 r.type ||| (r.p3 <<< 32))
  let due := b.obs.trcState == .armed && fld b.obs.trcTrig 60 3 == 2 && fld b.obs.trcTrig 0 16 == r.type
  { b with obs := { b.obs with trigDue := b.obs.trigDue || due } }

/-- A record made and raised. -/
def emit (b : Block) (ty : Nat) (ch : Option Nat) (ctx : Option (Nat × BitVec 8)) (p3 : Word) (p4 : Word := 0)
    (p5 : Word := 0) (p6 : Word := 0) : Block :=
  emitRecord b (mkRecord b ty ch ctx p3 p4 p5 p6)

/-- The retirement list's next entry (R435): [5:0] bank, [8:6] channel, [9] spare, [15] VALID; 96 entries. -/
def retireAppend (l : RLog) (bank ch spare : Nat) : RLog :=
  if l.retired.length < 96 then { l with retired := l.retired ++ [bank % 64 + (ch % 8) * 64 + (spare % 2) * 512 + 32768] }
  else l

/-! Completions of management commands. -/

/-- Completion statuses and reasons (R480, R485). -/
def cOkay : Nat := 0
def cRefused : Nat := 1
def cMalformed : Nat := 2
def rPresence : Nat := 1
def rLifecycle : Nat := 2
def rNotPithead : Nat := 3
def rHoldup : Nat := 4
def rTamper : Nat := 5
def rState : Nat := 6
def rBusy : Nat := 7
def rNotAdmitted : Nat := 8
def rNoSpare : Nat := 9
def rSpareFail : Nat := 10
def rImage : Nat := 11
def rVerify : Nat := 12

/-- The completion entry's first doubleword (R480). -/
def cplWord (t : Taken) (status reason : Nat) : Word :=
  put 0 32 t.idx.toNat ||| put 32 8 (fld t.dw0 0 8) ||| put 40 2 status ||| put 44 4 reason ||| put 48 16 (fld t.dw0 16 16)

/-- The command of index `idx` completes: its entry is written at CPL_HEAD mod 64 (R486). A command that is not running
any more completes nothing. -/
def complete (b : Block) (idx : Nat) (status reason : Nat) (result : Word := 0) : Block :=
  match takeFirst (fun t : Taken => t.idx.toNat == idx) b.cmdq.running with
  | none => b
  | some (t, rest) =>
    { b with cmdq := { b.cmdq with
        running := rest
        cplHead := b.cmdq.cplHead + 1
        cpl := tset b.cmdq.cpl (b.cmdq.cplHead.toNat % 64) (cplWord t status reason, result) } }

/-- Completion of a command that may not have asked. -/
def completeIf (b : Block) (idx : Option Nat) (status reason : Nat) (result : Word := 0) : Block :=
  match idx with
  | none => b
  | some i => complete b i status reason result

/-- The taken command of an index. -/
def takenOf (b : Block) (idx : Nat) : Option Taken := b.cmdq.running.find? (fun t => t.idx.toNat == idx)

/-- The opcode of a taken command. -/
def Taken.opc (t : Taken) : Nat := fld t.dw0 0 8

end Sys2Proof.Machine
end

