-- ==== Sys2Proof/Machine/Operands.lean ====
section
/-! DEFINITION. The operand rules of data port requests: ports and widths (R22, R80, R83), the byte range an operation is
decoded over, and the checks of R82 to R86 and R99 that the request beat alone decides. -/

namespace Sys2Proof.Machine

/-- Width of a port in bytes per port cycle (R22). -/
def portWidth (p : Port) : Nat :=
  match p with | .V0 | .V1 => 128 | .I0 => 64 | _ => 256

/-- The home cluster (R22); X0 has none (R24). -/
def homeCluster (p : Port) : Option Nat :=
  match p with
  | .M0 => some 0 | .V0 => some 1 | .M1 => some 2 | .D0 => some 3 | .M2 => some 4 | .V1 => some 5 | .M3 => some 6
  | .I0 => some 7 | .X0 => none

/-- Lines the return buffer holds (R80). -/
def returnLines (p : Port) : Nat :=
  match p with | .V0 | .V1 => 64 | .I0 => 32 | _ => 128

/-- The tile lane of a port: 0 to 6 in the order of R464, 7 for X0. -/
def laneOf (p : Port) : Nat :=
  match p with
  | .M0 => 0 | .M1 => 1 | .M2 => 2 | .M3 => 3 | .V0 => 4 | .V1 => 5 | .D0 => 6 | _ => 7

def Op.isDesc (o : Op) : Bool :=
  match o with | .tileRd | .tileWr | .tileRed | .gather | .scatter | .scatterRed => true | _ => false
def Op.isTally (o : Op) : Bool :=
  match o with | .tallyAcq | .tallyExt | .tallyRel => true | _ => false
def Op.isGather (o : Op) : Bool :=
  match o with | .gather | .scatter | .scatterRed => true | _ => false
/-- Answered on the read data channel (R83). -/
def Op.isRead (o : Op) : Bool :=
  match o with | .rd | .tileRd | .gather => true | _ => false
/-- Carries write data beats (R88, R141, R174). -/
def Op.hasData (o : Op) : Bool :=
  match o with | .wr | .red | .tileWr | .tileRed | .scatter | .scatterRed => true | _ => false
/-- The reduce operations (R147). -/
def Op.isRed (o : Op) : Bool :=
  match o with | .red | .tileRed | .scatterRed => true | _ => false
/-- The response comes on the read data channel: of a read, and of everything on I0, which has no other (R23, R77; log 87). -/
def onReadChan (x : Txn) : Bool :=
  x.op.isRead || match x.org with | .loc p => p.port == .I0 | .remote _ _ _ => false
/-- RD, WR and RED, which move a byte range. -/
def Op.isRange (o : Op) : Bool :=
  match o with | .rd | .wr | .red => true | _ => false

/-- The operation of a code (R83). -/
def opOfCode (c : Nat) : Option Op :=
  ([.rd, .wr, .red, .tileRd, .tileWr, .tileRed, .gather, .scatter, .scatterRed, .fence, .tallyAcq, .tallyExt, .tallyRel] : List Op).find?
    (fun o => o.code == c)

/-- Whether a port supports an operation (R83, R23). -/
def portSupports (p : Port) (o : Op) : Bool :=
  match p, o with
  | .I0, .rd => true
  | .I0, _ => false
  | .X0, .fence => false
  | _, _ => true

/-- LEN + 1. -/
def reqBytes (r : ReqBeat) : Nat := r.len.toNat + 1
/-- The span of a TALLY_ACQ in lines (R249). -/
def reqSpan (r : ReqBeat) : Nat := fld r.len 0 4 + 1
/-- The REDOP field. -/
def reqRedop (r : ReqBeat) : Nat := fld r.aux 0 4

/-- Every field the operation does not use is 0 (R82, R83). -/
def unusedZero (o : Op) (r : ReqBeat) : Bool :=
  match o with
  | .rd | .wr => r.aux == 0
  | .red => fld r.aux 4 12 == 0
  | .tileRd | .tileWr | .gather | .scatter => r.len == 0 && r.aux == 0
  | .tileRed | .scatterRed => r.len == 0 && fld r.aux 4 12 == 0
  | .fence => r.addr == 0 && r.len == 0 && fld r.aux 1 15 == 0 && !r.ff && !r.wake
  | .tallyAcq => fld r.len 4 8 == 0
  | .tallyExt => r.len == 0 && !r.ff
  | .tallyRel => r.len == 0 && r.aux == 0 && !r.ff

/-- The length and boundary rule of R86. -/
def inBlock (o : Op) (r : ReqBeat) : Bool :=
  match o with
  | .rd | .wr | .red => decide (r.addr.toNat % 4096 + reqBytes r ≤ 4096)
  | .tallyAcq => decide (r.addr.toNat % 4096 + reqSpan r * 128 ≤ 4096)
  | _ => true

/-- Descriptor pointers are aligned to 64 B, tally addresses to 128 B, RED to its element (R99, R84). -/
def aligned (o : Op) (r : ReqBeat) : Bool :=
  if o.isDesc then r.addr.toNat % 64 == 0
  else if o.isTally then r.addr.toNat % 128 == 0
  else if o == .red then r.addr.toNat % redBytes (reqRedop r) == 0 && reqBytes r % redBytes (reqRedop r) == 0
  else true

/-- REDOP is not reserved, and a lease is not 0 (R84, R99). -/
def auxValid (o : Op) (r : ReqBeat) : Bool :=
  if o.isRed then redValid (reqRedop r)
  else match o with
    | .tallyAcq | .tallyExt => r.aux != 0
    | _ => true

/-- The checks of R99 that the port makes on the beat alone. -/
def beatOk (p : Port) (o : Op) (r : ReqBeat) : Bool :=
  portSupports p o && unusedZero o r && auxValid o r && inBlock o r && aligned o r

/-- The local byte range an operation is decoded over (R68, R85, R249): its bytes, its span, the named line, or the
64 B of its descriptor. -/
def decodeBytes (o : Op) (r : ReqBeat) : Nat × Nat :=
  let a := localOf r.addr
  if o.isDesc then (a, a + 63)
  else match o with
    | .tallyAcq => (a, a + reqSpan r * 128 - 1)
    | .tallyExt | .tallyRel => (a, a + 127)
    | _ => (a, a + reqBytes r - 1)

/-- The lines of a linear request, in order. -/
def reqLines (r : ReqBeat) : List Nat :=
  let a := localOf r.addr
  let lo := a / 128
  (List.range ((a + reqBytes r - 1) / 128 - lo + 1)).map (fun i => lo + i)

/-- How many beats a byte range occupies on a port W bytes wide (R87). -/
def beatCount (w a n : Nat) : Nat := (a + n - 1) / w - a / w + 1

/-- Bytes of a line that a linear request covers. -/
def rangeMask (r : ReqBeat) (line : Nat) : LineMask :=
  let a := localOf r.addr
  bytesOf (fun k => decide (a ≤ line * 128 + k) && decide (line * 128 + k < a + reqBytes r))

/-- Some byte of word k of the mask is enabled; every byte of it is enabled. -/
def wordAny (m : LineMask) (k : Nat) : Bool := wordEnable m k != 0
def wordFull (m : LineMask) (k : Nat) : Bool := wordEnable m k == 255

/-- The write data of one line of a linear request, from the beats received (R87, R88): data, enables, poison. A
port narrower than a line (none has write data) is not needed. -/
def lineOfBeats (w : Nat) (r : ReqBeat) (beats : List WBeat) (line : Nat) : LineData × LineMask × WordMask :=
  let a := localOf r.addr
  let i := line * 128 / w - a / w
  let lane := line * 128 % w
  match beats[i]? with
  | none => (0, 0, 0)
  | some t =>
    let m := rangeMask r line
    (t.data.extractLsb' (8 * lane) 1024, t.be.extractLsb' lane 128 &&& m,
      (t.wpoison.extractLsb' (lane / 8) 16) &&& wordsOf (wordAny m))

/-- A RED beat enables all bytes of an element or none (R84). -/
def elementsWhole (size : Nat) (m : LineMask) : Bool :=
  (List.range (128 / size)).all (fun e => let v := fld m (e * size) size; v == 0 || v == 2 ^ size - 1)

/-- A write of this line enters the merge buffer: some word it enables is not enabled in full, poisoned words
counting as full (R231). -/
def isNarrow (m : LineMask) (wp : WordMask) : Bool :=
  (List.range 16).any (fun k => !bit wp k && wordAny m k && !wordFull m k)

end Sys2Proof.Machine
end

