-- ==== Sys2Proof/Machine/Flow.lean ====
section
/-! DEFINITION. How line operations travel: rosters and ownership (R189 to R193), lock checks (R258, R259), the holds of a
request (R100, R106, R357, R392, R402), the zero map at stage F (R179 to R183), the ways to a cluster (R26, R111, R115),
and how results and acknowledgements come back (R115, R116). -/

namespace Sys2Proof.Machine

/-! Rosters. -/

/-- The key of a slot entry: roster, cluster, slot. -/
def slotKey (r k slot : Nat) : Nat := (r * 8 + k) * 256 + slot

/-- A slot entry as stored; an unlisted one is OPEN, 0x80 (R193). -/
def slotEntry (c : Channel) (r k slot : Nat) : Nat := tget 0x80 c.roster (slotKey r k slot)

/-- PAR: the whole byte holds an odd number of ones (R191). -/
def parOk (e : Nat) : Bool := parityOf (BitVec.ofNat 8 e)

/-- The owner a slot acts under: an entry with bad parity acts as OPEN (R221). -/
def entryOwner (c : Channel) (key e : Nat) : Nat := if c.rosterBad.contains key || !parOk e then 0 else e % 128
def slotOwner (c : Channel) (r k slot : Nat) : Nat := entryOwner c (slotKey r k slot) (slotEntry c r k slot)

/-- The owner code of a request's originating port (R189, R192). -/
def ownerCode (o : Origin) : Nat :=
  match o with
  | .loc p => 0x40 + 8 * p.ch + portCode p.port
  | .remote _ _ peer => 4 + peer

/-- The originating port owns at least one slot of the cluster in the active roster (R189). -/
def ownsCluster (b : Block) (ch k : Nat) (o : Origin) : Bool :=
  let c := chan b ch
  c.roster.any (fun e => e.1 / 256 == b.arb.active * 8 + k && entryOwner c e.1 e.2 == ownerCode o)

/-- A class-0 line operation in an H2 seam whose originating port owns slots of its cluster (R189). -/
def isOwned (b : Block) (cls seam ch k : Nat) (o : Origin) : Bool :=
  cls == 0 && (seamOf b seam).hash == 2 && !(seamOf b seam).sump && !b.arb.fallback && ownsCluster b ch k o

def opCluster (op : LineOp) : Nat := op.bank / 8
def opOwned (b : Block) (op : LineOp) : Bool := isOwned b op.cls op.seam op.ch (opCluster op) op.org

/-- The class and QOS an operation ranks with (R188, R189). -/
def rankClass (owned : Bool) (cls : Nat) : Nat := if cls = 0 ∧ owned = false then 1 else cls
def rankQos (cls qos : Nat) : Nat := if cls = 0 then 15 else qos

/-- The request came from another instance. -/
def isRemote (o : Origin) : Bool := match o with | .remote _ _ _ => true | .loc _ => false

/-- A request of this chip's array, not of the sump window or another instance. -/
def onChip (b : Block) (x : Txn) : Bool := instOf x.req.addr == b.cw.instNum && decide (localOf x.req.addr < Config.sumpBase)

/-! Answers and results. -/

/-- Port cycles added to an answer on its way back: none on the direct leg, 2 over the spine, 6 over the bridge (R32). -/
def retHops (o : Origin) (ch k : Nat) : Nat :=
  match o with
  | .loc p => if p.ch = ch then (if homeCluster p.port = some k then 0 else 2) else 6
  | .remote _ _ _ => 6

/-- A whole-request answer (R94, R502); a request that is answered already keeps its answer. -/
def answerTxn (st : Status) (due : Nat) (x : Txn) : Txn :=
  match x.phase with
  | .answered _ => x
  | _ => { x with phase := .answered st, due := due, stallUs := none, autoWake := false }
def answer (b : Block) (uid : Nat) (st : Status) (due : Nat) : Block := setTxn b uid (answerTxn st due)

/-- The status of a write-side response, in the order of R97; CANARY where a line was rejected (R164). -/
def writeStatus (x : Txn) : Status :=
  match x.failed with
  | some .aborted => .aborted
  | f => if x.mismatch then .unsup else match f with
    | some s => s
    | none => if x.rejected then .canary else .okay

/-- The latency with which a line write is acknowledged, and a reduce line (R115, R153). -/
def writeLat (o : Origin) (ch k : Nat) (red : Bool) : Nat :=
  (match retHops o ch k with | 0 => 6 | 2 => 10 | _ => 18) + (if red then 6 else 0)

/-- The cycle in which a write's response is presented once its last line has been acknowledged: of a linear write not
before the latency of its farthest line after its last beat (R116), of a descriptor operation in the cycle after both
(R144), of a request whose beats were wrong after LAST (R91). -/
def writeDue (x : Txn) : Nat :=
  if x.mismatch then max x.due (x.lastAt + 1)
  else if x.op.isDesc then max x.due x.lastAt + 1
  else max x.due (max (x.lastAt + 1) (x.lastAt + x.far))

/-- A write whose beats have all come and whose lines are all acknowledged is answered (R90, R116, R144). -/
def finishTxn (x : Txn) : Txn :=
  if x.op.hasData && x.phase == .active && x.gotLast && x.lineAcks == x.issuedLines
      && ((x.issuedLines == x.total && (!x.op.isDesc || x.beats != 0)) || x.mismatch || x.failed.isSome)
  then { x with phase := .answered (writeStatus x), due := writeDue x }
  else x

/-- One line of a write is acknowledged; `lat` is its latency when nothing loads its way. -/
def ackTxn (due lat : Nat) (rejected : Bool) (x : Txn) : Txn :=
  finishTxn { x with lineAcks := x.lineAcks + 1, due := max x.due due, far := max x.far lat, rejected := x.rejected || rejected }
def ackLine (b : Block) (op : LineOp) (due lat : Nat) (rejected : Bool) : Block :=
  setTxn b op.uid (ackTxn due (lat + op.park) rejected)

/-- The descriptor operations of the block, changed where they serve request `uid`. -/
def setDesc (b : Block) (uid : Nat) (f : DescOp → DescOp) : Block :=
  { b with descs := b.descs.map (fun d => if d.uid = uid then f d else d) }
def descOf (b : Block) (uid : Nat) : Option DescOp := b.descs.find? (fun d => d.uid == uid)

/-- A read line's result goes to its request, its descriptor or its index list. -/
def deliver (b : Block) (op : LineOp) (data : LineData) (pm coll : WordMask) (due : Nat) : Block :=
  match op.kind with
  | .desc =>
    let half := (op.no % 2) * 512
    let words := (List.range 8).any (fun k => bit pm (half / 64 + k))
    setDesc b op.uid (fun d => { d with desc := data.extractLsb' half 512, bad := words, stage := .ready, readyAt := due })
  | .index => setDesc b op.uid (fun d => { d with index := d.index ++ [{ no := op.no, data := data, pm := pm, due := due }] })
  | _ =>
    let st := if pm = 0 then Status.okay else Status.poison
    setTxn b op.uid (fun x => { x with
      results := x.results ++ [{ no := op.no, data := data, pm := pm, coll := coll, st := st, due := due }] })

/-! Merge-buffer entries. -/

def mergeFind (c : Channel) (line : Nat) : Option MergeEntry := c.merge.find? (fun e => e.line == line)
def setMerge (b : Block) (ch serial : Nat) (f : MergeEntry → MergeEntry) : Block :=
  setChan b ch (fun c => { c with merge := c.merge.map (fun e => if e.serial = serial then f e else e) })

/-- Every word the entry enables is enabled in full, poisoned words counting as full (R231, R233). -/
def entryFull (e : MergeEntry) : Bool := !isNarrow e.mask e.wp

/-- The line's data with a merge entry laid over it (R234): words enabled in full replace even an uncorrectable word,
and words with WPOISON are poisoned. -/
def mergeOver (e : MergeEntry) (data : LineData) (pm : WordMask) : LineData × WordMask :=
  let d := overlay data e.data e.mask
  let pm := (pm &&& ~~~(wordsOf (wordFull e.mask))) ||| e.wp
  (lineOf (fun k => if bit pm k then 0 else lineWord d k), pm)

/-- A read's line with the buffer's entry for it, if there is one. -/
def withMerge (b : Block) (ch line : Nat) (data : LineData) (pm : WordMask) : LineData × WordMask :=
  match mergeFind (chan b ch) line with
  | some e => mergeOver e data pm
  | none => (data, pm)

/-! The zero map (R179 to R183). -/

/-- The key of a tag word: 64 tags of one row of a channel (R179). -/
def tagKey (ch row : Nat) : Nat := (ch * rowSpace + row) * 16

/-- A stored tag word, decoded. -/
def tagDecode (a : Arrays) (ch row : Nat) : Decoded :=
  let w := readWord a.tags (tagKey ch row)
  eccDecode w.1 w.2

/-- The zero tag a stage F sees: the stored tag, unless a write not yet performed has cleared it (R182, log 11). -/
def tagSeen (a : Arrays) (b : Block) (ch bank row : Nat) : Bool :=
  bit (tagDecode a ch row).data bank && !b.zeroLines.contains (lineKey ch bank row)

/-- The row's tag word is uncorrectable, or is being put right (R186). -/
def tagBroken (a : Arrays) (b : Block) (ch row : Nat) : Bool :=
  (tagDecode a ch row).verdict != .clean && (tagDecode a ch row).verdict != .corrected
    || (chan b ch).tagFix.any (fun e => e.1 == row && !e.2.isEmpty)

/-- The banks whose line of a row lies in a ZMAP seam (R186 step 1). -/
def zmapBanks (b : Block) (ch row : Nat) : List Nat :=
  (List.range 64).filter (fun k => b.seams.any (fun e => e.2.valid && e.2.zmap &&
    (let g := row / unitLines e.2
     let u := (List.range 64).find? (fun u => hashBank b.build e.2 u g == k)
     let line := ((g * 2 ^ (6 + logCh b.build) + ch * 64 + u.getD 0) * unitLines e.2) + row % unitLines e.2
     decide (seamLo e.2 ≤ line * 128) && decide (line * 128 < seamHi e.2))))

/-- A read of a tag word, with its counts (R186, R229): an uncorrectable one starts the poisoning of its row. -/
def tagNote (a : Arrays) (b : Block) (ch row : Nat) : Block :=
  let d := tagDecode a ch row
  if (chan b ch).tagFix.any (fun e => e.1 == row) then b
  else match d.verdict with
    | .clean => b
    | .corrected => setChan b ch (fun c => { c with tagCe := satAdd 65535 c.tagCe 1, tagFix := c.tagFix ++ [(row, [])] })
    | _ => setChan b ch (fun c => { c with tagUe := satAdd 65535 c.tagUe 1, tagFix := c.tagFix ++ [(row, zmapBanks b ch row)] })

/-- A full write of zeros, which sets the tag (R181). -/
def isZeroWrite (op : LineOp) : Bool := op.kind == .write && op.be == BitVec.allOnes 128 && op.data == 0 && op.wp == 0

/-- What stage F makes of a line operation (R180 to R183). -/
inductive Fate where
  | zero | check | pass
  deriving DecidableEq, Repr

def fateOf (a : Arrays) (b : Block) (op : LineOp) : Fate :=
  if (seamOf b op.seam).zmap = false ∨ tagBroken a b op.ch op.row = true then .pass
  else match op.kind with
    | .read | .desc | .index => if tagSeen a b op.ch op.bank op.row then .zero else .pass
    | _ => if isZeroWrite op then .check else .pass

/-- An earlier operation of the same port on the line is on its way: of the ones `p` picks. -/
def earlierOp (b : Block) (op : LineOp) (p : LineOp → Bool) : Bool :=
  let here (o : LineOp) : Bool := decide (o.serial < op.serial) && sameOrigin o.org op.org && o.ch == op.ch && o.line == op.line && p o
  b.ops.any here || b.xfers.any (fun x => match x.payload with | .lines l => l.any here | _ => false)

/-- An entry of the operation's line that must drain before the operation is performed: one that stood in the buffer when the
operation came, or that holds an earlier write of its port (R102, R233). -/
def entryBefore (op : LineOp) (e : MergeEntry) : Bool :=
  e.line == op.line && (decide (e.alloc < op.readyAt + if op.stage = .bank then 1 else 0) || (sameOrigin e.org op.org && decide (e.first < op.serial)))

/-- A zero-line write waits at F for the drain it has forced, and for narrow writes of its own port that have yet to enter
the buffer (R102, R233). -/
def heldAtF (b : Block) (op : LineOp) : Bool :=
  (mergeFind (chan b op.ch) op.line).any (entryBefore op)
    || earlierOp b op (fun o => o.stage != .ret && o.stage != .store && o.stage != .line && o.kind == .write && isNarrow o.be o.wp)

/-- A write-side operation finds the line's tag set (R182); of a tag word that cannot be read there is no tag (R186). -/
def findsTag (a : Arrays) (seen : Block) (op : LineOp) : Bool :=
  (seamOf seen op.seam).zmap && !tagBroken a seen op.ch op.row && tagSeen a seen op.ch op.bank op.row

/-- A write-side operation takes a tagged line as zeros and clears its tag (R182). -/
def takeZero (a : Arrays) (seen b : Block) (op : LineOp) : Block :=
  if findsTag a seen op && !b.zeroLines.contains (lineKey op.ch op.bank op.row)
  then { b with zeroLines := b.zeroLines ++ [lineKey op.ch op.bank op.row] }
  else b

/-- Stage F of a write-side operation that is no zero-line write (R182). A zero-line write of the line that passes F in this
cycle is earlier in port order: it sets no tag (R183). -/
def claimZero (a : Arrays) (seen b : Block) (op : LineOp) : Block :=
  if findsTag a seen op then
    let b := takeZero a seen b op
    { b with ops := b.ops.map (fun o =>
        if o.stage = .chkF ∧ o.ch = op.ch ∧ o.line = op.line ∧ heldAtF b o = false then { o with noTag := true } else o) }
  else b

/-! Drains (R233). -/

/-- A merge entry starts to drain: as one full-word write, or as one turn. A drain onto a zero line is a write (R182). -/
def startDrain (a : Arrays) (b : Block) (ch : Nat) (e : MergeEntry) : Block :=
  if e.draining then b
  else
    let op : LineOp :=
      { serial := b.serial + 1, uid := 0, org := e.org, src := e.src, cls := e.cls, qos := e.qos, ctx := e.ctx,
        shift := e.shift, kind := .drain, ch := ch, bank := e.bank, row := e.row, line := e.line, seam := e.seam,
        fmt := (seamOf b e.seam).format, no := e.serial, stage := .bank, readyAt := b.now + 1,
        waited := 0, data := e.data, be := e.mask, wp := e.wp, checked := e.checked, coll := 0, park := 0, back := 0, id := e.id
        desc := false, pairX := 0, pair := 0, reported := false, full := false, noTag := false }
    let asWrite := entryFull e || findsTag a b op || b.zeroLines.contains (lineKey ch e.bank e.row)
    let op := { op with stage := if asWrite then .chkE else .bank }
    let b := if asWrite then b else count b 0x22 { ch := ch } 1
    let b := setMerge { b with serial := b.serial + 1, ops := b.ops ++ [op] } ch e.serial (fun e => { e with draining := true })
    takeZero a b b op

/-- The line's entry, if the buffer holds one, starts to drain. -/
def drainLine (a : Arrays) (b : Block) (ch line : Nat) : Block :=
  match mergeFind (chan b ch) line with
  | some e => startDrain a b ch e
  | none => b

/-- Every entry that `p` holds for starts to drain, oldest first. -/
def drainWhere (a : Arrays) (b : Block) (ch : Nat) (p : MergeEntry → Bool) : Block :=
  ((chan b ch).merge.filter p).foldl (fun b e => startDrain a b ch e) b

/-! Ways to the clusters. -/

/-- A line operation reaches its cluster in cycle `at_`: reads and turns wait in P, full writes stand at check point E,
narrow writes at the merge buffer (R115, R231). -/
def arrive (b : Block) (op : LineOp) (at_ : Nat) : Block :=
  let stage := match op.kind with
    | .write => if isNarrow op.be op.wp then Stage.merge else .chkE
    | _ => .bank
  { b with ops := b.ops ++ [{ op with stage := stage, readyAt := at_ }] }

/-- A transfer bids for a path. -/
def addXfer (b : Block) (path : PathId) (rest : List PathId) (src : Nat) (org : Origin) (cls qos ctx readyAt beats : Nat)
    (pl : Payload) : Block :=
  { b with
    serial := b.serial + 1
    xfers := b.xfers ++ [{ serial := b.serial + 1, path := path, rest := rest, src := src, org := org, cls := cls, qos := qos,
                           ctx := ctx, readyAt := readyAt, waited := 0, beats := beats, reported := false, payload := pl }] }

/-! Lines on the shared paths (R111, R197; log 33): two lines of a linear request, paired by their places in it, share a beat; the lines
that a descriptor's expansion issues share one where they come to a path in one cycle. -/

/-- The number of a line's beat at a path. -/
def pairAt (p : PathId) (op : LineOp) : Nat := match p with | .spine _ _ => op.pair | _ => op.pairX

/-- The beat of the line has passed the path with the other line. -/
def beatPast (b : Block) (p : PathId) (op : LineOp) : Bool :=
  !op.desc && (txnOf b op.uid).any (fun x => x.half.contains (p, pairAt p op))

/-- The transfer waits at the path with the other line of the beat alone. -/
def beatMate (p : PathId) (op : LineOp) (x : Xfer) : Bool :=
  decide (x.path = p) && match x.payload with
    | .lines [o] => o.uid == op.uid && o.desc == op.desc && (if op.desc then x.readyAt == op.readyAt else pairAt p o == pairAt p op)
    | _ => false

/-- A line comes to a path in cycle `readyAt`: it joins its beat if that still waits, passes with it if that has gone (`past`), or opens
it and bids. -/
def bidLine (past : Block → LineOp → Block) (b : Block) (p : PathId) (rest : List PathId) (src : Nat) (op : LineOp) : Block :=
  if beatPast b p op then past b op
  else if b.xfers.any (beatMate p op) then
    { b with xfers := b.xfers.map (fun x => if beatMate p op x then
        { x with payload := match x.payload with | .lines l => .lines (l ++ [op]) | pl => pl } else x) }
  else
    { b with
      serial := b.serial + 1
      xfers := b.xfers ++ [{ serial := b.serial + 1, path := p, rest := rest, src := src, org := op.org, cls := op.cls, qos := op.qos,
                             ctx := op.ctx, readyAt := op.readyAt, waited := op.waited, beats := 1, reported := op.reported
                             payload := .lines [op] }] }

/-- Behind a spine input: the line reaches its cluster two cycles after it has passed. -/
def pastSpine (b : Block) (op : LineOp) (at_ : Nat) : Block := arrive b op (at_ + 2)
/-- Behind a bridge output to X0: stage F of the owning channel. -/
def pastBridge (b : Block) (op : LineOp) (at_ : Nat) : Block := { b with ops := b.ops ++ [{ op with stage := .fwd, readyAt := at_ + 2 }] }
/-- A line comes to the spine input of its cluster. -/
def bidSpine (b : Block) (op : LineOp) : Block :=
  bidLine (fun b op => pastSpine b op op.readyAt) b (.spine op.ch (opCluster op)) [] op.src op
/-- A line comes to the bridge output towards its channel, from source `src`. -/
def bidBridge (b : Block) (src : Nat) (op : LineOp) : Block := bidLine (fun b op => pastBridge b op op.readyAt) b (.brX0 op.ch) [] src op
/-- Behind X0 egress of channel `ch`. -/
def pastEgress (b : Block) (ch : Nat) (op : LineOp) (at_ : Nat) : Block := bidBridge b ch { op with readyAt := at_ + 2 }
/-- A line comes to X0 egress of its port's channel. -/
def bidEgress (b : Block) (ch src : Nat) (op : LineOp) : Block :=
  bidLine (fun b op => pastEgress b ch op op.readyAt) b (.x0e ch) [.brX0 op.ch] src op

/-- The home cluster of an operation's way in its channel: none for what came through X0 (R24, R26). -/
def homeOf (op : LineOp) : Option Nat :=
  match op.org with
  | .loc p => if p.ch = op.ch then homeCluster p.port else none
  | .remote _ _ _ => none

/-- A zero-map hit is counted (R46, R184, R445). -/
def zeroHit (b : Block) (op : LineOp) : Block :=
  let b := count b 0x12 { ch := op.ch, port := op.src, cls := op.cls, cluster := opCluster op } 1
  setChan b op.ch (fun c => { c with zhitCnt := fixedAdd b c.zhitCnt (8 * op.src + op.cls) 1 })

/-- A descriptor or index line whose lane or unit stands in another channel. -/
def leavesChan (b : Block) (op : LineOp) : Bool := (descOf b op.uid).any (fun d => d.ch != op.ch)

/-- Stage F of one operation in this cycle (R26, R180 to R183), which sees the tags as they stand in `seen`: a zero hit goes to
stage Z, a zero-line write stands at check point F, anything else goes on by the direct leg, or by the spine, to which
the second component collects. -/
def forwardOp (a : Arrays) (seen : Block) (acc : Block × List LineOp) (op : LineOp) : Block × List LineOp :=
  let b := { acc.1 with ops := acc.1.ops.filter (fun o => o.serial != op.serial) }
  let b := if (seamOf b op.seam).zmap then tagNote a b op.ch op.row else b
  match fateOf a seen op with
  | .zero =>
    let b := zeroHit b op
    let back := if retHops op.org op.ch (opCluster op) = 6 ∧ (op.kind = .read ∨ leavesChan b op = true) then 4 else 0
    let op := { op with stage := .ret, readyAt := b.now + 1, data := 0, wp := 0, coll := 0, back := back }
    ({ b with ops := b.ops ++ [op] }, acc.2)
  | .check => (drainLine a { b with ops := b.ops ++ [{ op with stage := .chkF, readyAt := b.now }] } op.ch op.line, acc.2)
  | .pass =>
    let b := match op.kind with
      | .write => if isNarrow op.be op.wp then b else claimZero a seen b op
      | .reduce _ => claimZero a seen b op
      | _ => b
    if homeOf op = some (opCluster op) then (arrive b op (b.now + 1), acc.2) else (b, acc.2 ++ [op])

/-- The operations whose stage F is this cycle, in the port order of R183. One that an earlier operation of its port on its line
precedes at F waits, so that it sees the tag which that one leaves. -/
def atStageF (b : Block) : List LineOp :=
  let waits (op : LineOp) : Bool := (seamOf b op.seam).zmap && earlierOp b op (fun o => o.stage == .fwd || o.stage == .chkF)
  sortBy (fun op => op.src) (b.ops.filter (fun op => op.stage == .fwd && decide (op.readyAt ≤ b.now) && !chFrozen b op.ch && !waits op))

/-- Stage F of this cycle (R32). -/
def stageF (a : Arrays) (b : Block) : Block :=
  let r := (atStageF b).foldl (forwardOp a b) (b, [])
  r.2.foldl (fun b op => bidSpine b { op with readyAt := b.now + 1 }) r.1

/-- Zero-line writes that wait at check point F make the entries drain that they wait for (R102, R233). -/
def drainAtF (a : Arrays) (b : Block) : Block :=
  (b.ops.filter (fun op => op.stage == .chkF && decide (op.readyAt < b.now) && (mergeFind (chan b op.ch) op.line).any (entryBefore op))).foldl
    (fun b op => drainLine a b op.ch op.line) b

/-- Stage C, or Z of a zero line: the merge buffer's entry is laid over what was read (R234), and the line goes back. A zero
line waits for a narrow write of its own port that has yet to enter the buffer (R102). -/
def returnOp (b : Block) (op : LineOp) : Block :=
  let (d, pm) := withMerge b op.ch op.line op.data op.wp
  deliver { b with ops := b.ops.filter (fun o => o.serial != op.serial) } op d (pm &&& ~~~op.coll) op.coll
    (max op.readyAt b.now + 1 + op.back)
def stageC (b : Block) : Block :=
  let waits (op : LineOp) : Bool := earlierOp b op (fun o => o.stage != .ret && o.stage != .line && (match o.kind with | .write | .reduce _ => true | _ => false))
  (b.ops.filter (fun op => op.stage == .ret && decide (op.readyAt ≤ b.now) && !chFrozen b op.ch && !waits op)).foldl returnOp b

/-- Who issues line operations: the channel it stands in (none for the causeway local port), its source code there, its
home cluster, and the port whose issue limit counts them (R22). -/
structure Issuer where
  ch : Option Nat
  src : Nat
  home : Option Nat
  port : Option PortId
  deriving DecidableEq, Repr

/-- The issuer of a request at its port; requests of other instances come from the causeway local port. -/
def portIssuer (o : Origin) : Issuer :=
  match o with
  | .loc p => { ch := some p.ch, src := portCode p.port, home := homeCluster p.port, port := some p }
  | .remote _ _ _ => { ch := none, src := 8, home := none, port := none }

/-- The line operations that a port may still issue in this cycle (R22): W ÷ 128 in a cycle, and on I0 one in two cycles. -/
def issueQuota (b : Block) (i : Issuer) : Nat :=
  match i.port with
  | none => 4096
  | some p =>
    let w := portWidth p.port
    ((b.now + 1) * w - max (outOf b p).issueFree (b.now * w) + 127) / 128

/-- `n` line operations count against the issuer's limit. -/
def noteIssue (b : Block) (i : Issuer) (n : Nat) : Block :=
  match i.port with
  | none => b
  | some p =>
    let o := outOf b p
    setOut b p { o with issueFree := max o.issueFree (b.now * portWidth p.port) + 128 * n }

/-- Line operations are issued (R22, R26, R27): they reach stage F of the issuer's own channel in the next cycle, and other
channels through X0 egress and the bridge. An unowned operation of class 0 counts in the channel it goes to, at its source there, which is
X0 for one of another channel (R189, R445; DESIGN CHOICE, log 84). -/
def issueOps (b : Block) (i : Issuer) (ops : List LineOp) : Block :=
  let b := ops.foldl (fun b op =>
    let t : Tap := { ch := op.ch, port := op.src, cls := op.cls, ctx := op.ctx, cluster := opCluster op }
    let b := count b 0x10 t 1
    if op.cls = 0 ∧ opOwned b op = false then
      let b := count b 0x16 t 1
      setChan b op.ch (fun c => { c with unownCnt := fixedAdd b c.unownCnt op.src 1 })
    else b) (noteIssue b i ops.length)
  ops.foldl (fun b op =>
    let op := { op with readyAt := b.now + 1 }
    if i.ch = some op.ch then { b with ops := b.ops ++ [{ op with stage := .fwd }] }
    else match i.ch with
      | some c => bidEgress b c i.src op
      | none => bidBridge b 8 op) b

/-- A line operation of a request (R30). -/
def mkOp (b : Block) (x : Txn) (i : Issuer) (kind : LKind) (seam : Nat) (fmt line no : Nat) (data : LineData) (be : LineMask)
    (wp : WordMask) (serial : Nat) : LineOp :=
  let l := locOf b.build (seamOf b seam) line
  { serial := serial, uid := x.uid, org := x.org, src := if i.ch = some l.ch then i.src else 8, cls := x.req.cls.toNat,
    qos := x.req.qos.toNat, ctx := x.req.ctx.toNat, shift := x.req.shift, kind := kind, ch := l.ch, bank := l.bank,
    row := l.row, line := line, seam := seam, fmt := fmt, no := no, stage := .bank, readyAt := 0, waited := 0, data := data,
    be := be, wp := wp, checked := 0, coll := 0, park := 0, back := 0, id := x.req.id, desc := x.op.isDesc, pairX := no / 2, pair := 0
    reported := false, full := false, noTag := false }

/-- The seam that holds a line, by number. -/
def seamNo (b : Block) (line : Nat) : Nat := match seamAt b.seams line with | some e => e.1 | none => 0

/-! Lock checks (R258 to R260). -/

/-- What a lock check finds. -/
inductive Lock where
  | free | stall | locked | leaseLost
  deriving DecidableEq, Repr

/-- Whether a tally's span holds a line. -/
def tallyHas (t : Tally) (line : Nat) : Bool := decide (t.line ≤ line) && decide (line < t.line + t.span)

/-- The check of a set of lines for a context; a request from another instance owns nothing (R251, R259). -/
def lockCheck (b : Block) (o : Origin) (ctx : Nat) (ff : Bool) (lines : List Nat) : Lock :=
  let mine (t : Tally) : Bool := (match o with | .loc _ => true | .remote _ _ _ => false) && t.ctx == ctx
  let hits := b.tallies.filter (fun t => lines.any (tallyHas t))
  if hits.any (fun t => t.state == .lost && mine t) then .leaseLost
  else if hits.any (fun t => t.state == .held && !mine t) then (if ff then .locked else .stall)
  else .free

/-! Holds. -/

/-- A handshake that concerns the channel (R355). -/
def hsOver (b : Block) (ch : Nat) : Option Handshake :=
  match b.power.hs with
  | none => none
  | some h => if h.target ≥ 3 ∨ h.mask.contains ch then some h else none

/-- A CH_STOP that runs on the channel (R402). -/
def stopping (b : Block) (ch : Nat) : Bool :=
  b.recov.stopWait.any (fun e => e.2.contains ch)

/-- Whether a request decoded for a channel is held there (R357, R392, R402). -/
def chanHold (b : Block) (o : Origin) (owned : Bool) (ch : Nat) : Option Hold :=
  let local_ : Bool := match o with | .loc _ => true | .remote _ _ _ => false
  if (chan b ch).stopped ∨ chFrozen b ch then some .freeze
  else if stopping b ch ∧ local_ ∧ owned = false then some .freeze
  else match hsOver b ch with
    | none => none
    | some h =>
      if h.phase = .entering ∨ h.phase = .drain then some .power
      else if local_ ∧ owned = false then some .power else none

/-- Wakes written as records and in LAST_WAKE (R355, R369). -/
def wakeRecord (b : Block) (old new mask src : Nat) : Block :=
  let p3 := put 0 3 old ||| put 3 3 new ||| put 8 8 mask ||| put 16 4 src
  let b := { b with power := { b.power with lastWake := src } }
  traceSys (emit b 0x58 none none p3) 5 0 p3

/-- Deep sleep ends: the core stands in Sleep (R366, R369). A wake to Run goes on from there to WAKE_COMPLETE, whose record it
then has; a wake to Sleep has its record here. -/
def wakeDeep (b : Block) (src : Nat) (toRun : Bool) : Block :=
  let l := List.range b.build.channels
  let b := setPower b (fun q => { q with
    inst := .on, ch := l.map (fun c => (c, .sleep)), wakingInst := if toRun then some (q.wakingInst.getD src) else q.wakingInst })
  if toRun then b else wakeRecord b 3 2 (2 ^ b.build.channels - 1) src

/-- The handshake has not reached its commit point (R355, R361). -/
def hsOpen (h : Handshake) : Bool := match h.phase with | .ask | .offAck => true | _ => false

/-- An entry is abandoned with a reason of R365 (R355, R363). -/
def abandonHs (b : Block) (reason ch : Nat) : Block :=
  match b.power.hs with
  | none => b
  | some h =>
    let b := { b with power := { b.power with hs := none, refuseReason := reason, refuseCh := ch } }
    let b := emit b 0x59 none none (put 0 3 h.target ||| put 4 4 reason ||| put 8 3 ch)
    completeIf b h.cmd cRefused reason (put 0 3 ch)

/-- A channel returns to Run (R366). -/
def runChan (b : Block) (ch src : Nat) : Block :=
  let old := match chPower b ch with | .run => 0 | .idle => 1 | .sleep => 2
  if old = 0 then b
  else
    let b := setPower b (fun p => { p with ch := tset p.ch ch .run, waking := p.waking.filter (fun e => e.1 != ch) })
    wakeRecord (setChan b ch (fun c => { c with idleFrom := b.now })) old 0 (2 ^ ch) src

/-- What a channel's power state makes of a request (R366): an idle channel returns to Run, a sleeping one answers
ASLEEP or starts to wake. -/
inductive Access where
  | go | asleep | waking
  deriving DecidableEq, Repr

def accessChan (b : Block) (ch : Nat) (wake : Bool) : Block × Access :=
  match chPower b ch with
  | .run => (b, .go)
  | .idle => (runChan b ch (if wake then 1 else 2), .go)
  | .sleep =>
    if wake then
      (if b.power.waking.any (fun e => e.1 == ch) then b
       else { b with power := { b.power with waking := b.power.waking ++ [(ch, 1)] } }, .waking)
    else (b, .asleep)

/-- The channel a local on-chip address belongs to, by the seam that holds it. -/
def chanAt (b : Block) (seam addr : Nat) : Nat := chanOf b.build (seamOf b seam) addr

/-- The target of a request for the order of responses (R101): 0 to 7 a channel, 8 S0, 9 the requesting port, 16 + n
another instance. An address that has not passed decode is owned as the seam that holds it lays it out; in no seam, as one with
128 B units would (log 82). -/
def targetOf (b : Block) (x : Txn) : Nat :=
  let r := x.req
  if x.op = .fence then 9
  else if instOf r.addr ≠ b.cw.instNum then 16 + instOf r.addr
  else if Config.sumpBase ≤ localOf r.addr then 8
  else match x.seam with
    | some n => chanAt b n (localOf r.addr)
    | none => match seamAt b.seams (localOf r.addr / 128) with
      | some e => chanAt b e.1 (localOf r.addr)
      | none => chanOf b.build Seam.init (localOf r.addr)

end Sys2Proof.Machine
end

