-- ==== Sys2Proof/Machine/Tally.lean ====
section
/-! DEFINITION. Tallies (R249 to R268): the tally logic, marks, leases and waits. -/

namespace Sys2Proof.Machine

def tallyAt (b : Block) (t : Nat) : Option Tally := b.tallies.find? (fun e => e.idx == t)
def setTally (b : Block) (t : Nat) (f : Tally → Tally) : Block :=
  { b with tallies := b.tallies.map (fun e => if e.idx = t then f e else e) }
def freeTally (b : Block) (t : Nat) : Block := { b with tallies := b.tallies.filter (fun e => decide (e.idx ≠ t)) }

/-- Two spans share a line. -/
def spansMeet (l1 n1 l2 n2 : Nat) : Bool := decide (l1 < l2 + n2) && decide (l2 < l1 + n1)

/-- LINE and SPAN as the tally records carry them (R425). -/
def spanWord (line span : Nat) : Word := put 0 35 line ||| put 36 4 (span - 1)

/-- Trace class 4 of a tally: 4 held, 5 released, 6 expired (R451). -/
def traceTally (b : Block) (kind : Nat) (t : Tally) : Block :=
  let st := match t.state with | .waiting => 1 | .held => 2 | .lost => 3
  trace b 4 kind { ch := t.ch, port := 8, ctx := t.ctx } none
    (put 0 8 t.shift.toNat ||| put 8 2 st ||| put 10 35 t.line ||| put 45 4 (t.span - 1))

/-- The lowest index below the table's size that is not in use. -/
def freeIndex (used : List Nat) : Nat := ((List.range Config.tallyEntries).find? (fun i => !used.contains i)).getD 0

/-- A broken mark is placed; in a full table it replaces the oldest (R266). -/
def addMark (b : Block) (line span : Nat) : Block :=
  if b.marks.length < Config.tallyEntries then
    { b with marks := b.marks ++ [{ idx := freeIndex (b.marks.map (·.idx)), line := line, span := span }] }
  else match b.marks with
    | [] => b
    | m :: rest =>
      let b := { b with marks := rest ++ [{ idx := m.idx, line := line, span := span }],
                        marksDropped := satAdd 65535 b.marksDropped 1 }
      emit b 0x32 none none (spanWord m.line m.span)

/-- Step 3 and the drains of step 4 of R253: the entry becomes held, its lines are locked and its merge entries drain. -/
def grantTally (a : Arrays) (b : Block) (t : Nat) : Block :=
  let b := setTally b t (fun e => { e with state := .held, granting := true, leaseUs := usNow b })
  match tallyAt b t with
  | none => b
  | some e => drainWhere a (traceTally b 4 e) e.ch (fun m => tallyHas e m.line)

/-- A span meets a held entry of another context. -/
def spanLocked (b : Block) (ctx line span : Nat) : Bool :=
  b.tallies.any (fun e => e.state == .held && e.ctx != ctx && spansMeet e.line e.span line span)

/-- A span meets a held entry, of whatever context. -/
def spanTaken (b : Block) (line span : Nat) : Bool :=
  b.tallies.any (fun e => e.state == .held && spansMeet e.line e.span line span)

/-- R262 step 1: the waiting entries of a channel in the order of their arrival; each whose span is now wholly
free is granted against the state the grants before it left (R254). -/
def tallyGrants (a : Arrays) (b : Block) (ch : Nat) : Block :=
  let waiters := sortBy (fun e : Tally => e.arrival) (b.tallies.filter (fun e => e.state == .waiting && e.ch == ch))
  waiters.foldl (fun b e => if spanTaken b e.line e.span then b else grantTally a b e.idx) b

/-- Grants in every channel, after an unlock that may concern any. -/
def tallyGrantsAll (a : Arrays) (b : Block) : Block :=
  (List.range b.build.channels).foldl (fun b ch => tallyGrants a b ch) b

/-- The cycle in which an answer of the tally logic is presented (R253, R256): a tally operation that reaches the tally logic where a
write would reach stage E has its answer 2 cycles after a write would have (DEDUCED, log 22). -/
def tallyDue (b : Block) (x : Txn) (ch k : Nat) : Nat := b.now + 5 + retHops x.org ch k

/-- A tally operation at the tally logic of the owning channel (R250 to R256). -/
def tallyArrive (a : Arrays) (b : Block) (x : Txn) : Block :=
  let line := localOf x.req.addr / 128
  let seam := x.seam.getD 0
  let l := locOf b.build (seamOf b seam) line
  let ctx := x.req.ctx.toNat
  let due := tallyDue b x l.ch (l.bank / 8)
  let b := setTxn b x.uid (fun x => { x with issuedLines := 1 })
  let mine := b.tallies.find? (fun e => e.ctx == ctx && e.line == line && e.state != .waiting)
  match x.op with
  | .tallyAcq =>
    let span := reqSpan x.req
    let own := b.tallies.filter (fun e => e.ctx == ctx)
    if own.any (fun e => e.state != .waiting && spansMeet e.line e.span line span) ∨ 8 ≤ own.length then answer b x.uid .unsup due
    else
      let locked := spanLocked b ctx line span
      if locked ∧ x.req.ff = true then answer b x.uid .locked due
      else
        let e : Tally :=
          { idx := freeIndex (b.tallies.map (·.idx)), state := .waiting, ctx := ctx, shift := x.req.shift, line := line,
            span := span, lease := x.req.aux.toNat, leaseUs := 0, granting := false, uid := x.uid, ch := l.ch,
            arrival := b.serial + 1, fromUs := usNow b, waitReported := false }
        let b := { b with serial := b.serial + 1, tallies := b.tallies ++ [e] }
        let b := setTxn b x.uid (fun x => { x with stallUs := if locked then some (usNow b) else none })
        if locked then b else grantTally a b e.idx
  | .tallyExt =>
    match mine with
    | none => answer b x.uid .unsup due
    | some e =>
      if e.state = .held then
        answer (setTally b e.idx (fun e => { e with lease := x.req.aux.toNat, leaseUs := usNow b })) x.uid .okay due
      else answer b x.uid .leaseLost due
  | _ =>
    match mine with
    | none => answer b x.uid .unsup due
    | some e =>
      let b := freeTally b e.idx
      if e.state = .held then tallyGrants a (answer (traceTally b 5 e) x.uid .okay due) e.ch
      else answer b x.uid .leaseLost due

/-- A tally operation reaches the tally logic of the owning channel in cycle `at_`. -/
def tallyReach (b : Block) (x : Txn) (at_ : Nat) : Block := setTxn b x.uid (fun x => { x with total := 1, due := at_ })

/-- A tally operation that has come to its channel takes the spine input to the cluster of its first line, as source `src`. -/
def tallySpine (b : Block) (x : Txn) (src readyAt : Nat) : Block :=
  let l := locOf b.build (seamOf b (x.seam.getD 0)) (localOf x.req.addr / 128)
  addXfer b (.spine l.ch (l.bank / 8)) [] src x.org x.req.cls.toNat x.req.qos.toNat x.req.ctx.toNat readyAt 1 (.tally x.uid)

/-- A tally operation sets out in its decode cycle, along the path of a one-line write to its first line (R111, R253): the direct leg of
its port, the spine, or X0 egress, the bridge and the spine of the owning channel. -/
def tallyStart (b : Block) (x : Txn) : Block :=
  let l := locOf b.build (seamOf b (x.seam.getD 0)) (localOf x.req.addr / 128)
  match x.org with
  | .loc p =>
    if p.ch = l.ch then
      (if homeCluster p.port = some (l.bank / 8) then tallyReach b x (b.now + 2) else tallySpine b x (portCode p.port) (b.now + 2))
    else addXfer b (.x0e p.ch) [.brX0 l.ch] (portCode p.port) x.org x.req.cls.toNat x.req.qos.toNat x.req.ctx.toNat (b.now + 1) 1 (.tally x.uid)
  | .remote _ _ _ => addXfer b (.brX0 l.ch) [] 8 x.org x.req.cls.toNat x.req.qos.toNat x.req.ctx.toNat (b.now + 1) 1 (.tally x.uid)

/-- Work of another context on the span is still on its way: a line operation or an entry of the merge buffer, or a
request that passed its lock check and has lines to issue (R253 step 4). -/
def spanBusy (b : Block) (t : Tally) : Bool :=
  let foreign (o : Origin) (ctx : Nat) : Bool := ctx != t.ctx || (match o with | .loc _ => false | .remote _ _ _ => true)
  let opBusy (op : LineOp) : Bool := tallyHas t op.line && !bySequencer op.kind && foreign op.org op.ctx
  b.ops.any opBusy || b.xfers.any (fun x => match x.payload with | .lines ops => ops.any opBusy | _ => false)
    || (chan b t.ch).merge.any (fun e => tallyHas t e.line && (e.draining || foreign e.org e.ctx))
    || b.txns.any (fun x => x.unlocked && (match x.phase with | .waiting _ => true | .active => decide (x.issuedLines < x.total) | _ => false)
        && foreign x.org x.req.ctx.toNat && decide (instOf x.req.addr = b.cw.instNum) && (reqLines x.req).any (tallyHas t))

/-- LEASE_START (R253 step 5): the lease starts and the acquire is answered, BROKEN over a mark, which it clears. DESIGN CHOICE (log 101):
an acquire whose entry is broken or released before this step has no answer of the tally logic (R265). -/
def leaseStart (b : Block) (t : Nat) : Block :=
  match tallyAt b t with
  | none => b
  | some e =>
    if e.granting ∧ spanBusy b e = false then
      let broken := b.marks.any (fun m => spansMeet m.line m.span e.line e.span)
      let b := { b with marks := b.marks.filter (fun m => !spansMeet m.line m.span e.line e.span) }
      let b := setTally b t (fun e => { e with granting := false })
      match txnOf b e.uid with
      | none => b
      | some x =>
        let l := locOf b.build (seamOf b (x.seam.getD 0)) e.line
        answer b x.uid (if broken then .broken else .okay) (tallyDue b x l.ch (l.bank / 8))
    else b

/-- TALLY_LEASE_EXPIRY (R263): on the (L + 1)th tick after its grant or extension a held entry becomes lost. -/
def leaseExpiry (a : Arrays) (b : Block) (t : Nat) : Block :=
  match tallyAt b t with
  | none => b
  | some e =>
    if e.state = .held ∧ usDue b e.leaseUs e.lease = true then
      let b := setTally b t (fun e => { e with state := .lost })
      let b := emit b 0x30 (some e.ch) (some (e.ctx, e.shift)) (spanWord e.line e.span)
      tallyGrants a (traceTally b 6 { e with state := .lost }) e.ch
    else b

/-- What a waiter waits on: the first held entry of another context that meets its lines. -/
def blocker (b : Block) (o : Origin) (ctx line span : Nat) : Option Tally :=
  let mine (t : Tally) : Bool := (match o with | .loc _ => true | .remote _ _ _ => false) && t.ctx == ctx
  b.tallies.find? (fun e => e.state == .held && !mine e && spansMeet e.line e.span line span)

/-- A TALLY_WAIT record (R264) of a waiter for `len` lines; its SPAN field holds up to 16. -/
def waitRecord (b : Block) (o : Origin) (ch ctx line len : Nat) (shift : BitVec 8) : Block :=
  match blocker b o ctx line len with
  | none => b
  | some e => emit b 0x31 (some ch) (some (ctx, shift))
      (put 0 35 line ||| put 36 4 (min 16 len - 1) ||| put 40 6 e.ctx ||| put 48 4 o.code)

/-- The waiter has waited WAIT_REPORT µs (R264). -/
def tallyWaitDue (b : Block) (from_ : Nat) : Bool :=
  let l := fld b.regs.tallyCtl 0 16
  decide (l ≠ 0) && usDue b from_ l

/-- The oldest stalled request that `p` picks and whose stall has no record yet (R264). -/
def waitOf (b : Block) (p : Txn → Bool) : Block :=
  match b.txns.find? (fun x => p x && x.stallUs.isSome && !x.waitReported && !x.op.isTally) with
  | none => b
  | some x =>
    if tallyWaitDue b (x.stallUs.getD 0) then
      let line := x.stallLine
      waitRecord (setTxn b x.uid (fun x => { x with waitReported := true })) x.org
        (locOf b.build (seamOf b (seamNo b line)) line).ch x.req.ctx.toNat line (if x.op.isRange then (reqLines x.req).length else 1) x.req.shift
    else b

/-- TALLY_WAIT (R264): an entry that waits, or a request that stalls. -/
def tallyWaitRow (b : Block) (w : Waiter) : Block :=
  match w with
  | .entry t =>
    match tallyAt b t with
    | none => b
    | some e =>
      if e.state = .waiting ∧ tallyWaitDue b e.fromUs = true ∧ e.waitReported = false then
        let o := match txnOf b e.uid with | some x => x.org | none => .remote 64 0 0
        waitRecord (setTally b t (fun e => { e with waitReported := true })) o e.ch e.ctx e.line e.span e.shift
      else b
  | .request p id => waitOf b (fun x => decide (x.org = .loc p) && x.req.id == id)
  | .remote inst orig id => waitOf b (fun x => (match x.org with | .remote i o _ => i == inst && o == orig | .loc _ => false) && x.req.id == id)

/-- Held entries that `p` picks are broken (R265): each leaves a mark and becomes free, or lost on a channel reset;
waiting entries that `p` picks are freed. Lost entries that `dropLost` picks are freed. -/
def breakTallies (a : Arrays) (b : Block) (p : Tally → Bool) (toLost : Bool) (dropLost : Tally → Bool) : Block :=
  let held := b.tallies.filter (fun e => e.state == .held && p e)
  let b := held.foldl (fun b e => addMark b e.line e.span) b
  let keep (e : Tally) : Bool := match e.state with
    | .held => toLost || !p e
    | .waiting => !p e
    | .lost => !dropLost e
  let b := { b with tallies := (b.tallies.filter keep).map (fun e =>
    if e.state = .held ∧ p e = true then { e with state := .lost, granting := false } else e) }
  tallyGrantsAll a b

end Sys2Proof.Machine
end

