-- ==== Sys2Proof/Machine/Tile.lean ====
section
/-! DEFINITION. Tile descriptors: fields and checks (R117 to R125, R131, R133, R135, R136, R139), descriptor and port order
(R120, R121), the plan of line operations (R140), and the data of lines and beats (R126 to R129, R134, R141, R142). -/

namespace Sys2Proof.Machine

/-- Doubleword k of a descriptor. -/
def descDw (d : BitVec 512) (k : Nat) : Word := d.extractLsb' (64 * k) 64

/-- A field as a signed 32-bit number (R118). -/
def sfield (w : Word) (lo : Nat) : Int :=
  let v := fld w lo 32
  if v < 2 ^ 31 then (v : Int) else (v : Int) - 2 ^ 32

/-- The fields of a tile descriptor (R118); extents are the numbers of elements. -/
structure TileD where
  base : Nat
  sfmt : Nat
  pfmt : Nat
  sbase : Nat
  ndim : Nat
  transpose : Bool
  sat : Bool
  round : Nat
  swizzle : Nat
  e0 : Nat
  e1 : Nat
  e2 : Nat
  e3 : Nat
  s0 : Int
  s1 : Int
  s2 : Int
  s3 : Int
  t1 : Int
  t2 : Int
  t3 : Int
  deriving DecidableEq, Repr

def tileOf (d : BitVec 512) : TileD :=
  let w := descDw d
  { base := fld (w 0) 0 42, sfmt := fld (w 0) 48 8, pfmt := fld (w 0) 56 8, sbase := fld (w 1) 0 42, ndim := fld (w 1) 48 2,
    transpose := bit (w 1) 50, sat := bit (w 1) 51, round := fld (w 1) 52 2, swizzle := fld (w 1) 56 4,
    e0 := fld (w 2) 0 16 + 1, e1 := fld (w 2) 16 16 + 1, e2 := fld (w 2) 32 16 + 1, e3 := fld (w 2) 48 16 + 1,
    s0 := sfield (w 3) 0, s1 := sfield (w 3) 32, s2 := sfield (w 4) 0, s3 := sfield (w 4) 32,
    t1 := sfield (w 5) 0, t2 := sfield (w 5) 32, t3 := sfield (w 6) 0 }

/-- Every reserved field of a tile descriptor is 0 (R118). -/
def tileReserved (d : BitVec 512) : Bool :=
  let w := descDw d
  fld (w 0) 42 6 == 0 && fld (w 1) 42 6 == 0 && fld (w 1) 54 2 == 0 && fld (w 1) 60 4 == 0 && fld (w 6) 32 32 == 0 && w 7 == 0

/-- Dimensions above NDIM are unused (R119). -/
def tileDims (t : TileD) : Bool :=
  (decide (1 ≤ t.ndim) || (t.e1 == 1 && t.s1 == 0 && t.t1 == 0)) && (decide (2 ≤ t.ndim) || (t.e2 == 1 && t.s2 == 0 && t.t2 == 0))
    && (decide (3 ≤ t.ndim) || (t.e3 == 1 && t.s3 == 0 && t.t3 == 0))

/-- The pairs of R131. -/
def pairOk (o : Op) (s p : Nat) : Bool :=
  let exp := [0x05, 0x06]
  let fp8 := [0x07, 0x08]
  match o with
  | .tileRed => s == p && [0x03, 0x04, 0x05, 0x06].contains s
  | .tileRd =>
    (s == p && decide (s ≤ 0x08)) || (fp8.contains s && exp.contains p) || (s == 0x07 && p == 0x08) || (s == 0x08 && p == 0x07)
      || ([0x01, 0x02].contains s && (exp.contains p || fp8.contains p)) || (isMx s && (exp.contains p || fp8.contains p))
  | _ =>
    (s == p && decide (s ≤ 0x08)) || (p == 0x04 && (exp.contains s || fp8.contains s || isMx s))
      || (p == 0x05 && (s == 0x06 || fp8.contains s || isMx s))

/-- The layout rules of R124. -/
def layoutOk (t : TileD) : Bool :=
  let mult (n : Nat) : Bool := t.base % n == 0 && t.s1 % n == 0 && t.s2 % n == 0 && t.s3 % n == 0
  let packed := t.s0 == 0
  let row := match t.sfmt with
    | 0x05 | 0x06 => t.s0 % 2 == 0 && mult 2
    | 0x03 | 0x04 => t.s0 % 4 == 0 && mult 4
    | 0x02 => packed && mult 8 && t.e0 % 2 == 0
    | s => if isMx s then packed && mult 8 && t.e0 % 32 == 0 else true
  row && (isMx t.sfmt || (t.sbase == 0 && t.t1 == 0 && t.t2 == 0 && t.t3 == 0))

/-- The element count and the port-side size in bytes (R119, R125). -/
def tileCount (t : TileD) : Nat := t.e0 * t.e1 * t.e2 * t.e3
def tileSize (t : TileD) : Nat := tileCount t * fmtBits t.pfmt / 8

/-- The extents of port dimensions 0 and 1 (R121). -/
def portE0 (t : TileD) : Nat := if t.transpose then t.e1 else t.e0
def portE1 (t : TileD) : Nat := if t.transpose then t.e0 else t.e1

/-- Port rows that one packed row of KPACK takes (R136). -/
def packP (t : TileD) : Nat := if 2 ≤ t.swizzle then 32 / fmtBits t.pfmt else 1

/-- The requirements of transposition and of the swizzles (R135, R136). -/
def swizzleOk (t : TileD) : Bool :=
  let small := fmtBits t.pfmt == 8 || fmtBits t.pfmt == 16
  let rowbytes := portE0 t * fmtBits t.pfmt / 8
  (!t.transpose || (decide (t.e0 ≤ 128) && decide (t.e1 ≤ 128) && small)) &&
  match t.swizzle with
  | 0 => true
  | 1 => rowbytes % 128 == 0
  | 2 => small && portE1 t % packP t == 0
  | 3 => small && portE1 t % packP t == 0 && rowbytes * packP t % 128 == 0
  | _ => false

/-- The field checks of R138 step 3 that need no seam. -/
def tileFieldsOk (o : Op) (redop : Nat) (d : BitVec 512) : Bool :=
  let t := tileOf d
  tileReserved d && tileDims t && pairOk o t.sfmt t.pfmt && layoutOk t && decide (tileSize t ≤ 65536) && swizzleOk t
    && (if o = .tileWr then decide (t.round ≤ 1) else t.round == 0)
    && (if o = .tileRed then t.sfmt == redFmt redop && !t.transpose else true)

/-- One bound of R139: the low and high ends reached by a stride over an extent. -/
def reach (ext : Nat) (s : Int) : Int × Int :=
  let d := ((ext : Int) - 1) * s
  (min d 0, max d 0)

/-- A bounding range of R139 over dimensions 1 to 3. -/
def boundOf (t : TileD) (base : Nat) (s1 s2 s3 : Int) (span : Int × Int) : Int × Int :=
  let a := reach t.e1 s1
  let b := reach t.e2 s2
  let c := reach t.e3 s3
  ((base : Int) + a.1 + b.1 + c.1 + span.1, (base : Int) + a.2 + b.2 + c.2 + span.2)

/-- The data bounding range (R139). -/
def dataBound (t : TileD) : Int × Int :=
  let s := fmtBits t.sfmt
  if t.s0 = 0 then boundOf t t.base t.s1 t.s2 t.s3 (0, ((t.e0 * s + 7) / 8 : Nat) - 1)
  else
    let d := reach t.e0 t.s0
    boundOf t t.base t.s1 t.s2 t.s3 (d.1, d.2 + ((s / 8 : Nat) : Int) - 1)

/-- The scale bounding range of an MX format (R139). -/
def scaleBound (t : TileD) : Int × Int := boundOf t t.sbase t.t1 t.t2 t.t3 (0, ((t.e0 / 32 : Nat) : Int) - 1)

/-- The indices (i0, i1, i2, i3) of the element with descriptor-order number `n` (R121). -/
def tileIdx (t : TileD) (n : Nat) : Nat × Nat × Nat × Nat :=
  (n % t.e0, n / t.e0 % t.e1, n / (t.e0 * t.e1) % t.e2, n / (t.e0 * t.e1 * t.e2))

/-- The local bit address of an element (R120). -/
def elemBit (t : TileD) (n : Nat) : Nat :=
  let (i0, i1, i2, i3) := tileIdx t n
  let row : Int := t.base + i1 * t.s1 + i2 * t.s2 + i3 * t.s3
  if t.s0 = 0 then (row * 8 + i0 * fmtBits t.sfmt).toNat else ((row + i0 * t.s0) * 8).toNat

/-- The local byte address of an element's scale (R120). -/
def scaleByte (t : TileD) (n : Nat) : Nat :=
  let (i0, i1, i2, i3) := tileIdx t n
  ((t.sbase : Int) + (i0 / 32 : Nat) + i1 * t.t1 + i2 * t.t2 + i3 * t.t3).toNat

/-- The bit at which an element stands on the port side (R121, R136, R141). -/
def portBit (t : TileD) (n : Nat) : Nat :=
  let (i0, i1, i2, i3) := tileIdx t n
  let pb := fmtBits t.pfmt
  let p0 := if t.transpose then i1 else i0
  let p1 := if t.transpose then i0 else i1
  let row := p1 + portE1 t * (i2 + t.e2 * i3)
  let p := packP t
  let r := row / p
  let rowBits := portE0 t * p * pb
  let pos := (p0 * p + row % p) * pb
  let pos := if t.swizzle % 2 = 1 then
      pos / 1024 * 1024 + (((pos % 1024) / 128) ^^^ (r % 8)) * 128 + pos % 128 else pos
  r * rowBits + pos

/-- A piece of an element in a line: bits [lo+len-1:lo] of the element lie at bit `off` of the line. A 6-bit element that
crosses a line has two pieces (R120). -/
structure Piece where
  off : Nat
  lo : Nat
  len : Nat
  deriving DecidableEq, Repr

/-- The pieces of an element in the lines it lies in. -/
def elemPieces (t : TileD) (n : Nat) : List (Nat × Piece) :=
  let a := elemBit t n
  let s := fmtBits t.sfmt
  let l := a / 1024
  let r := min s (1024 - a % 1024)
  if r = s then [(l, { off := a % 1024, lo := 0, len := s })]
  else [(l, { off := a % 1024, lo := 0, len := r }), (l + 1, { off := 0, lo := r, len := s - r })]

/-- The descriptor-order number of the element whose port-side bits begin at bit `at_` (the inverse of `portBit`). -/
def portElemAt (t : TileD) (at_ : Nat) : Nat :=
  let p := packP t
  let rowBits := portE0 t * p * fmtBits t.pfmt
  let r := at_ / rowBits
  let q := at_ % rowBits
  let q := if t.swizzle % 2 = 1 then q / 1024 * 1024 + (((q % 1024) / 128) ^^^ (r % 8)) * 128 + q % 128 else q
  let e := q / fmtBits t.pfmt
  let p0 := e / p
  let row := r * p + e % p
  let p1 := row % portE1 t
  let i2 := row / portE1 t % t.e2
  let i3 := row / portE1 t / t.e2
  let (i0, i1) := if t.transpose then (p1, p0) else (p0, p1)
  i0 + t.e0 * (i1 + t.e1 * (i2 + t.e2 * i3))

/-- The plan while it is made: finished lines in reverse, the open data line, and the open scale line with the finished
lines that stand before its place. -/
structure PlanAcc where
  done : List PlanLine
  data : Option PlanLine
  scale : Option PlanLine
  after : List PlanLine
  deriving DecidableEq, Repr

/-- A line of the plan that serves element `n` so far. -/
def newLine (line n : Nat) (scale : Bool) : PlanLine := { line := line, scale := scale, first := n, last := n, beat := 0 }

/-- Element `n` joins the open data line if it lies in it and, for a reduce, adds no byte the line has already (each
occurrence of an element is combined once, R140; log 23). -/
def planPiece (t : TileD) (dup : Bool) (n : Nat) (acc : PlanAcc) (x : Nat × Piece) : PlanAcc :=
  match acc.data with
  | none => { acc with data := some (newLine x.1 n false) }
  | some d =>
    let clash := dup && (List.range' d.first (n - d.first)).any (fun m => elemBit t m == elemBit t n)
    if d.line = x.1 ∧ clash = false then { acc with data := some { d with last := n } }
    else { acc with after := d :: acc.after, data := some (newLine x.1 n false) }

/-- The scale of a new block: it joins the open scale line or opens another. On a read the scale line stands just before
the first data line that needs it; on a write just before the first data line of its last block (R140). -/
def planScale (wr : Bool) (t : TileD) (acc : PlanAcc) (n : Nat) : PlanAcc :=
  let line := scaleByte t n / 128
  let acc := match acc.data with
    | some d => if d.line = elemBit t n / 1024 then acc else { acc with after := d :: acc.after, data := none }
    | none => acc
  let flushed := acc.after ++ (match acc.scale with | some s => [s] | none => []) ++ acc.done
  match acc.scale with
  | some s =>
    if s.line = line then
      if wr then { acc with scale := some { s with last := n }, done := acc.after ++ acc.done, after := [] }
      else { acc with scale := some { s with last := n } }
    else { acc with done := flushed, scale := some (newLine line n true), after := [] }
  | none => { acc with done := flushed, scale := some (newLine line n true), after := [] }

/-- The elements whose port-side data a line of the plan serves, or needs (R140, R144): those of its blocks for a scale line and
for the write of an MX format. -/
def planSpan (o : Op) (t : TileD) (p : PlanLine) : List Nat :=
  let (lo, hi) := if p.scale then (p.first, p.last + 31)
    else if o.isRead = false ∧ isMx t.sfmt = true then (p.first / 32 * 32, p.last / 32 * 32 + 31)
    else (p.first, p.last)
  List.range' lo (hi + 1 - lo)

/-- The line with its beat, on a port W bytes wide: the first one that needs it, or how many must have come (R143, R144). -/
def planBeat (o : Op) (w : Nat) (t : TileD) (p : PlanLine) : PlanLine :=
  let beats := (planSpan o t p).map (fun n => portBit t n / (8 * w))
  { p with beat := if o.isRead then beats.foldl min (portBit t p.first / (8 * w)) else beats.foldl max 0 + 1 }

/-- The line operations of a tile, in the order in which the lane issues them (R140). -/
def tilePlan (o : Op) (w : Nat) (t : TileD) : List PlanLine :=
  let acc := (List.range (tileCount t)).foldl (fun acc n =>
    let acc := if isMx t.sfmt && n % 32 == 0 then planScale (o == .tileWr) t acc n else acc
    (elemPieces t n).foldl (planPiece t (o == .tileRed) n) acc) { done := [], data := none, scale := none, after := [] }
  let l := (match acc.data with | some d => [d] | none => []) ++ acc.after
    ++ (match acc.scale with | some s => [s] | none => []) ++ acc.done
  (l.reverse).map (planBeat o w t)

/-- The beats of a descriptor operation (R141, R174). -/
def beatsFor (w size : Nat) : Nat := (size + w - 1) / w

/-! Reads. -/

/-- Some word of `m` that the bits [off+len-1:off] of a line touch. -/
def bitsInWords (m : WordMask) (off len : Nat) : Bool :=
  bit m (off / 64) || bit m ((off + len - 1) / 64)

/-- The result of the plan's n-th line. -/
def lineOfNo (res : List LineRes) (n : Nat) : Option LineRes := res.find? (fun r => r.no == n)

/-- The result of the first line of the plan that `p` picks. -/
def resultOf (plan : List (PlanLine × Nat)) (res : List LineRes) (p : PlanLine → Bool) : Option LineRes :=
  (plan.find? (fun e => p e.1)).bind (fun e => lineOfNo res e.2)

/-- An element's stored value, with whether a poisoned or a collided word holds part of it. -/
def gatherElem (plan : List (PlanLine × Nat)) (res : List LineRes) (t : TileD) (n : Nat) : Nat × Bool × Bool :=
  (elemPieces t n).foldl (fun acc x =>
    match resultOf plan res (fun p => !p.scale && p.line == x.1 && decide (p.first ≤ n) && decide (n ≤ p.last)) with
    | some r => (acc.1 ||| (fld r.data x.2.off x.2.len <<< x.2.lo), acc.2.1 || bitsInWords r.pm x.2.off x.2.len,
        acc.2.2 || bitsInWords r.coll x.2.off x.2.len)
    | none => acc) (0, false, false)

/-- An element's scale byte, with whether its word is poisoned or collided. -/
def gatherScale (plan : List (PlanLine × Nat)) (res : List LineRes) (t : TileD) (n : Nat) : Nat × Bool × Bool :=
  let k := n / 32 * 32
  let a := scaleByte t k
  let off := a % 128 * 8
  match resultOf plan res (fun p => p.scale && p.line == a / 128 && decide (p.first ≤ k) && decide (k ≤ p.last)) with
  | some r => (fld r.data off 8, bitsInWords r.pm off 8, bitsInWords r.coll off 8)
  | none => (0, false, false)

/-- Beat k of a tile read on a port W bytes wide: its data, and its words that are poisoned and that collided (R142). -/
def tileBeat (w : Nat) (t : TileD) (plan : List (PlanLine × Nat)) (res : List LineRes) (k : Nat) : BitVec 2048 × BitVec 32 × Bool :=
  let pb := fmtBits t.pfmt
  let n := min (8 * w) (8 * tileSize t - 8 * w * k) / pb
  let (bits, bad, co) := (List.range n).foldl (fun (acc : Nat × BitVec 32 × Bool) m =>
    let e := portElemAt t (8 * w * k + m * pb)
    let (raw, pz, cl) := gatherElem plan res t e
    let (sc, spz, scl) := if isMx t.sfmt then gatherScale plan res t e else (0, false, false)
    let pz := pz || spz
    let v := if pz then 0 else convRead t.sfmt t.pfmt t.sat sc raw
    (acc.1 ||| (v <<< (m * pb)), if pz then acc.2.1 ||| (1#32 <<< (m * pb / 64)) else acc.2.1, acc.2.2 || cl || scl)) (0, 0, false)
  (BitVec.ofNat 2048 bits, bad, co)

/-! Writes. -/

/-- The random number of an element (R130). -/
def rngDraw (snap : Word) (i : Nat) : Nat :=
  let x : Word := (snap <<< 16) ||| BitVec.ofNat 64 i
  let z := x * 0x9E3779B97F4A7C15#64
  let z := (z ^^^ (z >>> 30)) * 0xBF58476D1CE4E5B9#64
  let z := (z ^^^ (z >>> 27)) * 0x94D049BB133111EB#64
  fld (z ^^^ (z >>> 31)) 0 16

/-- The rounding of an element (R127, R129). -/
def elemRound (t : TileD) (snap : Word) (n : Nat) : Rounding :=
  if t.round = 1 then .stochastic (rngDraw snap n) else .nearest

/-- Bits [off+len-1:off] of the port-side data received on a port W bytes wide, and whether a word of them is poisoned. -/
def beatBits (w : Nat) (beats : List WBeat) (off len : Nat) : Nat × Bool :=
  match beats[off / (8 * w)]? with
  | none => (0, false)
  | some t => (fld t.data (off % (8 * w)) len, bit t.wpoison (off % (8 * w) / 64))

/-- Port-side value of an element of a write. -/
def portElem (w : Nat) (t : TileD) (beats : List WBeat) (n : Nat) : Nat × Bool := beatBits w beats (portBit t n) (fmtBits t.pfmt)

/-- The scale of the block that element `n` begins, and whether a poisoned word reaches it (R128, R142). -/
def blockScale (w : Nat) (t : TileD) (beats : List WBeat) (n : Nat) : Nat × Bool :=
  let es := (List.range 32).map (fun k => portElem w t beats (n / 32 * 32 + k))
  (mxScale t.sfmt (es.map (fun e => elemVal t.pfmt e.1)), es.any (fun e => e.2))

/-- The stored bits of an element of a write, and whether it comes from a poisoned word (R127 to R129, R142). -/
def storedElem (w : Nat) (t : TileD) (snap : Word) (beats : List WBeat) (n : Nat) : Nat × Bool :=
  let (x, bad) := portElem w t beats n
  let v := if isMx t.sfmt then mxElem t.sfmt (blockScale w t beats n).1 (elemRound t snap n) (elemVal t.pfmt x)
    else convWrite t.sfmt t.pfmt t.sat (elemRound t snap n) x
  (v % 2 ^ fmtBits t.sfmt, bad)

/-- Bytes that bits [off+len-1:off] of a line touch. -/
def bytesTouched (off len : Nat) : LineMask := BitVec.ofNat 128 (2 ^ ((off + len - 1) / 8 + 1) - 2 ^ (off / 8))

/-- The write data of a planned line: data, enables and poison. Where elements of one line overlap, the later wins
(R140). A byte that a 6-bit or 4-bit element shares with an element of another line is enabled. -/
def planWrite (w : Nat) (t : TileD) (snap : Word) (beats : List WBeat) (p : PlanLine) : LineData × LineMask × WordMask :=
  let lay := fun (acc : LineData × LineMask × WordMask) (off len v : Nat) (bad : Bool) =>
    let hole : LineData := BitVec.ofNat 1024 ((2 ^ len - 1) <<< off)
    let wp := if bad then acc.2.2 ||| (1#16 <<< (off / 64)) ||| (1#16 <<< ((off + len - 1) / 64)) else acc.2.2
    ((acc.1 &&& ~~~hole) ||| BitVec.ofNat 1024 (v <<< off), acc.2.1 ||| bytesTouched off len, wp)
  if p.scale then
    (List.range ((p.last - p.first) / 32 + 1)).foldl (fun acc k =>
      let n := p.first + 32 * k
      let (v, bad) := blockScale w t beats n
      lay acc (scaleByte t n % 128 * 8) 8 v bad) (0, 0, 0)
  else
    (List.range' p.first (p.last + 1 - p.first)).foldl (fun acc n =>
      let (v, bad) := storedElem w t snap beats n
      ((elemPieces t n).filter (fun x => x.1 == p.line)).foldl (fun acc x =>
        lay acc x.2.off x.2.len ((v >>> x.2.lo) % 2 ^ x.2.len) bad) acc) (0, 0, 0)

/-- Transform cycles X (R143). -/
def tileCycles (t : TileD) : Nat := (if t.sfmt ≠ t.pfmt then 2 else 0) + (if t.swizzle ≠ 0 then 1 else 0)

end Sys2Proof.Machine
end

