-- ==== Sys2Proof/Machine/Desc.lean ====
section
/-! DEFINITION. The tile lanes and the gather unit (R137, R138, R140, R144, R146, R168 to R178): queues, descriptor
fetches, expansion and the data of gathered rows. -/

namespace Sys2Proof.Machine

/-- The fields of a gather descriptor (R168). -/
structure GatherD where
  ibase : Nat
  tbase : Nat
  rowb : Nat
  poisonOor : Bool
  nullEn : Bool
  stride : Nat
  limit : Nat
  count : Nat
  deriving DecidableEq, Repr

def gatherOf (d : BitVec 512) : GatherD :=
  let w := descDw d
  { ibase := fld (w 0) 0 42, tbase := fld (w 1) 0 42, rowb := 32 <<< fld (w 1) 48 3, poisonOor := bit (w 1) 52,
    nullEn := bit (w 1) 53, stride := fld (w 2) 0 32, limit := fld (w 2) 32 32, count := fld (w 3) 0 16 + 1 }

/-- The field checks of R169 that need no seam. -/
def gatherFieldsOk (d : BitVec 512) (ff : Bool) : Bool :=
  let w := descDw d
  let g := gatherOf d
  fld (w 0) 42 22 == 0 && fld (w 1) 42 6 == 0 && fld (w 1) 51 1 == 0 && fld (w 1) 54 10 == 0 && fld (w 3) 16 48 == 0
    && w 4 == 0 && w 5 == 0 && w 6 == 0 && w 7 == 0 && g.limit != 0 && g.ibase % 4 == 0
    && g.tbase % min g.rowb 128 == 0 && g.stride % min g.rowb 128 == 0 && decide (g.count * g.rowb ≤ 65536) && !ff

/-- The index range and the table range (R170). -/
def indexRange (g : GatherD) : Nat × Nat := (g.ibase, g.ibase + 4 * g.count - 1)
def tableRange (g : GatherD) : Nat × Nat := (g.tbase, g.tbase + (g.limit - 1) * g.stride + g.rowb - 1)

/-- Lines a row takes, and the lines of the index list. -/
def rowLines (g : GatherD) : Nat := if g.rowb ≤ 128 then 1 else g.rowb / 128
def indexLines (g : GatherD) : Nat := (g.ibase % 128 + 4 * g.count - 1) / 128 + 1

/-- Who issues for a descriptor operation: the requester's port, or X0 of the owning channel (R137, R172). -/
def descIssuer (x : Txn) (ch : Nat) : Issuer :=
  match x.org with
  | .loc p => if p.ch = ch then portIssuer x.org else { ch := some ch, src := 8, home := none, port := some ⟨ch, .X0⟩ }
  | .remote _ _ _ => { ch := some ch, src := 8, home := none, port := some ⟨ch, .X0⟩ }

/-- A descriptor operation expanded for X0. -/
def isX0 (x : Txn) (ch : Nat) : Bool :=
  match x.org with | .loc p => decide (p.ch ≠ ch) | .remote _ _ _ => true

/-- Line operations issue on behalf of a request: their serials are taken and the request's count grows. -/
def issueFor (b : Block) (x : Txn) (i : Issuer) (mk : List (Nat → LineOp)) (counted : Bool) : Block :=
  let ops := mk.zipIdx.map (fun e => e.1 (b.serial + 1 + e.2))
  let b := { b with serial := b.serial + mk.length }
  let b := if counted then setTxn b x.uid (fun x => { x with issuedLines := x.issuedLines + mk.length }) else b
  issueOps b i ops

/-- Whether the work of a lane or the gather unit may issue to a line now: its lock check and its channel (R258, R173). -/
inductive Gate where
  | go | wait | waking | stall
  | ends (st : Status)
  deriving DecidableEq, Repr

def lineGate (b : Block) (x : Txn) (seam line : Nat) : Block × Gate :=
  let l := locOf b.build (seamOf b seam) line
  match lockCheck b x.org x.req.ctx.toNat x.req.ff [line] with
  | .leaseLost => (b, .ends .leaseLost)
  | .locked => (b, .ends .locked)
  | .stall => (b, .stall)
  | .free =>
    let owned := isOwned b x.req.cls.toNat seam l.ch (l.bank / 8) x.org
    if (chanHold b x.org owned l.ch).isSome then (b, .wait)
    else match accessChan b l.ch true with
      | (b, .go) => (b, .go)
      | (b, _) => (b, .waking)

/-- What the gate of a line makes of its operation's waits (R70, R264): a stall runs from its first cycle until that line goes on, and
an auto-wake pauses the age. -/
def gateWait (b : Block) (uid line : Nat) (g : Gate) : Block :=
  setTxn b uid (fun x =>
    let stalls := x.stallUs.isSome
    match g with
    | .stall => if stalls then x else { x with stallUs := some (usNow b), stallLine := line, waitReported := false, autoWake := false }
    | _ => { x with autoWake := decide (g = .waking), stallUs := if x.stallLine = line then none else x.stallUs })

/-- The width of the port that a request came by; the data of a request of another instance comes in lines (R300). -/
def reqWidth (x : Txn) : Nat := match x.org with | .loc p => portWidth p.port | .remote _ _ _ => 128

/-- The class of an index (R171), with the row number of a valid one. -/
inductive IClass where
  | null | outOfRange | poisoned
  | valid (x : Nat)
  deriving DecidableEq, Repr

/-- Index j of the list, from the index lines read: its value, and whether its word is poisoned. -/
def indexValue (g : GatherD) (d : DescOp) (j : Nat) : Nat × Bool :=
  let p := g.ibase % 128 + 4 * j
  match d.index.find? (fun e => e.no == p / 128) with
  | none => (0, true)
  | some e => (fld e.data (p % 128 * 8) 32, bit e.pm (p % 128 / 8))

/-- The lines of table row x. -/
def tableLines (g : GatherD) (x : Nat) : List Nat :=
  let a := g.tbase + x * g.stride
  (List.range (rowLines g)).map (fun q => a / 128 + q)

def indexClass (b : Block) (x : Txn) (g : GatherD) (d : DescOp) (j : Nat) : IClass :=
  let (v, bad) := indexValue g d j
  if bad then .poisoned
  else if v = 2 ^ 32 - 1 ∧ g.nullEn = true then .null
  else if g.limit ≤ v then .outOfRange
  else if isX0 x d.ch && (tableLines g v).any (fun l => (locOf b.build (seamOf b (seamNo b l)) l).ch != d.ch) then .outOfRange
  else .valid v

/-! Return buffers (R80; log 32). -/

/-- Lines of a read whose data the initiator has taken, of `n` that it has (R87). -/
def linesTaken (x : Txn) (n : Nat) : Nat :=
  let w := reqWidth x
  let a := localOf x.req.addr
  if x.beatsOut = 0 then 0 else min n ((a / w + x.beatsOut) * w / 128 - a / 128)

/-- Bytes of the blocks in which a lane stages the data of a tile read: one transposed block (R135); 0 where it stages none. -/
def stageBytes (t : TileD) : Nat := if t.transpose then t.e0 * t.e1 * fmtBits t.pfmt / 8 else 0

/-- A line of a tile read leaves the return buffer when it has come and its data is staged (transposed or packed, R135, R136), or goes
into the beat that is presented next. -/
def tileLineFree (b : Block) (x : Txn) (t : TileD) (e : PlanLine × Nat) : Bool :=
  (lineOfNo x.results e.2).any (fun r => decide (r.due ≤ b.now)) && (t.transpose || decide (2 ≤ t.swizzle) || decide (e.1.beat ≤ x.beatsOut))

/-- Rows of a gather that are issued, by number of line: the rows that issue nothing reserve nothing. -/
def gatherHeld (b : Block) (x : Txn) (d : DescOp) : Nat :=
  let g := gatherOf d.desc
  let n := rowLines g
  let out := x.beatsOut * reqWidth x / min g.rowb 128
  let valid (no : Nat) : Bool := match indexClass b x g d (no / n) with | .valid _ => true | _ => false
  ((List.range' out (d.rowNext * n + d.rowLine - out)).filter valid).length

/-- Lines that a descriptor operation holds reserved: its descriptor and its index lines until they have come, its data lines
until they leave the buffer. -/
def descLines (b : Block) (x : Txn) (d : DescOp) : Nat :=
  match d.stage with
  | .queued | .ready => 0
  | .fetching => 1
  | _ =>
    if x.op.isGather then
      d.indexNext - (d.index.filter (fun e => decide (e.due ≤ b.now))).length + (if x.op = .gather then gatherHeld b x d else 0)
    else if x.op.isRead then ((d.plan.zipIdx.take d.next).filter (fun e => !tileLineFree b x (tileOf d.desc) e)).length
    else 0

/-- Lines that a request holds reserved in the return buffer of its own port. -/
def linesHeld (b : Block) (x : Txn) : Nat :=
  if x.phase ≠ .active then 0
  else if x.op = .rd then
    let n := (reqLines x.req).length
    (if onChip b x then x.issuedLines else x.issuedLines * n) - linesTaken x n
  else match descOf b x.uid with
    | some d => if isX0 x d.ch then 0 else descLines b x d
    | none => 0

/-- Free lines of a port's return buffer, and of X0's in a channel: what is expanded there, and the reads of other instances until
their responses have left. -/
def portRoom (b : Block) (p : PortId) : Nat := returnLines p.port - (portTxns b p).foldl (fun n x => n + linesHeld b x) 0
def bridgeRoom (b : Block) (ch : Nat) : Nat :=
  let far (x : Txn) : Nat := if isRemote x.org ∧ x.op = .rd ∧ x.phase = .active ∧ targetOf b x = ch then x.issuedLines - x.beatsOut else 0
  let here (x : Txn) : Nat := match descOf b x.uid with
    | some d => if d.ch = ch ∧ isX0 x ch = true then descLines b x d else 0
    | none => 0
  returnLines .X0 - b.txns.foldl (fun n x => n + far x + here x) 0

/-- An earlier read, whose response must come first (R101), has lines to issue yet: a later one reserves nothing before it (DESIGN
CHOICE, log 32), since what it reserved could not be presented. -/
def behindRead (b : Block) (x : Txn) : Bool :=
  let short (y : Txn) : Bool := match y.phase with
    | .waiting _ | .decodeHeld _ => true
    | .active => match descOf b y.uid with
      | some d => d.stage != .issued
      | none => decide (y.issuedLines < y.total) || y.total == 0
    | _ => false
  b.txns.any (fun y => decide (y.uid < x.uid) && decide (y.org = x.org) && y.req.id == x.req.id && onReadChan y && short y
    && targetOf b y == targetOf b x)

/-- Lines that a read may reserve now, for issuer `i`. -/
def returnRoom (b : Block) (x : Txn) (i : Issuer) : Nat :=
  if onReadChan x && behindRead b x then 0
  else match i.port with
    | some p => if p.port = .X0 then bridgeRoom b p.ch else portRoom b p
    | none => bridgeRoom b (targetOf b x)

/-- The descriptor operation leaves its lane. -/
def dropDesc (b : Block) (uid : Nat) : Block := { b with descs := b.descs.filter (fun d => decide (d.uid ≠ uid)) }

/-- Port cycles that the answer of a lane or unit adds on its way back over the bridge (R143, R502). -/
def wayBack (x : Txn) (ch : Nat) : Nat := if isX0 x ch then 4 else 0

/-- A line operation met LEASE_LOST or LOCKED: the operation ends with that status (R259, R260, R175, R502). It stays with its unit until
it is answered, since it stays decoded into its seams (R54). -/
def endDesc (b : Block) (x : Txn) (d : DescOp) (st : Status) : Block :=
  let b := setDesc b x.uid (fun d => { d with stage := .issued })
  if x.op.isRead then answer b x.uid st (b.now + 1 + wayBack x d.ch)
  else setTxn b x.uid (fun x => finishTxn { x with failed := some st })

/-- The line operations that the gather unit of a channel may still issue for an issuer in this cycle (R177). -/
def gatherQuota (b : Block) (ch : Nat) (i : Issuer) : Nat :=
  let c := chan b ch
  min (issueQuota b i) (8 - (if c.gatherAt = b.now then c.gatherUsed else 0))

/-- The gather unit has issued a line operation. -/
def noteGather (b : Block) (ch src : Nat) : Block :=
  setChan b ch (fun c => { c with gatherAt := b.now, gatherUsed := (if c.gatherAt = b.now then c.gatherUsed else 0) + 1, gatherLast := some src })

/-- The lock check of the fetch ends the operation: it performs nothing (R259, R502). -/
def endFetch (b : Block) (x : Txn) (d : DescOp) (st : Status) : Block :=
  answer (setDesc b x.uid (fun d => { d with stage := .issued })) x.uid st (b.now + 1 + wayBack x d.ch)

/-- The fetch of a descriptor: one line operation (R117, R145). -/
def fetchDesc (b : Block) (x : Txn) (d : DescOp) : Block :=
  let seam := x.seam.getD 0
  let ptr := localOf x.req.addr
  match lockCheck b x.org x.req.ctx.toNat x.req.ff [ptr / 128] with
  | .leaseLost => endFetch b x d .leaseLost
  | .locked => endFetch b x d .locked
  | .stall => gateWait b x.uid (ptr / 128) .stall
  | .free =>
    let b := setDesc b x.uid (fun d => { d with stage := .fetching })
    let i := descIssuer x d.ch
    issueFor (gateWait b x.uid (ptr / 128) .go) x i [fun s => mkOp b x i .desc seam 0 (ptr / 128) (ptr / 64) 0 0 0 s] false

/-- The lane fetches the descriptor of its next operation while it expands the current one (R137); the gather unit
(lane 8) fetches each as it comes. -/
def laneFetch (b : Block) (ch lane : Nat) : Block :=
  let l := b.descs.filter (fun d => d.ch == ch && d.lane == lane)
  let room := lane == 8 || decide ((l.filter (fun d => d.stage != .queued && d.stage != .issued)).length < 2)
  match l.find? (fun d => d.stage == .queued) with
  | none => b
  | some d => match txnOf b d.uid with
    | none => b
    | some x => if room && decide (d.readyAt ≤ b.now) && decide (0 < issueQuota b (descIssuer x ch))
        && decide (0 < returnRoom b x (descIssuer x ch)) then fetchDesc b x d else b

/-- A descriptor operation is queued at the lane or the gather unit of the channel that owns its pointer, which accepts it in
cycle `at_` (R137, R143, R172). -/
def queueDesc (b : Block) (x : Txn) (ch at_ : Nat) : Block :=
  let lane := if x.op.isGather then 8 else if isX0 x ch then 7 else match x.org with | .loc p => laneOf p.port | _ => 7
  let d : DescOp :=
    { uid := x.uid, ch := ch, lane := lane, stage := .queued, desc := 0, bad := false, readyAt := at_, snap := 0, plan := [],
      next := 0, index := [], indexNext := 0, rowNext := 0, rowLine := 0, oor := false }
  laneFetch { b with descs := b.descs ++ [d] } ch lane

/-! Decode failures (R69, R75). -/

/-- The DECODE_DROP record (R75). -/
def dropRecord (b : Block) (r : ReqBeat) (inst orig code : Nat) : Block :=
  emit b 0x11 none (some (r.ctx.toNat, r.shift)) (put 0 48 r.addr.toNat ||| put 48 4 9 ||| put 52 4 code) (put 0 6 inst ||| put 6 6 orig)

/-- A request fails decode: it is held unanswered (R69), or, from another instance, dropped with a record once its write lines have come,
which are discarded (R75, R90). -/
def failDecode (b : Block) (x : Txn) (code : Nat) : Block :=
  match x.org with
  | .loc _ => setTxn b x.uid (fun x => { x with phase := .decodeHeld code })
  | .remote inst orig _ =>
    let b := dropRecord b x.req inst orig code
    if x.op.hasData && !x.gotLast then setTxn b x.uid (fun x => { x with phase := .decodeHeld code, hung := true }) else dropTxn b x.uid

/-! Tile expansion. -/

/-- The port of an ORIG (R300). -/
def portOfOrig (o : Nat) : PortId :=
  { ch := o / 8, port := ([.M0, .M1, .M2, .M3, .V0, .V1, .D0, .I0] : List Port).getD (o % 8) .M0 }

/-- Write data beats that carry `size` port-side bytes; of another instance, the 128 B pieces of its port's beats (R141, R300). -/
def beatsOwed (x : Txn) (size : Nat) : Nat :=
  match x.org with
  | .loc p => beatsFor (portWidth p.port) size
  | .remote _ orig _ => let w := portWidth (portOfOrig orig).port; beatsFor w size * max 1 (w / 128)


/-- The write data that `n` beats carry had come, and `cycles` cycles had passed since, by the cycle before (R144). -/
def beatsCome (b : Block) (x : Txn) (n cycles : Nat) : Bool :=
  match n with
  | 0 => true
  | n + 1 => match x.beatAt[n]? with
    | some t => decide (t + cycles < b.now)
    | none => false

/-- One of the two staging halves is free for the line's block: it is at most one block ahead of what the next beat drains (R135). -/
def stageRoom (x : Txn) (t : TileD) (pl : PlanLine) : Bool :=
  let w := reqWidth x
  stageBytes t == 0 || decide (pl.first / (t.e0 * t.e1) ≤ (x.beatsOut * w + w - 1) / stageBytes t + 1)

/-- The lane issues the next line of its plan, if it may (R140, R144). -/
def laneIssue (b : Block) (x : Txn) (d : DescOp) (pl : PlanLine) : Block × Bool :=
  let t := tileOf d.desc
  let i := descIssuer x d.ch
  let seam := seamNo b pl.line
  if issueQuota b i = 0 ∨ (if x.op.isRead then decide (0 < returnRoom b x i) && stageRoom x t pl else beatsCome b x pl.beat (tileCycles t)) = false
  then (b, false)
  else match lineGate b x seam pl.line with
    | (b, .go) =>
      let kind := match x.op with | .tileRd => LKind.read | .tileRed => .reduce (reqRedop x.req) | _ => .write
      let (data, be, wp) := if x.op.isRead then (0, 0, 0) else planWrite (reqWidth x) t d.snap x.wbeats pl
      let fmt := if pl.scale then 0x09 else t.sfmt
      let b := setDesc b x.uid (fun d => { d with next := d.next + 1 })
      (issueFor (gateWait b x.uid pl.line .go) x i [fun s => mkOp b x i kind seam fmt pl.line d.next data be wp s] true, true)
    | (b, .ends st) => (endDesc b x d st, false)
    | (b, g) => (gateWait b x.uid pl.line g, false)

/-- The descriptor operation has issued all it will: its lane goes on to the next. -/
def issuedDesc (b : Block) (d : DescOp) : Block := laneFetch (setDesc b d.uid (fun d => { d with stage := .issued })) d.ch d.lane

/-- The lane issues as many lines of a tile as it may; when none is left, or the write data turned out wrong (R91), the lane is
free for its next operation. -/
def laneRun (b : Block) (uid : Nat) : Nat → Block
  | 0 => b
  | fuel + 1 =>
    match descOf b uid, txnOf b uid with
    | some d, some x =>
      if d.stage = .expanding ∧ d.lane ≠ 8 ∧ d.readyAt ≤ b.now then
        match (if x.mismatch then none else d.plan[d.next]?) with
        | none => issuedDesc b d
        | some pl => match laneIssue b x d pl with
          | (b, true) => laneRun b uid fuel
          | (b, false) => b
      else b
    | _, _ => b

/-! Gather expansion. -/

/-- The unit reads index lines in list order, at most 16 fetched and not yet used (R173 step 4). -/
def indexRun (b : Block) (uid : Nat) : Nat → Block
  | 0 => b
  | fuel + 1 =>
    match descOf b uid, txnOf b uid with
    | some d, some x =>
      let g := gatherOf d.desc
      let i := descIssuer x d.ch
      let used := (g.ibase % 128 + 4 * d.rowNext) / 128
      if d.stage = .expanding ∧ d.readyAt ≤ b.now ∧ d.indexNext < indexLines g ∧ d.indexNext < used + 16 ∧ 0 < gatherQuota b d.ch i
          ∧ 0 < returnRoom b x i ∧ x.mismatch = false then
        let line := g.ibase / 128 + d.indexNext
        let seam := seamNo b line
        match lineGate b x seam line with
        | (b, .go) =>
          let b := noteGather (setDesc b uid (fun d => { d with indexNext := d.indexNext + 1 })) d.ch i.src
          indexRun (issueFor (gateWait b uid line .go) x i [fun s => mkOp b x i .index seam 0 line d.indexNext 0 0 0 s] false) uid fuel
        | (b, .ends st) => endDesc b x d st
        | (b, g) => gateWait b uid line g
      else b
    | _, _ => b

/-- Bytes [n, n + len) of the write data received. -/
def beatByte (w : Nat) (beats : List WBeat) (k : Nat) : Byte :=
  match beats[k / w]? with | none => 0 | some t => t.data.extractLsb' (8 * (k % w)) 8

/-- The write data of line q of row j for table row x: data, enables, poison (R174). -/
def rowWrite (w : Nat) (g : GatherD) (beats : List WBeat) (x j q : Nat) : LineData × LineMask × WordMask :=
  let off := (g.tbase + x * g.stride) % 128
  let len := min g.rowb 128
  let port := j * g.rowb + q * 128
  let data := (List.range len).foldl (fun acc k => acc ||| ((beatByte w beats (port + k)).setWidth 1024 <<< (8 * (off + k)))) 0
  let wp := wordsOf (fun k => decide (off ≤ 8 * k) && decide (8 * k < off + len) && (beatBits w beats (8 * (port + (8 * k - off))) 1).2)
  (data, bytesOf (fun k => decide (off ≤ k) && decide (k < off + len)), wp)

/-- A row that issues nothing: a GATHER takes zeros or marked words for it, a SCATTER skips its lines (R171). It is ready in the cycle in
which its address is computed, the cycle before this one (R178), and over the bridge 4 cycles later. -/
def skipRow (b : Block) (x : Txn) (d : DescOp) (g : GatherD) (j : Nat) (marked : Bool) : Block :=
  let n := rowLines g
  if x.op = .gather then
    setTxn b x.uid (fun x => { x with
      issuedLines := x.issuedLines + n
      results := x.results ++ (List.range n).map (fun q =>
        { no := j * n + q, data := 0, pm := if marked then 0xFFFF#16 else 0, coll := 0,
          st := if marked then .poison else .okay, due := b.now - 1 + wayBack x d.ch }) })
  else setTxn b x.uid (fun x => finishTxn { x with issuedLines := x.issuedLines + n, lineAcks := x.lineAcks + n })

/-- The next line of row j, whose index is known, is issued, or the row is skipped; false where it must wait. -/
def rowIssue (b : Block) (x : Txn) (d : DescOp) (g : GatherD) (j : Nat) : Block × Bool :=
  let skip (b : Block) (marked : Bool) : Block × Bool := (setDesc (skipRow b x d g j marked) x.uid (fun d => { d with rowNext := j + 1 }), true)
  match indexClass b x g d j with
  | .null => skip b false
  | .poisoned => skip b true
  | .outOfRange =>
    let v := (indexValue g d j).1
    let b := if d.oor then b else
      emit (setDesc b x.uid (fun d => { d with oor := true })) 0x21 (some d.ch) (some (x.req.ctx.toNat, x.req.shift))
        (put 0 4 x.org.code ||| put 4 8 x.req.id.toNat ||| put 16 16 j ||| put 32 32 v)
    skip b g.poisonOor
  | .valid v =>
    let seam := seamNo b (g.tbase / 128)
    let i := descIssuer x d.ch
    let q := d.rowLine
    let n := rowLines g
    let line := (tableLines g v).getD q 0
    if gatherQuota b d.ch i = 0 ∨ (x.op = .gather ∧ returnRoom b x i = 0) then (b, false)
    else match lineGate b x seam line with
    | (b, .go) =>
      let kind := match x.op with | .gather => LKind.read | .scatter => .write | _ => .reduce (reqRedop x.req)
      let fmt := if x.op = .scatterRed then redFmt (reqRedop x.req) else (seamOf b seam).format
      let b := gateWait b x.uid line .go
      let b := setDesc b x.uid (fun d => if q + 1 < n then { d with rowLine := q + 1 } else { d with rowNext := j + 1, rowLine := 0 })
      let b := if q = 0 then count b 0x25 { ch := d.ch, port := x.org.code, ctx := x.req.ctx.toNat } 1 else b
      let (data, be, wp) := if x.op = .gather then (0, 0, 0) else rowWrite (reqWidth x) g x.wbeats v j q
      (issueFor (noteGather b d.ch i.src) x i [fun s => mkOp b x i kind seam fmt line (j * n + q) data be wp s] true, true)
    | (b, .ends st) => (endDesc b x d st, false)
    | (b, g) => (gateWait b x.uid line g, false)

/-- The index line of position `no` is usable: its rows issue no earlier than one cycle after it was ready (R173 step 5, R178). -/
def indexUsable (b : Block) (d : DescOp) (no : Nat) : Bool :=
  decide (no < d.next) && d.index.any (fun e => e.no == no && decide (e.due + 2 ≤ b.now))

/-- The unit goes through the rows whose index lines are usable and, for a scatter, whose data has come (R173 step 5, R178). -/
def gatherRun (b : Block) (uid : Nat) : Nat → Block
  | 0 => b
  | fuel + 1 =>
    match descOf b uid, txnOf b uid with
    | some d, some x =>
      let g := gatherOf d.desc
      let j := d.rowNext
      let w := reqWidth x
      if d.stage ≠ .expanding ∨ d.lane ≠ 8 then b
      else if g.count ≤ j ∨ x.mismatch = true then setDesc b uid (fun d => { d with stage := .issued })
      else if indexUsable b d ((g.ibase % 128 + 4 * j) / 128) = false then b
      else if x.op ≠ .gather ∧ beatsCome b x (((j + 1) * g.rowb + w - 1) / w) 0 = false then b
      else match rowIssue b x d g j with
        | (b, true) => gatherRun b uid fuel
        | (b, false) => b
    | _, _ => b

/-- Everything a descriptor operation can issue now. -/
def descRun (b : Block) (uid : Nat) : Block :=
  match descOf b uid with
  | none => b
  | some d =>
    if d.stage = .queued then laneFetch b d.ch d.lane
    else if d.lane = 8 then gatherRun (indexRun b uid 8) uid 65537
    else laneRun b uid 3

/-! DESCRIPTOR_READY (R138, R173). -/

/-- The decode of a range under reason 4 of R68. -/
def rangeSeam (b : Block) (ctx lo hi : Nat) : Option Nat :=
  match decodeRange b.seams lo hi ctx with | .ok n => some n | .error _ => none

/-- A signed range that lies at or above 0. One that begins below 0 does not wrap: its bytes below 0 lie in no seam, so that it fails step 4
of R138 (DESIGN CHOICE, log 85). -/
def natRange (r : Int × Int) : Option (Nat × Nat) := if 0 ≤ r.1 ∧ r.1 ≤ r.2 then some (r.1.toNat, r.2.toNat) else none

/-- Some VALID seam that the range meets at or above 0 is a SUMP seam, or has a FORMAT `p` picks (R123, R169). -/
def rangeHits (b : Block) (r : Int × Int) (p : Seam → Bool) : Bool :=
  decide (0 ≤ r.2) && (seamsOver b.seams r.1.toNat r.2.toNat).any (fun e => p e.2)

/-- The verdict on a fetched descriptor. -/
inductive Verdict138 where
  | malformed | held | locked | leaseLost | asleep | go
  deriving DecidableEq, Repr

/-- A range of lines is free of other contexts' tallies for a fail-fast operation (R260). -/
def rangeLock (b : Block) (x : Txn) (lo hi : Nat) : Lock :=
  let meets (t : Tally) : Bool := spansMeet t.line t.span (lo / 128) (hi / 128 - lo / 128 + 1)
  let mine (t : Tally) : Bool := (match x.org with | .loc _ => true | .remote _ _ _ => false) && t.ctx == x.req.ctx.toNat
  if b.tallies.any (fun t => t.state == .lost && mine t && meets t) then .leaseLost
  else if b.tallies.any (fun t => t.state == .held && !mine t && meets t) then .locked
  else .free

/-- Steps 2 to 4 of R138 for a tile descriptor with its plan. -/
def tileVerdict (b : Block) (x : Txn) (d : DescOp) (plan : List PlanLine) : Verdict138 :=
  let t := tileOf d.desc
  let ctx := x.req.ctx.toNat
  if d.bad ∨ tileFieldsOk x.op (reqRedop x.req) d.desc = false then .malformed
  else
    let mx := isMx t.sfmt
    let data := dataBound t
    let scl := scaleBound t
    let fmtBad (s : Seam) : Bool := s.sump || (s.format != 0 && s.format != t.sfmt)
    let sclBad (s : Seam) : Bool := s.sump || (s.format != 0 && s.format != 0x09)
    let below := decide (data.1 < 0) || (mx && decide (scl.1 < 0))
    if rangeHits b data fmtBad ∨ (mx = true ∧ rangeHits b scl sclBad = true) then .malformed
    else if isX0 x d.ch && plan.any (fun pl => (!below || pl.line != 0) &&
        (seamAt b.seams pl.line).isSome && (locOf b.build (seamOf b (seamNo b pl.line)) pl.line).ch != d.ch) then .malformed
    else match natRange data, natRange (if mx then scl else (0, 0)) with
    | some (lo, hi), some (slo, shi) =>
      if (rangeSeam b ctx lo hi).isNone ∨ (mx = true ∧ (rangeSeam b ctx slo shi).isNone = true) then .held
      else if x.req.ff then
        match rangeLock b x lo hi, (if mx then rangeLock b x slo shi else .free) with
        | .leaseLost, _ => .leaseLost
        | _, .leaseLost => .leaseLost
        | .locked, _ => .locked
        | _, .locked => .locked
        | _, _ => .go
      else .go
    | _, _ => .held

/-- Steps 2 and 3 of R173 for a gather descriptor. -/
def gatherVerdict (b : Block) (x : Txn) (d : DescOp) : Verdict138 :=
  let g := gatherOf d.desc
  let ctx := x.req.ctx.toNat
  if d.bad ∨ gatherFieldsOk d.desc x.req.ff = false then .malformed
  else
    let (ilo, ihi) := indexRange g
    let (tlo, thi) := tableRange g
    let sumpHit (s : Seam) : Bool := s.sump
    let fmtBad (s : Seam) : Bool := s.format != 0 && s.format != redFmt (reqRedop x.req)
    let idx := (List.range (indexLines g)).map (fun k => g.ibase / 128 + k)
    let reachable := if isX0 x d.ch then [d.ch] else List.range b.build.channels
    if rangeHits b (ilo, ihi) sumpHit ∨ rangeHits b (tlo, thi) sumpHit then .malformed
    else if x.op ≠ .gather ∧ ilo ≤ thi ∧ tlo ≤ ihi then .malformed
    else if x.op = .scatterRed ∧ rangeHits b (tlo, thi) fmtBad = true then .malformed
    else if isX0 x d.ch && idx.any (fun l => (seamAt b.seams l).isSome
        && (locOf b.build (seamOf b (seamNo b l)) l).ch != d.ch) then .malformed
    else if x.req.wake = false ∧ reachable.any (fun c => chPower b c == .sleep) = true then .asleep
    else if (rangeSeam b ctx ilo ihi).isNone ∨ (rangeSeam b ctx tlo thi).isNone then .held
    else .go

/-- The lane's current operation: no earlier one of its lane is still expanding or before (R137). -/
def laneTurn (b : Block) (d : DescOp) : Bool :=
  d.lane == 8 || match b.descs.find? (fun e => e.ch == d.ch && e.lane == d.lane && e.stage != .issued) with
    | some e => e.uid == d.uid
    | none => false

/-- Port-side bytes of a descriptor operation once its descriptor is known (R125, R174). -/
def descSize (x : Txn) (d : DescOp) : Nat :=
  if x.op.isGather then (gatherOf d.desc).count * (gatherOf d.desc).rowb else tileSize (tileOf d.desc)

/-- The cycles of the X0 lane's channel check, 8 lines in a cycle, on a descriptor whose fields are right (R137, R173). A line that the
plan accesses again counts again (DESIGN CHOICE, log 86). -/
def checkCycles (x : Txn) (d : DescOp) (plan : List PlanLine) : Nat :=
  if isX0 x d.ch then ((if x.op.isGather then indexLines (gatherOf d.desc) else plan.length) + 7) / 8 else 0

/-- A fetched descriptor is checked and its expansion begins (R138, R173, R130): its first lines issue 2 cycles after it was ready, and later
by the channel check. -/
def descReady (b : Block) (d : DescOp) (x : Txn) : Block :=
  let t := tileOf d.desc
  let ok := !d.bad && (if x.op.isGather then gatherFieldsOk d.desc x.req.ff else tileFieldsOk x.op (reqRedop x.req) d.desc)
  let plan := if x.op.isGather || !ok then [] else tilePlan x.op (reqWidth x) t
  let due := b.now + 2 + (if ok then checkCycles x d plan else 0)
  let next (b : Block) : Block := laneFetch b d.ch d.lane
  let say (st : Status) (b : Block) : Block := next (answer b x.uid st (due + wayBack x d.ch))
  let ends (st : Status) : Block := say st (setDesc b x.uid (fun d => { d with stage := .issued, plan := plan }))
  match (if x.op.isGather then gatherVerdict b x d else tileVerdict b x d plan) with
  | .malformed => say .unsup (dropDesc b x.uid)
  | .locked => ends .locked
  | .leaseLost => ends .leaseLost
  | .asleep => ends .asleep
  | .held => next (failDecode (dropDesc b x.uid) x 4)
  | .go =>
    let g := gatherOf d.desc
    let c := x.req.ctx.toNat
    let snap := (ctxOf b c).rng
    let b := if x.op = .tileWr ∧ t.round = 1 then setCtx b c (fun c => { c with rng := c.rng + 1 }) else b
    let b := count b 0x24 { ch := d.ch, port := x.org.code, ctx := c } 1
    let b := setDesc b x.uid (fun d => { d with stage := .expanding, readyAt := due + 1, snap := snap, plan := plan })
    let beats := if x.op.isRead then beatsFor (reqWidth x) (descSize x d) else beatsOwed x (descSize x d)
    next (setTxn b x.uid (fun x => finishTxn { x with
      total := if x.op.isGather then g.count * rowLines g else plan.length
      beats := beats
      mismatch := x.op.hasData && (decide (beats < x.wbeats.length) || (x.gotLast && x.wbeats.length != beats)) }))

/-! Read beats of descriptor operations (R141 to R143, R174, R178). -/

/-- The results that beat k of a gather on a port W bytes wide carries. -/
def gatherNos (w : Nat) (g : GatherD) (k : Nat) : List Nat :=
  let len := min g.rowb 128
  (List.range' (k * w / len) (w / len)).filter (fun no => decide (no < g.count * rowLines g))

/-- A line of the plan that a beat of a tile read waits for: it is the first beat that needs the line, or the line's block is one that
the beat holds bytes of (R135, R143). -/
def beatNeeds (x : Txn) (t : TileD) (k : Nat) (pl : PlanLine) : Bool :=
  let w := reqWidth x
  let blk := pl.first / (t.e0 * t.e1)
  if stageBytes t = 0 then pl.beat == k
  else decide (k * w / stageBytes t ≤ blk) && decide (blk ≤ (k * w + w - 1) / stageBytes t)

/-- Beat k of a descriptor read is ready: every line that it waits for is ready, and transformed. -/
def descBeatReady (b : Block) (x : Txn) (d : DescOp) (k : Nat) : Bool :=
  let here (no extra : Nat) : Bool := (lineOfNo x.results no).any (fun r => decide (r.due + extra ≤ b.now))
  if x.op.isGather then (gatherNos (reqWidth x) (gatherOf d.desc) k).all (fun no => here no 0)
  else d.plan.zipIdx.all (fun e => !beatNeeds x (tileOf d.desc) k e.1 || here e.2 (tileCycles (tileOf d.desc)))

/-- Beat k of a gather: rows in list order (R171, R174). -/
def gatherBeat (w : Nat) (g : GatherD) (d : DescOp) (res : List LineRes) (k : Nat) : BitVec 2048 × BitVec 32 × Bool :=
  let len := min g.rowb 128
  (gatherNos w g k).zipIdx.foldl (fun acc e =>
    match lineOfNo res e.1 with
    | none => acc
    | some r =>
      let off := if g.rowb < 128 then (g.tbase + (indexValue g d e.1).1 * g.stride) % 128 else 0
      let at_ := e.2 * len
      let part (m : WordMask) : BitVec 32 := BitVec.ofNat 32 (fld m (off / 8) (len / 8) <<< (at_ / 8))
      (acc.1 ||| BitVec.ofNat 2048 (fld r.data (8 * off) (8 * len) <<< (8 * at_)), acc.2.1 ||| part r.pm, acc.2.2 || part r.coll != 0))
    (0, 0, false)

/-- The data of beat k of a descriptor read, its words that are poisoned, and whether one collided. -/
def descBeat (x : Txn) (d : DescOp) (k : Nat) : BitVec 2048 × BitVec 32 × Bool :=
  if x.op.isGather then gatherBeat (reqWidth x) (gatherOf d.desc) d x.results k
  else tileBeat (reqWidth x) (tileOf d.desc) d.plan.zipIdx x.results k

end Sys2Proof.Machine
end

