-- ==== Sys2Proof/Machine/Issue.lean ====
section
/-! DEFINITION. The ports (R77 to R108): acceptance, the context check, decode, the waits of an accepted request, the
issue of its lines, its write data, its read beats and its responses. -/

namespace Sys2Proof.Machine

/-! Waits (R97, R100, R106, R279). -/

/-- The outstanding limit of a background class (R199); 0 stands for 256. -/
def classLimit (b : Block) (cls : Nat) : Nat :=
  let v := fld b.regs.classLimitA (8 * cls - 8) 8
  if v = 0 then 256 else v

/-- A request of classes 1 to 7 waits while its port has LIMc earlier requests of its class outstanding (R100, R199). -/
def classHeld (b : Block) (x : Txn) : Bool :=
  let c := x.req.cls.toNat
  match x.org with
  | .loc p => decide (1 ≤ c) && decide (classLimit b c ≤
      ((portTxns b p).filter (fun y => decide (y.uid < x.uid) && y.req.cls == x.req.cls)).length)
  | .remote _ _ _ => false

/-- The lines a linear operation touches, for the order of R102 and R257. -/
def touched (b : Block) (x : Txn) : List Nat :=
  if x.op.isRange then reqLines x.req
  else
    let l := localOf x.req.addr / 128
    match x.op with
    | .tallyAcq => (List.range (reqSpan x.req)).map (fun i => l + i)
    | .tallyRel => match b.tallies.find? (fun t => t.ctx == x.req.ctx.toNat && t.line == l) with
      | some t => (List.range t.span).map (fun i => l + i)
      | none => [l]
    | .tallyExt => [l]
    | _ => []

/-- Two requests lie in one 4,096 B block, and on a common line. -/
def shareBlock (x y : Txn) : Bool := instOf y.req.addr == instOf x.req.addr && localOf y.req.addr / 4096 == localOf x.req.addr / 4096
def shareLine (b : Block) (x y : Txn) : Bool :=
  instOf y.req.addr == instOf x.req.addr && (touched b y).any (fun l => (touched b x).contains l)

/-- Two linear requests of one port whose order their target keeps: a common line, in the sump window a common 4,096 B block
(R102, R257, R279, R310). -/
def keepOrder (b : Block) (x y : Txn) : Bool :=
  let lin (z : Txn) : Bool := z.op.isRange || z.op.isTally
  let sump := instOf x.req.addr == b.cw.instNum && decide (Config.sumpBase ≤ localOf x.req.addr)
  sameOrigin y.org x.org && lin x && lin y && (if sump then shareBlock x y else shareLine b x y)

/-- An earlier linear operation of the same port has yet to go as far as the order of R102, R257, R279 and R310 asks; off the chip
one that waits for its class limit holds its whole 4,096 B block. A tally operation waits at the tally logic instead. -/
def orderHeld (b : Block) (x : Txn) : Bool :=
  let open_ (y : Txn) : Bool := match y.phase with
    | .waiting _ => true
    | .active => !x.op.isTally && (y.op.isTally || (decide (y.issuedLines < y.total) && !(x.op == .rd && y.op == .rd)))
    | _ => false
  let limited (y : Txn) : Bool := decide (y.org = x.org) && y.op.isRange && decide (y.phase = .waiting .classLimit) && !onChip b x && shareBlock x y
  (x.op.isRange || x.op.isTally) && b.txns.any (fun y => decide (y.uid < x.uid) && ((open_ y && keepOrder b x y) || limited y))

/-- The tally operations that get to the tally logic in this cycle, in the port order of R183 (R254): each after the earlier
operations of its own port on its lines (R257). -/
def tallyLogic (a : Arrays) (b : Block) : Block :=
  let ch (x : Txn) : Nat := chanAt b (x.seam.getD 0) (localOf x.req.addr)
  let before (x : Txn) : Bool := b.txns.any (fun y => decide (y.uid < x.uid) && y.phase == .active && keepOrder b x y)
  let here (x : Txn) : Bool := x.op.isTally && x.phase == .active && decide (x.issuedLines < x.total) && decide (x.due ≤ b.now)
    && onChip b x && !chFrozen b (ch x) && !before x
  let code (x : Txn) : Nat := match x.org with
    | .loc p => if p.ch = ch x then portCode p.port else 8
    | .remote _ _ _ => 8
  (sortBy code (b.txns.filter here)).foldl (fun b x => tallyArrive a b x) b

/-- A FENCE's scope holds a port (R105). -/
def inScope (f : Txn) (o : Origin) : Bool :=
  match o with | .loc _ => bit f.req.aux 0 || decide (f.org = o) | .remote _ _ _ => false

/-- A FENCE that orders later operations: it waits for its scope, or has yet to present the response that it completes with. One that is
answered without being performed orders nothing (R82, R98, R106). -/
def fenceOpen (b : Block) (f : Txn) : Bool :=
  f.op == .fence && (match f.phase with | .waiting .fence | .answered .okay => true | _ => false)
    && (match f.org with | .loc p => (outOf b p).wrspHeld != some f.uid | .remote _ _ _ => false)

/-- An earlier FENCE of the context that orders the request has not presented its response (R105, R106). -/
def fenceHeld (b : Block) (x : Txn) : Bool :=
  b.txns.any (fun f => fenceOpen b f && decide (f.uid ≠ x.uid) && f.req.ctx == x.req.ctx && inScope f x.org
    && decide (f.acceptedAt ≤ x.acceptedAt))

/-! Issue of linear requests. -/

/-- Two lines of a linear request, by their places in it, whose data a shared path carries in one beat (R111): on X0 egress and the bridge
the pairs of lines, on a spine input those of the lines that go to its cluster. -/
def clusterNo (b : Block) (x : Txn) (line : Nat) : Nat := (locOf b.build (seamOf b (x.seam.getD 0)) line).bank / 8
def spinePair (b : Block) (x : Txn) (n : Nat) : Nat :=
  let l := reqLines x.req
  ((l.take n).filter (fun m => clusterNo b x m == clusterNo b x (l.getD n 0))).length / 2
def sharesBeat (b : Block) (x : Txn) (n m : Nat) : Bool :=
  let l := reqLines x.req
  let i := portIssuer x.org
  let k := clusterNo b x (l.getD n 0)
  let far := decide (i.ch ≠ some (chanAt b (x.seam.getD 0) (localOf x.req.addr)))
  (far && n / 2 == m / 2)
    || ((far || decide (i.home ≠ some k)) && k == clusterNo b x (l.getD m 0) && spinePair b x n == spinePair b x m)

/-- Lines of a linear write whose data had come by the cycle before. -/
def linesCome (b : Block) (x : Txn) : Nat :=
  let w := reqWidth x
  let a := localOf x.req.addr
  let n := (x.beatAt.filter (fun t => decide (t < b.now))).length
  if n = 0 then 0 else (a / w + n) * w / 128 - a / 128

/-- How many more lines of a linear request may issue now: by its port's issue limit, by return-buffer space for a read, and for a write
by the write data that has come, of the line and of what shares its beat (R22, R80, R116, R197). -/
def linesReady (b : Block) (x : Txn) : Nat :=
  let i := portIssuer x.org
  let left := min (x.total - x.issuedLines) (issueQuota b i)
  if x.op = .rd then min left (returnRoom b x i)
  else if x.mismatch then 0
  else
    let upto := min x.total (linesCome b x)
    ((List.range' x.issuedLines left).takeWhile (fun n =>
      decide (n < upto) && (List.range' upto (x.total - upto)).all (fun m => !sharesBeat b x n m))).length

/-- Lines of an on-chip linear request issue (R86, R88). A line with no enabled byte and no poison takes no operation; its latency
still counts (R116). -/
def issueLinear (b : Block) (x : Txn) : Block :=
  let seam := x.seam.getD 0
  let n := linesReady b x
  let lines := ((reqLines x.req).drop x.issuedLines).take n
  let i := portIssuer x.org
  let fmt := if x.op = .red then redFmt (reqRedop x.req) else (seamOf b seam).format
  let kind := match x.op with | .rd => LKind.read | .wr => .write | _ => .reduce (reqRedop x.req)
  let mk := lines.zipIdx.map (fun e =>
    let (d, be, wp) := if x.op = .rd then (0, 0, 0) else lineOfBeats (reqWidth x) x.req x.wbeats e.1
    ((be, wp, e.1), fun s => { mkOp b x i kind seam fmt e.1 (x.issuedLines + e.2) d be wp s with pair := spinePair b x (x.issuedLines + e.2) }))
  let live (e : LineMask × WordMask × Nat) : Bool := x.op == .rd || e.1 != 0 || e.2.1 != 0
  let idle := mk.filter (fun e => !live e.1)
  let far := idle.foldl (fun m e =>
    let l := locOf b.build (seamOf b seam) e.1.2.2
    max m (writeLat x.org l.ch (l.bank / 8) (x.op == .red))) x.far
  let b := setTxn b x.uid (fun x => { x with issuedLines := x.issuedLines + idle.length, lineAcks := x.lineAcks + idle.length, far := far })
  setTxn (issueFor b x i ((mk.filter (fun e => live e.1)).map (·.2)) true) x.uid finishTxn

/-- A class-0 request to S0 is unowned (R272): it counts at the port it entered by, or, from another instance, at X0 of channel 0
(DESIGN CHOICE, log 84). -/
def noteSump (b : Block) (x : Txn) (lines : Nat) : Block :=
  let (ch, src) := match x.org with | .loc p => (p.ch, portCode p.port) | .remote _ _ _ => (0, 8)
  if x.req.cls = 0 then
    setChan (count b 0x16 { ch := ch, port := src } lines) ch (fun c => { c with unownCnt := fixedAdd b c.unownCnt src lines })
  else b

/-- A request to the sump window or to another instance sends its path transfers once it holds all its write data, or has reserved
room for all its read data (R27, R80, R111, R197). -/
def issueFar (b : Block) (x : Txn) : Block :=
  let lines := if x.op.isRange then (reqLines x.req).length else 1
  let i := portIssuer x.org
  if x.issuedLines = 1 ∨ (x.op.hasData = true ∧ (x.gotLast = false ∨ b.now ≤ x.lastAt)) then b
  else if x.mismatch then setTxn b x.uid (fun x => answerTxn .unsup (x.lastAt + 1) x)
  else if x.op = .rd ∧ isRemote x.org = false ∧ returnRoom b x i < lines then b
  else
    let toInst := decide (instOf x.req.addr ≠ b.cw.instNum)
    let beats := (lines + 1) / 2
    let per := if x.req.cls = 0 then 1 else 2
    let goal : PathId := if toInst then .brCw else .brS0
    let pl : Payload := if toInst then .inst x.uid else .sump x.uid
    let b := setTxn b x.uid (fun x => { x with issuedLines := 1 })
    let b := if toInst then b else noteSump b x lines
    (List.range ((beats + per - 1) / per)).foldl (fun b k =>
      let n := min per (beats - k * per)
      match x.org with
      | .loc p => addXfer b (.x0e p.ch) [goal] (portCode p.port) x.org x.req.cls.toNat x.req.qos.toNat x.req.ctx.toNat (b.now + 1) n pl
      | .remote _ _ _ => addXfer b goal [] 8 x.org x.req.cls.toNat x.req.qos.toNat x.req.ctx.toNat (b.now + 1) n pl) b

/-- A request leaves its waits and starts (R86, R253, R273). -/
def startGo (b : Block) (x : Txn) : Block :=
  let b := setTxn b x.uid (fun x => { x with phase := .active, stallUs := none, autoWake := false })
  let far := !onChip b x
  let x := { x with phase := .active, stallUs := none, autoWake := false }
  if far then issueFar (setTxn b x.uid (fun x => { x with total := 1 })) { x with total := 1 }
  else if x.op.isTally then tallyStart (setTxn b x.uid (fun _ => x)) x
  else if x.op.isDesc then
    let ch := chanAt b (x.seam.getD 0) (localOf x.req.addr)
    if isX0 x ch = true then
      match x.org with
      | .loc p => addXfer b (.x0e p.ch) [.brX0 ch] (portCode p.port) x.org x.req.cls.toNat x.req.qos.toNat x.req.ctx.toNat
          (b.now + 1) 1 (.desc x.uid)
      | .remote _ _ _ => addXfer b (.brX0 ch) [] 8 x.org x.req.cls.toNat x.req.qos.toNat x.req.ctx.toNat (b.now + 1) 1 (.desc x.uid)
    else queueDesc b x ch b.now
  else
    let n := (reqLines x.req).length
    issueLinear (setTxn b x.uid (fun x => { x with total := n })) { x with total := n }

/-- Why a request waits. -/
def waitFor (b : Block) (uid : Nat) (h : Hold) : Block := setTxn b uid (fun x => { x with phase := .waiting h })

/-- A request that has passed its lock check starts, once order, fences and power let it (R100, R102, R106, R355). -/
def startPast (b : Block) (x : Txn) : Block :=
  if orderHeld b x then waitFor b x.uid .sameBlock
  else if fenceHeld b x then waitFor b x.uid .fence
  else if onChip b x = false then startGo b x
  else
    let seam := x.seam.getD 0
    let l := locOf b.build (seamOf b seam) (localOf x.req.addr / 128)
    let owned := isOwned b x.req.cls.toNat seam l.ch (l.bank / 8) x.org
    match chanHold b x.org owned l.ch with
    | some h => waitFor b x.uid h
    | none => match accessChan b l.ch x.req.wake with
      | (b, .asleep) => answer b x.uid .asleep (b.now + 1)
      | (b, .waking) => setTxn b x.uid (fun x => { x with phase := .waiting .power, autoWake := true })
      | (b, .go) => startGo b x

/-- The target channel sleeps, the request wakes nothing, and no handshake or recovery holds it there (R97, R366). -/
def findsAsleep (b : Block) (x : Txn) : Bool :=
  onChip b x && !x.req.wake && (
    let seam := x.seam.getD 0
    let l := locOf b.build (seamOf b seam) (localOf x.req.addr / 128)
    chPower b l.ch == .sleep && (chanHold b x.org (isOwned b x.req.cls.toNat seam l.ch (l.bank / 8) x.org) l.ch).isNone)

/-- A request that waits is looked at again, in the order of R97 and R100: wrong beats, a target that sleeps, its class limit, and then its
lock check, which is made once (R258, R260): it goes on, stalls, or is answered. A FENCE waits for no class limit, though it counts
against the limit of the requests behind it (DESIGN CHOICE, log 88). -/
def startTxn (b : Block) (x : Txn) : Block :=
  if x.op = .fence then b
  else if x.mismatch && x.gotLast then answer b x.uid .unsup (max (b.now + 1) (x.lastAt + 1))
  else if findsAsleep b x then answer b x.uid .asleep (b.now + 1)
  else if classHeld b x then waitFor b x.uid .classLimit
  else if x.op.isRange && onChip b x && !x.unlocked then
    match lockCheck b x.org x.req.ctx.toNat x.req.ff (reqLines x.req) with
    | .leaseLost => answer b x.uid .leaseLost (b.now + 1)
    | .locked => answer b x.uid .locked (b.now + 1)
    | .stall => setTxn b x.uid (fun x => { x with phase := .waiting .tally, stallUs := some (x.stallUs.getD (usNow b)), stallLine := localOf x.req.addr / 128 })
    | .free => startPast (setTxn b x.uid (fun x => { x with unlocked := true, stallUs := none })) { x with unlocked := true, stallUs := none }
  else startPast b x

/-- Whatever an outstanding request can do now. -/
def tryStart (b : Block) (uid : Nat) : Block :=
  match txnOf b uid with
  | none => b
  | some x =>
    match x.phase with
    | .waiting .decode => b
    | .waiting _ => startTxn b x
    | .active =>
      if onChip b x = false then issueFar b x
      else if x.op.isRange ∧ x.issuedLines < x.total then
        let l := locOf b.build (seamOf b (x.seam.getD 0)) (localOf x.req.addr / 128)
        if chFrozen b l.ch then b else issueLinear b x
      else if x.op.isDesc then descRun b uid
      else b
    | .answered _ => match descOf b uid with
      | some d => if d.stage = .expanding then issuedDesc b d else b
      | none => b
    | _ => b

/-- The gather operations among the requests, in the order in which their units grant them (R112, R177): class 0 first, then higher
QOS, then round robin over the sources. -/
def gatherOrder (b : Block) : List Nat :=
  let g := b.txns.filterMap (fun x => (b.descs.find? (fun d => d.uid == x.uid && d.lane == 8)).map (fun d => (x, d.ch)))
  let key (e : Txn × Nat) : Nat :=
    let src := (descIssuer e.1 e.2).src
    let rr := (src + 15 - ((chan b e.2).gatherLast.getD 15)) % 16
    ((if e.1.req.cls = 0 then 0 else 1) * 16 + (15 - rankQos e.1.req.cls.toNat e.1.req.qos.toNat)) * 16 + rr
  (sortBy key g).map (fun e => e.1.uid)

/-- The places that `p` marks in a list, filled with other elements in their order. -/
def refill (p : Nat → Bool) : List Nat → List Nat → List Nat
  | [], _ => []
  | u :: l, fill => if p u then (match fill with | v :: fill => v :: refill p l fill | [] => u :: refill p l []) else u :: refill p l fill

/-- The request whose response its port is in the middle of: what its beats leave in the return buffer is its own (log 32). -/
def inProgress (b : Block) (u : Nat) : Bool := b.outs.any (fun e => e.2.current == some u)

/-- Every outstanding request is looked at again, in acceptance order, behind the responses in progress; the gather operations among them
in their own. -/
def pump (b : Block) : Block :=
  let g := gatherOrder b
  let l := refill (fun u => g.contains u) (b.txns.map (fun x => x.uid)) g
  (l.filter (inProgress b) ++ l.filter (fun u => !inProgress b u)).foldl (fun b u => tryStart b u) b


/-! Acceptance. -/

/-- The port takes a request beat (R78, R79, R100, R362); D0 none from the cycle after its halt (R228). -/
def canAccept (b : Block) (p : PortId) : Bool :=
  isReady b && decide (b.power.inst ≠ .off) && !b.safety.clkHeld && !b.safety.portsStopped && !b.bring.wipeHold
    && decide ((portTxns b p).length < 256)
    && !(decide (p.port = .D0) && (chan b p.ch).dmaHalt && decide ((chan b p.ch).haltAt < b.now))

/-- A request wakes its port: an idle channel returns to Run, and Deep sleep becomes Sleep (R366, R367). -/
def acceptWake (b : Block) (p : PortId) (wake : Bool) : Block :=
  let src := if wake then 1 else 2
  match b.power.inst with
  | .deep =>
    wakeDeep b src wake
  | _ => if chPower b p.ch = .idle then runChan b p.ch src else b

/-- The context check at acceptance (R98). -/
def ctxOpen (b : Block) (ctx : Nat) (shift : BitVec 8) : Bool :=
  let c := ctxOf b ctx
  c.state == .open && !c.faulted && c.shift == shift

/-- What decode makes of a request of this instance (R68, R85, R148, R250, R270). -/
inductive Decode where
  | seam (n : Nat)
  | unsup
  | fails (code : Nat)
  deriving DecidableEq, Repr

def decodeReq (b : Block) (o : Op) (r : ReqBeat) : Decode :=
  let (lo, hi) := decodeBytes o r
  match decodeRange b.seams lo hi r.ctx.toNat with
  | .error c => .fails c
  | .ok n =>
    let s := seamOf b n
    if s.sump && (o.isDesc || o.isTally || o == .red) then .unsup
    else if o = .red ∧ s.format ≠ 0 ∧ s.format ≠ redFmt (reqRedop r) then .unsup
    else .seam n

/-- The number of the next request: above every number in use. -/
def freshUid (b : Block) : Nat :=
  b.descs.foldl (fun m d => max m d.uid) (b.txns.foldl (fun m x => max m x.uid) b.serial) + 1

/-- A fresh outstanding request (R70, R100). -/
def newTxn (b : Block) (uid : Nat) (org : Origin) (o : Op) (r : ReqBeat) : Txn :=
  { uid := uid, org := org, op := o, req := r, acceptedAt := b.now, age := 0, autoWake := false, hung := false,
    phase := .waiting .decode, seam := none, due := 0, wbeats := [], beatAt := [], gotLast := false, lastAt := b.now, mismatch := false,
    issuedLines := 0, results := [], lineAcks := 0, far := 0, total := 0, beats := 0, beatsOut := 0, rejected := false, failed := none,
    stallUs := none, stallLine := 0, unlocked := false, waitReported := false, half := [] }

/-- The reserved operation code that a request beat carries in place of its row's, if it does (R83; log 65). -/
def reservedCode (r : ReqBeat) : Option (BitVec 5) := r.rsv.filter (fun c => (opOfCode c.toNat).isNone)

/-- The checks that the accepting port makes on a request beat: the context, then the beat (R98, R99). A tally operation names a line
of this instance (R251). What passes is decoded in the next cycle. -/
def judge (b : Block) (p : Port) (o : Op) (r : ReqBeat) (x : Txn) : Txn :=
  let done (st : Status) : Txn := { x with phase := .answered st, due := b.now + 2 }
  if ctxOpen b r.ctx.toNat r.shift = false then done .aborted
  else if (reservedCode r).isSome || !beatOk p o r then done .unsup
  else if o = .fence then { x with phase := .waiting .fence }
  else if o.isTally ∧ instOf r.addr ≠ b.cw.instNum then done .unsup
  else x

/-- The decode cycle of a request, the one after its acceptance (R54, R68, R100). An address of another instance is decoded there. -/
def decodeTxn (b : Block) (x : Txn) : Block :=
  if instOf x.req.addr ≠ b.cw.instNum then waitFor b x.uid .none
  else match decodeReq b x.op x.req with
    | .unsup => answer b x.uid .unsup (b.now + 1)
    | .fails c => failDecode b x c
    | .seam n => setTxn b x.uid (fun x => { x with phase := .waiting .none, seam := some n })
def decodeAll (b : Block) : Block :=
  (b.txns.filter (fun x => decide (x.phase = .waiting .decode) && decide (x.acceptedAt < b.now))).foldl decodeTxn b

/-- Counters, trace and triggers of an accepted request (R444, R449, R455). -/
def acceptTaps (b : Block) (p : PortId) (o : Op) (r : ReqBeat) : Block :=
  let t : Tap := { ch := p.ch, port := portCode p.port, cls := r.cls.toNat, ctx := r.ctx.toNat }
  let b := count b 0x02 t 1
  let b := trace b 3 (match reservedCode r with | some c => c.toNat | none => o.code) t (some r.addr.toNat)
    (put 0 48 r.addr.toNat ||| put 48 8 r.id.toNat ||| put 56 3 r.cls.toNat ||| put 59 4 r.qos.toNat)
  let due := b.obs.trcState == .armed && fld b.obs.trcTrig 60 3 == 4 && filtPass b.obs t && addrPass b.obs r.addr.toNat
  { b with obs := { b.obs with trigDue := b.obs.trigDue || due } }

/-- A request beat transfers at a port: the request is outstanding and its beat is judged. A beat that the
port does not take this cycle counts as blocked (R444); a port takes one beat in a cycle (R78). -/
def acceptReq (b : Block) (p : PortId) (o : Op) (r : ReqBeat) : Block :=
  if b.now < (outOf b p).reqFree then b
  else if canAccept b p then
    let b := acceptTaps (acceptWake b p r.wake) p o r
    let uid := freshUid b
    let x := judge b p.port o r (newTxn b uid (.loc p) o r)
    let b := setOut b p { outOf b p with reqFree := b.now + 1 }
    { b with serial := uid, txns := b.txns ++ [x] }
  else if isReady b && b.power.inst == .on then count b 0x07 { ch := p.ch, port := portCode p.port } 1
  else b

/-! Write data. -/

/-- The number of write data beats a request should have, where it is known (R87, R89, R141, R174). -/
def beatsDue (x : Txn) : Option Nat :=
  if x.op.isRange then some (beatCount (reqWidth x) (localOf x.req.addr) (reqBytes x.req))
  else if x.beats = 0 then none else some x.beats

/-- A RED beat breaks the element rule of R84 in some line it holds. -/
def beatBreaksRed (x : Txn) (k : Nat) (t : WBeat) : Bool :=
  let w := reqWidth x
  let a := localOf x.req.addr
  x.op == .red && (List.range (w / 128)).any (fun h =>
    let line := (a / w + k) * w / 128 + h
    !elementsWhole (redBytes (reqRedop x.req)) (t.be.extractLsb' (h * 128) 128 &&& rangeMask x.req line))

/-- A write data beat joins its request, or is accepted and discarded (R88 to R91). -/
def takeBeat (expect : Option Nat) (now : Nat) (t : WBeat) (x : Txn) : Txn :=
  let k := x.wbeats.length
  let bad := match expect with | some e => decide ((k + 1 = e) ≠ (t.last = true)) | none => false
  let drop := x.mismatch || bad || beatBreaksRed x k t || (match x.phase with | .answered _ => true | .decodeHeld _ => true | .swept => true | _ => false)
  let x := { x with mismatch := x.mismatch || bad || beatBreaksRed x k t
                    wbeats := if drop then x.wbeats else x.wbeats ++ [t]
                    beatAt := if drop then x.beatAt else x.beatAt ++ [now] }
  if t.last then
    let x := { x with gotLast := true, lastAt := now }
    match x.phase with
    | .answered _ => { x with due := max x.due (now + 1) }
    | _ => x
  else x

/-- A request that is answered without being performed, when its beats turn out wrong: UNSUP goes before every status but ABORTED
(R91, R97, R99). -/
def beatsWrong (x : Txn) : Txn :=
  match x.phase with
  | .answered .aborted => x
  | .answered _ => if x.mismatch then { x with phase := .answered .unsup } else x
  | _ => x

/-- CLK_PORT runs at a port (R42). -/
def portClk (b : Block) (p : PortId) : Bool := isReady b && b.power.inst == .on && !b.safety.clkHeld && portsRun b p.ch

/-- WDAT_BEAT: the beat belongs to the oldest request of the port that still owes data (R89); one transfers in a cycle (R78), none from a
REF_AON fault on (R416). -/
def writeBeat (b : Block) (p : PortId) (t : WBeat) : Block :=
  if portClk b p = false ∨ b.safety.portsStopped = true ∨ p.port = .I0 ∨ b.now < (outOf b p).wdatFree then b
  else match (portTxns b p).find? (fun x => x.op.hasData && !x.gotLast) with
    | none => b
    | some x =>
      let b := setOut b p { outOf b p with wdatFree := b.now + 1 }
      setTxn b x.uid (fun y => finishTxn (beatsWrong (takeBeat (beatsDue x) b.now t y)))

/-! Read beats. -/

/-- A beat on its way out. -/
structure Beat where
  data : BitVec 2048
  pm : BitVec 32
  coll : Bool
  st : Status
  last : Bool
  deriving DecidableEq, Repr

/-- Beats of a read response that performs (R87, R141, R174); 0 while a descriptor read's count is not known. -/
def readBeats (x : Txn) : Nat :=
  if x.op = .rd then beatCount (reqWidth x) (localOf x.req.addr) (reqBytes x.req) else x.beats

/-- The data of marked words is 0 (R94). -/
def maskData (pm : BitVec 32) (d : BitVec 2048) : BitVec 2048 :=
  (List.range 32).foldl (fun acc k => if bit pm k then acc &&& ~~~(0xFFFFFFFFFFFFFFFF#2048 <<< (64 * k)) else acc) d

/-- POISON on a beat, TRAP on I0 (R227). -/
def poisonStatus (o : Origin) : Status := match o with | .loc ⟨_, .I0⟩ => .trap | _ => .poison

/-- Bits of a line that lie in the byte range [lo, hi) of the local address space, as a byte mask. -/
def lineClip (line lo hi : Nat) : LineMask := bytesOf (fun k => decide (lo ≤ line * 128 + k) && decide (line * 128 + k < hi))

/-- The local bytes that the next beat of a linear read carries: from its first lane on, and of its range (R87). -/
def beatRange (x : Txn) : Nat × Nat × Nat :=
  let w := reqWidth x
  let a := localOf x.req.addr
  let base := (a / w + x.beatsOut) * w
  (base, max a base, min (a + reqBytes x.req) (base + w))

/-- The result of each line that the next beat of a linear read carries, where it has come back. -/
def beatResults (x : Txn) : List (Nat × Option LineRes) :=
  let (_, lo, hi) := beatRange x
  (List.range ((hi - 1) / 128 - lo / 128 + 1)).map (fun i => (lo / 128 + i, lineOfNo x.results (lo / 128 + i - localOf x.req.addr / 128)))

/-- The marks of a 256 B beat as the lanes of a port's beat from local address `base` on carry them. -/
def givenWords (base : Nat) (r : LineRes) : BitVec 32 := match r.given with | some pm => pm >>> (base % 256 / 8) | none => 0

/-- The next beat of a linear read (R87, R92, R116): the array's words are marked within the range, what S0 or another instance gave stays
(R277). -/
def linearBeat (x : Txn) : Beat :=
  let w := reqWidth x
  let (base, lo, hi) := beatRange x
  let parts := (beatResults x).filterMap (fun g => g.2.map (fun r => (g.1, r)))
  let data := parts.foldl (fun acc g =>
    let d := g.2.data &&& spread (lineClip g.1 lo hi)
    if g.1 * 128 < base then acc ||| (d >>> (8 * (base - g.1 * 128))).setWidth 2048
    else acc ||| (d.setWidth 2048 <<< (8 * (g.1 * 128 - base)))) 0
  let words (m : LineRes → WordMask) (parts : List (Nat × LineRes)) : BitVec 32 := parts.foldl (fun acc g =>
    let v := m g.2 &&& wordsOf (wordAny (lineClip g.1 lo hi))
    if g.1 * 128 < base then acc ||| (v >>> ((base - g.1 * 128) / 8)).setWidth 32
    else acc ||| (v.setWidth 32 <<< ((g.1 * 128 - base) / 8))) 0
  let narrow := BitVec.ofNat 2048 (2 ^ (8 * w) - 1)
  let laneWords := BitVec.ofNat 32 (2 ^ (w / 8) - 1)
  let own := words (fun r => r.pm) (parts.filter (fun g => g.2.given.isNone)) &&& laneWords
  let pm := own ||| (parts.foldl (fun acc g => acc ||| givenWords base g.2) 0 &&& laneWords)
  let err := parts.any (fun g => g.2.st == .sumpErr)
  let marked := own != 0 || parts.any (fun g => g.2.given.isSome && g.2.st == .poison)
  { data := maskData pm (data &&& narrow), pm := pm, coll := words (fun r => r.coll) parts != 0,
    st := if err then .sumpErr else if marked then poisonStatus x.org else .okay
    last := decide (x.beatsOut + 1 = readBeats x) }

/-- The 128 B pieces of a descriptor read of another instance that its next beat carries, in order (R300). -/
def peerPieces (x : Txn) : List Nat := List.range' (x.beatsOut * (reqWidth x / 128)) (reqWidth x / 128)

/-- The next beat of a descriptor read that another instance performs. -/
def peerBeat (x : Txn) : BitVec 2048 × BitVec 32 × Bool :=
  (peerPieces x).zipIdx.foldl (fun acc e => match lineOfNo x.results e.1 with
    | none => acc
    | some r => (acc.1 ||| (r.data.setWidth 2048 <<< (1024 * e.2)), acc.2.1 ||| (r.pm.setWidth 32 <<< (16 * e.2)), acc.2.2 || r.coll != 0))
    (0, 0, false)

/-- Every line that the next beat of a read needs is ready (R116, R143, R178). The pieces that another instance sends are known to
be all once the last has come. -/
def beatReady (b : Block) (x : Txn) : Bool :=
  let here (r : Option LineRes) : Bool := r.any (fun r => decide (r.due ≤ b.now))
  if x.op = .rd then (beatResults x).all (fun g => here g.2)
  else match descOf b x.uid with
    | some d => d.stage != .queued && d.stage != .fetching && d.stage != .ready && descBeatReady b x d x.beatsOut
    | none =>
      let l := peerPieces x
      let n := x.beats * (reqWidth x / 128)
      let more := x.beats != 0 || x.results.any (fun r => l.all (fun k => decide (k < r.no)))
      instOf x.req.addr != b.cw.instNum && more && here (lineOfNo x.results (l.headD 0))
        && l.all (fun k => here (lineOfNo x.results k) || (decide (n ≤ k + reqWidth x / 128) && x.beats != 0 && (lineOfNo x.results k).isNone))

/-- The next beat of a descriptor read (R141, R174). -/
def packedBeat (b : Block) (x : Txn) : Beat :=
  let (d, pm, co) := match descOf b x.uid with | some e => descBeat x e x.beatsOut | none => peerBeat x
  { data := maskData pm d, pm := pm, coll := co, st := if pm = 0 then .okay else poisonStatus x.org, last := decide (x.beatsOut + 1 = readBeats x) }

/-- A beat of the request is due: of its data, or of a whole-request answer. -/
def nextReady (b : Block) (x : Txn) : Bool :=
  match x.phase with
  | .answered _ => decide (x.due ≤ b.now)
  | .active => beatReady b x
  | _ => false

/-- The next beat of a read-side request, once it is due: a whole-request answer is one beat, or, once beats have been
presented, every beat that remains, marked (R94, R175, R384). -/
def nextBeat (b : Block) (x : Txn) : Beat :=
  match x.phase with
  | .answered st =>
    if x.beatsOut = 0 then { data := 0, pm := 0, coll := false, st := st, last := true }
    else { data := 0, pm := BitVec.ofNat 32 (2 ^ (reqWidth x / 8) - 1), coll := false, st := st, last := decide (readBeats x ≤ x.beatsOut + 1) }
  | _ => if x.op = .rd then linearBeat x else packedBeat b x

/-- The response may be presented: no earlier request of its port with its ID and target is still to be answered on
the same channel (R101). -/
def respTurn (b : Block) (x : Txn) : Bool :=
  !b.txns.any (fun y => decide (y.uid < x.uid) && decide (y.org = x.org) && y.req.id == x.req.id
    && onReadChan y == onReadChan x && targetOf b y == targetOf b x)

/-- The request leaves: its place is free, and its channel's idle time starts anew (R100, R354). -/
def retire (b : Block) (x : Txn) : Block :=
  dropTxn (dropDesc b x.uid) x.uid

/-- Counters and trace of a response (R444, R449). -/
def respTaps (b : Block) (p : PortId) (x : Txn) (st : Status) (done : Bool) : Block :=
  let t : Tap := { ch := p.ch, port := portCode p.port, cls := x.req.cls.toNat, ctx := x.req.ctx.toNat }
  let lat := b.now - x.acceptedAt
  let b := if done then count b 0x03 t 1 else b
  let b := if x.beatsOut = 0 then count b 0x04 t lat else b
  if st = .okay then b
  else
    let b := count b 0x08 t 1
    trace b 5 st.code t (some x.req.addr.toNat)
      (put 0 8 x.req.id.toNat ||| put 8 8 x.req.shift.toNat ||| put 16 16 (min 65535 lat))

/-- D0 halts on the first POISON beat it presents (R228). -/
def haltD0 (b : Block) (p : PortId) (x : Txn) (st : Status) : Block :=
  if p.port = .D0 ∧ st = .poison ∧ (chan b p.ch).dmaHalt = false then
    emit (setChan b p.ch (fun c => { c with dmaHalt := true, haltAt := b.now })) 0x23 (some p.ch) (some (x.req.ctx.toNat, x.req.shift))
      (put 0 48 x.req.addr.toNat) (put 0 8 x.req.id.toNat)
  else b

/-- The next beat of a request as its port shows it (R95). -/
def beatOut (b : Block) (x : Txn) : RBeat :=
  let t := nextBeat b x
  { id := x.req.id, data := t.data, pmask := t.pm, coll := t.coll, status := t.st, shift := x.req.shift, last := t.last }

/-- The first of the read responses that a port may present next, of those that `p` picks: the one in progress, else one whose turn
it is (R95, R101). -/
def offers (b : Block) (p : PortId) (q : Txn → Bool) : Option Txn :=
  match (outOf b p).current with
  | some u => (portTxns b p).find? (fun x => x.uid == u && q x && nextReady b x)
  | none => (portTxns b p).find? (fun x => onReadChan x && q x && respTurn b x && nextReady b x)

/-- A beat transfers: the port shows it, and the last one ends the request's place (R92, R95, R100). It was presented in an earlier
cycle (`held`), or is now, which halts D0 on a POISON beat (R228). -/
def showBeat (b : Block) (p : PortId) (x : Txn) (t : RBeat) (held : Bool) : Block :=
  let o := outOf b p
  let b := setOut b p { o with rdat := some t, rdatAt := b.now, rdatHeld := none, current := if t.last then none else some x.uid }
  let b := respTaps b p x t.status t.last
  let b := if held then b else haltD0 b p x t.status
  if t.last then retire b x else setTxn b x.uid (fun x => { x with beatsOut := x.beatsOut + 1 })

/-- RDAT_BEAT: the beat that stands presented, else one that is presented now; its payload does not change until it transfers (R78,
R95, R101). One beat transfers in a cycle. -/
def readBeat (b : Block) (p : PortId) (id : BitVec 8) : Block :=
  let o := outOf b p
  if portClk b p = false ∨ (o.rdat.isSome ∧ o.rdatAt = b.now) then b
  else match o.rdatHeld with
    | some (u, t) => if t.id = id then match txnOf b u with
        | some x => showBeat b p x t true
        | none => setOut b p { o with rdat := some t, rdatAt := b.now, rdatHeld := none, current := none }
      else b
    | none => match offers b p (fun x => x.req.id == id) with
      | some x => showBeat b p x (beatOut b x) false
      | none => b

/-! Write responses. -/

/-- The write response of a request is ready (R90, R93, R502). -/
def wrspReady (b : Block) (x : Txn) : Option Status :=
  match x.phase with
  | .answered st => if !onReadChan x && decide (x.due ≤ b.now) && (!x.op.hasData || x.gotLast) && respTurn b x then some st else none
  | _ => none

/-- WRSP_TRANSFER (R78, R93, R100): the response that stands presented comes first; a FENCE's or a write's place ends; a FENCE releases what it held. -/
def writeResp (b : Block) (p : PortId) (id : BitVec 8) : Block :=
  let held := (outOf b p).wrspHeld
  match (portTxns b p).find? (fun x => x.req.id == id && (wrspReady b x).isSome && (held.isNone || held == some x.uid)) with
  | none => b
  | some x => match wrspReady b x with
    | none => b
    | some st =>
      let o := outOf b p
      if portClk b p = false ∨ (o.wrsp.isSome ∧ o.wrspAt = b.now) then b else
      let b := setOut b p { o with wrspAt := b.now, wrspHeld := none, wrsp := some { id := x.req.id, status := st, shift := x.req.shift } }
      retire (respTaps b p x st true) x

/-- The first beat of the request's response is presented, or has been (R70): it stands ready at its port and its turn has come, also
while the port still shows the beats of another request, as in the example of R463, where reads 1 to 32 of a port whose
initiator takes nothing are presented and their ages stop. -/
def presented (b : Block) (x : Txn) : Bool :=
  decide (x.beatsOut ≠ 0) || (wrspReady b x).isSome || (onReadChan x && respTurn b x && nextReady b x)

/-- What a port shows in this cycle: the response that stands, else the first that it may present. -/
def shownRead (b : Block) (p : PortId) : Option (Nat × RBeat) :=
  let o := outOf b p
  if o.rdat.isSome ∧ o.rdatAt = b.now then none
  else match o.rdatHeld with
    | some e => some e
    | none => (offers b p (fun _ => true)).map (fun x => (x.uid, beatOut b x))
def shownWrite (b : Block) (p : PortId) : Option Nat :=
  let o := outOf b p
  if o.wrsp.isSome ∧ o.wrspAt = b.now then none
  else match o.wrspHeld with
    | some u => some u
    | none => ((portTxns b p).find? (fun x => (wrspReady b x).isSome)).map (fun x => x.uid)

/-- The response of an operation to S0 or to another instance has arrived at its port (R107). -/
def farArrived (b : Block) (x : Txn) : Bool :=
  !onChip b x && match x.phase with
    | .answered _ => decide (x.due ≤ b.now)
    | .active => x.op.isRead && x.results.all (fun r => decide (r.due ≤ b.now))
        && (if x.op = .rd then x.results.length == (reqLines x.req).length else x.beats != 0)
    | _ => false

/-- An earlier operation has finished, as its FENCE's port sees it (R106, R107): its final response is presented, or, from S0 or
another instance, has arrived. -/
def opFinished (b : Block) (y : Txn) : Bool :=
  farArrived b y || match y.org with
    | .loc p => if onReadChan y then (shownRead b p).any (fun e => e.1 == y.uid && e.2.last) else shownWrite b p == some y.uid
    | .remote _ _ _ => false

/-- A line operation of an earlier descriptor operation has yet to be performed (R106). -/
def descWork (b : Block) (f : Txn) : Bool :=
  let mine (op : LineOp) : Bool := op.desc && op.stage != .ret && decide (op.uid < f.uid) && op.ctx == f.req.ctx.toNat && inScope f op.org
  b.ops.any mine || b.xfers.any (fun x => match x.payload with | .lines l => l.any mine | _ => false)

/-- FENCE_COMPLETE (R106, R107): every earlier operation in scope has finished. -/
def fenceDone (b : Block) (f : Txn) : Bool :=
  !descWork b f && !b.txns.any (fun y => decide (y.uid ≠ f.uid) && y.req.ctx == f.req.ctx && inScope f y.org && !opFinished b y
    && (decide (y.acceptedAt < f.acceptedAt) || (y.op == .fence && decide (y.uid < f.uid))))

/-- The FENCE of this port and ID that waits, oldest first, is answered when it is done. -/
def fenceComplete (b : Block) (p : PortId) (id : BitVec 8) : Block :=
  match (portTxns b p).find? (fun x => x.op == .fence && x.req.id == id && x.phase == .waiting .fence) with
  | none => b
  | some f => if fenceDone b f then answer b f.uid .okay (max (b.now + 1) (f.acceptedAt + 2)) else b

end Sys2Proof.Machine
end

