-- ==== Sys2Proof/Machine/Banks.lean ====
section
/-! DEFINITION. Bank slots: reading and writing array lines under the word code (R222 to R229, R242), bank retirement
triggers (R244, R248), and the roster arbiter's choice among the operations that wait for a bank (R109, R110, R194 to
R205). -/

namespace Sys2Proof.Machine

/-! Stored lines. -/

/-- The physical bank that serves a bank number: a spare that has taken it, else the bank itself (R20). -/
def physBank (c : Channel) (bank : Nat) : Nat :=
  let serves (st k : Nat) : Bool := (st == 1 || st == 2) && k == bank
  if serves c.spare.s0State c.spare.s0Bank then 64 else if serves c.spare.s1State c.spare.s1Bank then 65 else bank

/-- The physical row of a physical bank: a fused row lies in its redundant row (R242), by the first entry that names it (R243). -/
def physRow (b : Block) (ch pb row : Nat) : Nat :=
  match leastBy (fun f => f.entry) (b.bring.rowFuse.filter (fun f => f.ch == ch && f.bank == pb && f.row == row)) with
  | some f => linesPerBank b.build + f.redundant
  | none => row

/-- The key of a physical bank's line, and of the line that serves a bank number. -/
def storeKey (b : Block) (ch pb row : Nat) : Nat := lineKey ch pb (physRow b ch pb row)
def servedKey (b : Block) (ch bank row : Nat) : Nat := storeKey b ch (physBank (chan b ch) bank) row

/-- The 16 words of a stored line, decoded (R223). -/
def rawLine (m : Memory) (key : Nat) : List Decoded :=
  (List.range 16).map (fun k => let w := readWord m (key + 16 * k); eccDecode w.1 w.2)

/-- A word that decodes clean, of value 0: what a zero line reads as. -/
def cleanZero : Decoded := { syn := 0, q := false, verdict := .clean, data := 0 }

def Decoded.bad (d : Decoded) : Bool := d.verdict == .uncorrectable || d.verdict == .poisoned
def wordAt (ds : List Decoded) (k : Nat) : Decoded := ds.getD k cleanZero
def lineData (ds : List Decoded) : LineData := lineOf (fun k => (wordAt ds k).data)
def badWords (ds : List Decoded) : WordMask := wordsOf (fun k => (wordAt ds k).bad)

/-- The stored line of an operation: zeros where a write that cleared its tag has yet to store it (R182), but for an operation that
lies behind a later tag (R183). -/
def opLine (a : Arrays) (b : Block) (op : LineOp) : List Decoded :=
  if b.zeroLines.contains (lineKey op.ch op.bank op.row) && !op.old then List.replicate 16 cleanZero
  else rawLine a.mem (servedKey b op.ch op.bank op.row)

/-- A stored word from its value: poisoned, or data with its check byte (R222, R224). -/
def storeWord (poison : Bool) (d : Word) : Word × Byte := if poison then poisonWord else (d, eccEncode d)

/-- The tag bit of a line set to `v`, with fresh check bits (R181, R182). -/
def setTag (a : Arrays) (ch row bank : Nat) (v : Bool) : Arrays :=
  let d := (tagDecode a ch row).data
  let bitm : Word := 1#64 <<< bank
  let d := if v then d ||| bitm else d &&& ~~~bitm
  { a with tags := writeWord a.tags (tagKey ch row) (d, eccEncode d) }

/-- The tag of a line is stored as 1. -/
def tagged (a : Arrays) (ch bank row : Nat) : Bool := bit (tagDecode a ch row).data bank

/-- The stored words of a line replaced. -/
def putLine (a : Arrays) (b : Block) (ch bank row : Nat) (f : Nat → Word × Byte) : Arrays :=
  { a with mem := writeLine a.mem (servedKey b ch bank row) f }

/-- A line no longer only reads as zeros. -/
def dropClaim (b : Block) (ch bank row : Nat) : Block := { b with zeroLines := b.zeroLines.filter (fun k => k != lineKey ch bank row) }

/-- A write past which the line's tag was set still changes the array while the tag, or a write that has taken its zeros, covers the
line; after that it would undo a later write, and changes nothing (R183, log 11). -/
def coveredLine (a : Arrays) (b : Block) (op : LineOp) : Bool :=
  tagged a op.ch op.bank op.row || b.zeroLines.contains (lineKey op.ch op.bank op.row)

/-- An operation's line written whole; a line that only read as zeros loses its tag. -/
def writeWhole (a : Arrays) (b : Block) (op : LineOp) (f : Nat → Word × Byte) : Arrays × Block :=
  let a1 := putLine a b op.ch op.bank op.row f
  if op.old then (if coveredLine a b op then a1 else a, b)
  else if b.zeroLines.contains (lineKey op.ch op.bank op.row) then (setTag a1 op.ch op.row op.bank false, dropClaim b op.ch op.bank op.row)
  else (a1, b)

/-- `f` on the operations of a block past stage F, at their clusters and on the spines. -/
def mapPastF (b : Block) (f : LineOp → LineOp) : Block :=
  { b with
    ops := b.ops.map (fun o => if o.stage = .fwd then o else f o)
    xfers := b.xfers.map (fun x => match x.path, x.payload with
      | .spine _ _, .lines l => { x with payload := .lines (l.map f) }
      | _, _ => x) }

/-- A zero-line write sets its line's tag: the operations of the line past F lie behind it from now on (R181, R183). A line that only
reads as zeros is stored so first. -/
def tagLine (a : Arrays) (b : Block) (op : LineOp) : Arrays × Block :=
  let a1 := if b.zeroLines.contains (lineKey op.ch op.bank op.row) then putLine a b op.ch op.bank op.row (fun _ => storeWord false 0) else a
  (setTag a1 op.ch op.row op.bank true, mapPastF (dropClaim b op.ch op.bank op.row) (fun o =>
    if o.ch = op.ch ∧ o.bank = op.bank ∧ o.row = op.row then { o with old := true } else o))

/-- The stored words that a write leaves: poisoned words, words enabled in full, partly enabled words laid over the
stored word, which stay poisoned if it was bad (R152, R224, R235), and words it leaves alone. -/
def mixedWord (data : LineData) (be : LineMask) (wp : WordMask) (old : List Decoded) (k : Nat) : Word × Byte :=
  if bit wp k then poisonWord
  else if wordFull be k then storeWord false (lineWord data k)
  else storeWord (wordAt old k).bad (lineWord (overlay (lineData old) data be) k)

/-- The write of an operation whose words are enabled in full or poisoned (R115): only these words change, unless the
line was a zero line. -/
def writeWords (a : Arrays) (b : Block) (op : LineOp) : Arrays × Block :=
  if b.zeroLines.contains (lineKey op.ch op.bank op.row) && !op.old then
    writeWhole a b op (mixedWord op.data op.be op.wp (List.replicate 16 cleanZero))
  else if op.old && !coveredLine a b op then (a, b)
  else
    let key := servedKey b op.ch op.bank op.row
    let m := (List.range 16).foldl (fun m k =>
      if bit op.wp k || wordAny op.be k then
        writeWord m (key + 16 * k) (storeWord (bit op.wp k) (lineWord (overlay 0 op.data op.be) k))
      else m) a.mem
    ({ a with mem := m }, b)

/-- A turn of the dredge or the repair queue: corrected words are stored corrected, uncorrectable words poisoned (R226). -/
def scrubLine (a : Arrays) (b : Block) (ch bank row : Nat) : Arrays :=
  let key := servedKey b ch bank row
  let ds := rawLine a.mem key
  { a with mem := writeLine a.mem key (fun k => storeWord (wordAt ds k).bad (wordAt ds k).data) }

/-! Retirement triggers (R244, R248). -/

/-- The spare a bank would be retired onto, S0B before S1B (R245). -/
def freeSpare (s : Sparing) : Option Nat := if s.s0State = 0 then some 64 else if s.s1State = 0 then some 65 else none

/-- Sparing of a bank starts with its quiesce, or no spare is left (R245, R248). The dredge skips the bank from now on (R236). -/
def startSparing (a : Arrays) (b : Block) (ch bank : Nat) (cmd : Option Nat) : Block :=
  let s := (chan b ch).spare
  match freeSpare s with
  | some onto =>
    let skip (l : List Nat) : List Nat := l.filter (fun k => k != bank && k != onto)
    let b := setChan b ch (fun c => { c with
      spare := { s with phase := 1, bank := bank, onto := onto, startUs := usNow b, cmd := cmd, row := 0, redo := false, bad := false }
      dredge := { c.dredge with reads := skip c.dredge.reads, turns := skip c.dredge.turns } })
    drainWhere a b ch (fun e => e.bank == bank)
  | none =>
    let b := if s.noSpare.contains bank then b else
      emit (setChan b ch (fun c => { c with spare := { s with noSpare := s.noSpare ++ [bank] } })) 0x27 (some ch) none
        (put 0 6 bank)
    completeIf b cmd cRefused rNoSpare

/-- A trigger: it starts sparing, is held as the one pending, or is ignored (R244); a command that is not taken up is
REFUSED, BUSY (R487). -/
def retireTrigger (a : Arrays) (b : Block) (ch bank : Nat) (cmd : Option Nat) : Block :=
  let s := (chan b ch).spare
  if s.phase = 0 then startSparing a b ch bank cmd
  else if s.bank = bank ∨ s.waiting.isSome then completeIf b cmd cRefused rBusy
  else setChan b ch (fun c => { c with spare := { s with waiting := some { bank := bank, cmd := cmd } } })

/-! What a read of the array notes (R225, R226, R229). -/

/-- Consumers of UE_ERROR (R425). -/
def ueConsumer (k : LKind) : Nat :=
  match k with | .read | .test | .replay => 0 | .desc => 4 | .index => 5 | _ => 1

/-- The repair queue holds the line. -/
def repairHas (c : Channel) (bank row : Nat) : Bool := c.repair.contains (bank, row)

/-- One UE_ERROR record (R229, R425). -/
def ueRecord (b : Block) (ch pb row consumer : Nat) (e : Decoded × Nat) : Block :=
  emit b 0x22 (some ch) none
    (put 0 7 pb ||| put 7 13 row ||| put 20 4 e.2 ||| put 24 7 e.1.syn ||| putBit 31 e.1.q ||| put 32 3 consumer)

/-- A read of a line of bank `bank` (64 and 65 the spares themselves): counts, records, the repair queue and the
retirement triggers. `known` marks a line whose errors are already being put right. DESIGN CHOICE (log 100): the count of the window belongs
to the bank number, and a spare that takes it over goes on with it (R244). -/
def noteRead (a : Arrays) (b : Block) (ch bank row consumer : Nat) (known post : Bool) (ds : List Decoded) : Block :=
  let pb := physBank (chan b ch) bank
  let all := ds.zipIdx
  let ces := (all.filter (fun e => e.1.verdict == .corrected)).length
  let ues := all.filter (fun e => e.1.verdict == .uncorrectable)
  let ps := (all.filter (fun e => e.1.verdict == .poisoned)).length
  if ces = 0 ∧ ues.isEmpty = true ∧ ps = 0 then b
  else
    let held := known || repairHas (chan b ch) bank row
    let fresh := if held then [] else ues
    let t : Tap := { ch := ch, cluster := bank / 8 }
    let lim := fld b.regs.ceCtl 0 16
    let before := (bankOf (chan b ch) bank).ceWin
    let b := setChan b ch (fun c => { c with
      ce := tmod 0 c.ce pb (fun v => satAdd (2 ^ 32 - 1) v ces)
      ue := tmod 0 c.ue pb (fun v => satAdd 65535 v fresh.length)
      poisonRd := satAdd 65535 c.poisonRd ps
      banks := tmod BankSt.init c.banks bank (fun s => { s with ceWin := s.ceWin + ces })
      repair := if post && !held && decide (c.repair.length < 8) && (decide (0 < ces) || !ues.isEmpty) then c.repair ++ [(bank, row)] else c.repair })
    let b := count (count b 0x28 t ces) 0x29 t fresh.length
    let b := fresh.foldl (fun b e => ueRecord b ch pb row consumer e) b
    if 64 ≤ bank then b
    else if (bit b.regs.ceCtl 33 && !fresh.isEmpty)
        || (bit b.regs.ceCtl 32 && decide (lim ≠ 0) && decide (before < lim) && decide (lim ≤ before + ces))
    then retireTrigger a b ch bank none else b

/-! Sparing, row by row (R245, R247). -/

/-- One row copied corrected onto the spare, uncorrectable and poisoned words poisoned (R245). -/
def copyRow (b : Block) (ch src dst : Nat) (m : Memory) (row : Nat) : Memory :=
  let ds := rawLine m (storeKey b ch src row)
  writeLine m (storeKey b ch dst row) (fun k => storeWord (wordAt ds k).bad (wordAt ds k).data)

/-- The bank that holds a sparing's data: the bank itself, or the spare that serves it. -/
def spareSource (b : Block) (ch : Nat) : Nat := physBank (chan b ch) (chan b ch).spare.bank

/-- The reads of a copied or verified row, counted under the bank or spare read (R229). -/
def noteRow (a : Arrays) (b : Block) (ch bank pb row : Nat) : Block :=
  noteRead a b ch (if pb = physBank (chan b ch) bank then bank else pb) row 3 false true (rawLine a.mem (storeKey b ch pb row))

/-- A row differs: its corrected words or its poison. -/
def rowDiffers (x y : List Decoded) : Bool :=
  (List.range 16).any (fun k => (wordAt x k).bad != (wordAt y k).bad || (wordAt x k).data != (wordAt y k).data)
def rowClean (x : List Decoded) : Bool := x.all (fun d => d.verdict == .clean)

/-- A sparing's slot: the next row is copied, or compared with the spare's. A row that differs is copied once more in the bank's next
slot and compared again; where both its copies read clean, the spare has failed. -/
def spareStep (a : Arrays) (b : Block) (ch : Nat) : Arrays × Block :=
  let s := (chan b ch).spare
  let src := spareSource b ch
  let next (b : Block) (f : Sparing → Sparing) : Block := setChan b ch (fun c => { c with spare := f c.spare })
  if linesPerBank b.build ≤ s.row ∨ s.bad = true then (a, b)
  else if s.phase = 2 ∨ s.redo = true then
    ({ a with mem := copyRow b ch src s.onto a.mem s.row },
      next (noteRow a b ch s.bank src s.row) (fun s => if s.redo then { s with redo := false } else { s with row := s.row + 1 }))
  else
    let x := rawLine a.mem (storeKey b ch src s.row)
    let y := rawLine a.mem (storeKey b ch s.onto s.row)
    let b := noteRow a (noteRow a b ch s.bank src s.row) ch s.bank s.onto s.row
    (a, next b (fun s => if rowDiffers x y = false then { s with row := s.row + 1 }
      else if rowClean x && rowClean y then { s with bad := true } else { s with redo := true }))

/-- The line number of (channel, bank, row) in a seam, if it lies in it. -/
def lineIn (b : Block) (s : Seam) (ch bank row : Nat) : Option Nat :=
  let g := row / unitLines s
  match (List.range 64).find? (fun u => hashBank b.build s u g == bank) with
  | none => none
  | some u =>
    let line := (g * 2 ^ (6 + logCh b.build) + ch * 64 + u) * unitLines s + row % unitLines s
    if seamLo s ≤ line * 128 ∧ line * 128 < seamHi s then some line else none

/-- A line operation of the channel sequencer: class 7, of no request (R31, R194). -/
def seqOp (b : Block) (kind : LKind) (ch bank row line seam : Nat) : LineOp :=
  { serial := b.serial + 1, uid := 0, org := .remote 64 0 0, src := 9, cls := 7, qos := 0, ctx := 0, shift := 0, kind := kind,
    ch := ch, bank := bank, row := row, line := line, seam := seam, fmt := 0, no := 0, stage := .bank, readyAt := b.now + 1
    waited := 0, data := 0, be := 0, wp := 0, checked := 0, coll := 0, park := 0, back := 0, id := 0, desc := false, pairX := 0
    pair := 0, reported := false, full := false, noTag := false }

/-- An operation comes to its bank. -/
def postOp (b : Block) (op : LineOp) : Block := { b with serial := b.serial + 1, ops := b.ops ++ [op] }

/-! Tag words that are put right (R186). -/

/-- Tag words with no bank left to poison are written back: corrected, or as 0 with an uncorrectable-error record. -/
def settleTags (a : Arrays) (b : Block) (ch : Nat) : Arrays × Block :=
  ((chan b ch).tagFix.filter (fun e => e.2.isEmpty)).foldl (fun r e =>
    let d := tagDecode r.1 ch e.1
    let lost := d.verdict == .uncorrectable || d.verdict == .poisoned
    let v : Word := if lost then 0 else d.data
    let a := { r.1 with tags := writeWord r.1.tags (tagKey ch e.1) (v, eccEncode v) }
    let b := setChan r.2 ch (fun c => { c with tagFix := c.tagFix.filter (fun f => f.1 != e.1) })
    (a, if lost then emit b 0x22 (some ch) none
      (put 7 13 e.1 ||| put 24 7 d.syn ||| putBit 31 d.q ||| put 32 3 6) else b)) (a, b)

/-! Which slot, and whose. -/

/-- STARVE_LIMIT and STARVE_MODE (R203). -/
def starveLimit (b : Block) : Nat := max 16 (min 4096 (fld b.regs.arbCtl 32 13))
def starveForces (b : Block) : Bool := bit b.regs.arbCtl 0

/-- The banks of a channel run: the block is ready and the channel's CLK_BANK is on (R42, R353). -/
def banksRun (b : Block) (ch : Nat) : Bool :=
  isReady b && b.power.inst == .on && !b.safety.clkHeld && chPower b ch != .sleep

/-- The slot a bank's arbiter decides in this port cycle, if it decides now (R19, R196). -/
def slotNow (b : Block) (bank : Nat) : Option Nat :=
  if bank % 2 = 0 then (if b.now % 2 = 1 then some (if b.arb.fresh then 0 else b.arb.bankCycles + 1) else none)
  else (if b.now % 2 = 0 ∧ b.arb.fresh = false then some b.arb.bankCycles else none)

/-- A pending roster switch takes effect at the rotation that starts in port cycle `at_` (R217): 8 CLK_CTL cycles have
passed since its step boundary or its command. -/
def switchDue (b : Block) (at_ : Nat) : Bool := b.arb.pend.isSome && !b.arb.pendStep && decide (b.arb.pendFrom + 32 ≤ at_)

/-- The port cycle in which the bank cycle with number `n` begins, seen from now. -/
def bankStart (b : Block) (n : Nat) : Nat := b.now - b.now % 2 + 2 * n - 2 * b.arb.bankCycles

/-- The roster that a slot reads: the entries of a rotation yet to start are read before it starts (R196, R218). -/
def rosterOf (b : Block) (slot : Nat) : Nat :=
  if slot / 256 ≠ b.arb.rotation ∧ switchDue b (bankStart b (slot / 256 * 256)) = true then b.arb.pend.getD b.arb.active else b.arb.active

/-! The choice. -/

/-- What a bank's slot is given to. -/
inductive Pick where
  | op (o : LineOp) (rank : Nat)
  | patrolTurn
  | repairTurn (row : Nat)
  | patrolRead
  | poison (row : Nat)
  | spareRow
  | nothing
  deriving DecidableEq, Repr

def isReadKind (k : LKind) : Bool := match k with | .read | .desc | .index | .replay => true | _ => false

/-- The slot of the operation writes its bank (R109). -/
def writesBank (op : LineOp) : Bool := !isReadKind op.kind && (op.kind != .test || op.be != 0)

/-- An operation waits for the bank in this cycle (R196): in P, or at the array input register. -/
def waitsAt (now ch bank : Nat) (op : LineOp) : Bool :=
  op.ch == ch && op.bank == bank && (op.stage == .bank || op.stage == .store) && decide (op.readyAt ≤ now)

/-- The cycle in which stage P is taken to end (R31, R32): a decision in P's first cycle or in the next one lets P last one
cycle, a later one ends it (R214). -/
def phaseEnd (b : Block) (op : LineOp) : Nat := if b.now ≤ op.readyAt + 1 then op.readyAt else b.now

/-- The line operations of a transfer. -/
def Xfer.ops (x : Xfer) : List LineOp := match x.payload with | .lines l => l | _ => []

/-- An earlier turn of the operation's line has its slot and has yet to pass K. -/
def turnAhead (b : Block) (op : LineOp) : Bool :=
  b.ops.any (fun o => o.stage == .chkK && o.ch == op.ch && o.bank == op.bank && o.row == op.row && decide (o.grantAt < op.grantAt))

/-- The words that the slot before this one changed in the operation's line (R109). -/
def fresherWords (bs : BankSt) (slot : Nat) (op : LineOp) : WordMask :=
  if bs.lastSlot = some (slot - 1) ∧ bs.wroteRow = op.row then bs.wroteWords else 0

/-- Rules that keep a waiting operation from its slot: a row whose tag word is being put right (R186), an operation of its port on
the line that came before it and has had no slot (R102), an entry of its line that must drain first (R233), and the read after a
write of R110. -/
def opBlocked (b : Block) (c : Channel) (bs : BankSt) (slot : Nat) (op : LineOp) : Bool :=
  let rd := isReadKind op.kind
  let own := bySequencer op.kind
  let tagRow := !own && (seamOf b op.seam).zmap && c.tagFix.any (fun e => e.1 == op.row && !e.2.isEmpty)
  let earlier (o : LineOp) : Bool := decide (o.serial < op.serial) && sameOrigin o.org op.org && o.ch == op.ch && o.line == op.line
    && o.stage != .ret && o.stage != .chkK && o.stage != .line && o.kind != .drain && !bySequencer o.kind && !(rd && isReadKind o.kind)
  let order := !own && op.kind != .drain && (b.ops.any earlier || b.xfers.any (fun x => x.ops.any earlier))
  let entry := !rd && op.kind != .drain && op.kind != .test && c.merge.any (entryBefore op)
  tagRow || order || entry || (rd && !own && fresherWords bs slot op != 0 && decide (bs.wrotePort = some op.org))

/-- The wait count at a bank (R202). -/
def opWait (b : Block) (op : LineOp) : Nat := op.waited + (b.now - op.readyAt)

/-- A source that has had `n` bank slots for a class in this window is over the class's budget (R200); a class with no budget
is over none (DEDUCED, log 28). -/
def overBudget (b : Block) (cls n : Nat) : Bool :=
  let bud := fld b.regs.bgBudgetA (8 * cls - 8) 8
  decide (bud ≠ 0) && decide (64 * bud ≤ n)

/-- The rank of R194 with the order inside it, lowest first. -/
def opRank (b : Block) (c : Channel) (bs : BankSt) (owner : Nat) (op : LineOp) : Nat × Nat :=
  let owned := opOwned b op
  let cls := rankClass owned op.cls
  let rr := (op.src + 15 - bs.lastSrc.getD 15) % 16
  let key (r k rr : Nat) : Nat × Nat := (r, (((r * 8192 + k) * 16 + rr) <<< 64) + op.serial)
  let swept := op.stage == .store && (ctxOf b op.ctx).state == .resetting
  if owned ∧ ownerCode op.org = owner then key 1 0 0
  else if op.kind = .wipe then key 3 op.row 0
  else if swept || (!owned && starveForces b && decide (starveLimit b ≤ opWait b op)) then key 4 (8191 - min 8191 (opWait b op)) rr
  else if owned then key 5 0 rr
  else
    let q := 15 - rankQos op.cls op.qos
    key (if overBudget b cls (tget 0 c.budget (8 * op.src + cls)) then 7 else 6) q rr

/-- The bank is being spared (R245). -/
def sparedNow (c : Channel) (bank : Nat) : Bool := c.spare.phase != 0 && c.spare.bank == bank

/-- The dredge's work for a bank in a DREDGE slot, its turns before its reads (R226, R238, R239); `hold` keeps its turns back. -/
def dredgePick (c : Channel) (bank : Nat) (hold : Bool) : Pick :=
  let read : Pick := if c.dredge.reads.contains bank then .patrolRead else .nothing
  if hold then read
  else if c.dredge.turns.contains bank then .patrolTurn
  else match c.repair.find? (fun e => e.1 == bank) with
    | some e => .repairTurn e.2
    | none => read

/-- The poison write that is due on a bank, in row order (R186). -/
def poisonPick (c : Channel) (bank : Nat) : Pick :=
  match leastBy (fun e => e.1) (c.tagFix.filter (fun e => e.2.contains bank)) with
  | some e => .poison e.1
  | none => .nothing

/-- During the quiesce only the bank's drains, oldest entry first, and then its repair turns are granted, outside the ranks (R245). -/
def quiescePick (b : Block) (c : Channel) (ch bank : Nat) : Pick :=
  match c.merge.find? (fun e => e.bank == bank) with
  | some e => (match b.ops.find? (fun op => op.kind == .drain && op.no == e.serial && waitsAt b.now ch bank op) with
    | some op => .op op 0
    | none => .nothing)
  | none =>
    match c.repair.find? (fun e => e.1 == bank) with
    | some e => .repairTurn e.2
    | none => .nothing

/-- A spare's slot over the spare bus: a DREDGE slot of its cluster, after the dredge's own work (R236, R241). -/
def sparePick (b : Block) (ch bank owner : Nat) (dr : Pick) : Pick :=
  if owner ≠ 1 then .nothing
  else match dr with
    | .nothing => (match b.ops.find? (waitsAt b.now ch bank) with
      | some op => .op op 7
      | none => .nothing)
    | d => d

/-- The choice of R194 for a bank in a slot. While the count of R238 holds, the slot before the next DREDGE slot goes to no write or
turn. -/
def pick (b : Block) (ch bank slot owner next : Nat) : Pick :=
  let c := chan b ch
  let bs := bankOf c bank
  let after := bs.lastSlot == some (slot - 1) && bs.wroteWords != 0
  let hold := decide (256 ≤ bs.excluded) && next == 1
  let dr := if owner = 1 ∧ after = false then dredgePick c bank hold else .nothing
  if 64 ≤ bank then sparePick b ch bank owner dr
  else if sparedNow c bank then (if c.spare.phase = 1 then quiescePick b c ch bank else .spareRow)
  else
    let ready := b.ops.filter (fun op => waitsAt b.now ch bank op && !opBlocked b c bs slot op && !(hold && writesBank op)
      && (op.kind != .wipe || decide (owner ≤ 1)))
    let best := leastBy (fun e => e.2.2) (ready.map (fun op => (op, opRank b c bs owner op)))
    let rest : Pick := match best with | some (op, r) => .op op r.1 | none => .nothing
    match best, dr, (if owner ≤ 1 ∧ hold = false then poisonPick c bank else .nothing) with
    | some (op, (1, _)), _, _ => .op op 1
    | some (op, (3, _)), .nothing, .poison row => if op.row < row then .op op 3 else .poison row
    | _, .nothing, .nothing => rest
    | _, .nothing, p => p
    | _, d, _ => d

end Sys2Proof.Machine
end

