-- ==== Sys2Proof/Machine/Grant.lean ====
section
/-! DEFINITION. What a bank slot does (R109, R194 to R205, R225 to R227, R238, R239, R241). -/

namespace Sys2Proof.Machine

/-- Undefined words of a read that follows a write of them in the next slot (R109): free values. -/
def freeWords (b : Block) (m : WordMask) (d : LineData) : LineData :=
  lineOf (fun k => if bit m k then Config.freeWord (b.free + k) else lineWord d k)

/-- What the way back from a cluster adds to a line read: for a descriptor and an index line to their lane or unit, which
stands in its own channel; else to the port (R32). -/
def backHops (b : Block) (op : LineOp) : Nat :=
  let h := retHops op.org op.ch (opCluster op)
  match op.kind with
  | .read => h
  | _ => if leavesChan b op then h else min 2 h

/-- The words of a line that a read looks at: those the slot before it changed are undefined, raise no error, and read as clean (R109,
R110). -/
def settledWords (coll : WordMask) (ds : List Decoded) : List Decoded := ds.zipIdx.map (fun e => if bit coll e.2 then cleanZero else e.1)

/-- A read, a descriptor fetch or an index read takes its line (R109, R115, R225): what it read goes on to stage C. An
entry of its line is laid over it here and again there (R234), so that a drain in between loses nothing. -/
def performRead (a : Arrays) (b : Block) (op : LineOp) : Block :=
  let ds := opLine a b op
  let b := noteRead a b op.ch op.bank op.row (ueConsumer op.kind) false true (settledWords op.coll ds)
  let (d, pm) := withMerge b op.ch op.line (lineData ds) (badWords ds)
  let d := freeWords b op.coll d
  let b := if op.coll = 0 then b else { b with free := b.free + 16 }
  { b with ops := b.ops ++ [{ op with stage := .ret, data := d, wp := pm, back := backHops b op }] }

/-- A dry read of a replay takes its line (R393). -/
def performReplay (a : Arrays) (b : Block) (op : LineOp) : Block :=
  noteRead a b op.ch op.bank op.row 0 false true (settledWords op.coll (opLine a b op))

/-- The words a slot changes (R109). -/
def changedWords (op : LineOp) : WordMask :=
  match op.kind, op.stage with
  | .read, _ | .desc, _ | .index, _ | .replay, _ => 0
  | .test, _ => if op.be = 0 then 0 else wordsOf (fun k => k == op.no % 16)
  | _, .store => wordsOf (fun k => bit op.wp k || wordAny op.be k)
  | _, _ => 0xFFFF#16

/-- A RAW_WRITE or RAW_READ in its slot (R240, R241): `no` holds BANK and WORD, `be` whether it writes. DESIGN CHOICE (log 99): a ROW at or
above the lines of a bank reaches the cells that follow them, the redundant rows first. -/
def performTest (a : Arrays) (b : Block) (op : LineOp) : Arrays × Block :=
  let pb := physBank (chan b op.ch) (op.no / 16)
  let key := storeKey b op.ch pb op.row + 16 * (op.no % 16)
  let e := (chan b op.ch).ecc
  if op.be = 0 then
    let w := readWord a.mem key
    let d := eccDecode w.1 w.2
    let v := match d.verdict with | .clean => 0 | .corrected => 1 | .uncorrectable => 2 | .poisoned => 3
    (a, setChan b op.ch (fun c => { c with ecc := { e with
      data := w.1, check := put 0 8 w.2.toNat ||| put 8 7 d.syn ||| putBit 15 d.q ||| put 16 2 v } }))
  else ({ a with mem := writeWord a.mem key (op.data.extractLsb' 0 64, op.data.extractLsb' 64 8) }, b)

/-- The entry a drain served leaves the buffer once it is performed (R233). -/
def dropEntry (b : Block) (op : LineOp) : Block :=
  if op.kind = .drain then setChan b op.ch (fun c => { c with merge := c.merge.filter (fun e => e.serial != op.no) }) else b

/-- A line of a re-seed's clearing or of a wipe is stored as zeros, and the bank's next line bids (R67, R345). -/
def performZero (a : Arrays) (b : Block) (op : LineOp) : Arrays × Block :=
  let s := seamOf b op.seam
  let a := putLine a b op.ch op.bank op.row (fun _ => storeWord false 0)
  let b := dropClaim b op.ch op.bank op.row
  match lineIn b s op.ch op.bank (op.row + 1) with
  | some line => (a, { b with ops := b.ops ++ [{ op with row := op.row + 1, line := line, stage := .bank, readyAt := b.now + 1, waited := 0
                                                         reported := false }] })
  | none => (a, b)

/-- What an operation that has had its slot does to its line, once no earlier turn of the line is on its way to K: a turn reads it, and
goes on. -/
def actOnLine (a : Arrays) (b : Block) (op : LineOp) : Arrays × Block :=
  let gone := { b with ops := b.ops.filter (fun o => o.serial != op.serial) }
  match op.kind, op.stage with
  | .read, _ | .desc, _ | .index, _ => (a, performRead a gone op)
  | .replay, _ => (a, performReplay a gone op)
  | .test, _ => performTest a gone op
  | .clear, _ | .wipe, _ => performZero a gone op
  | _, .chkK =>
    let b := noteRead a b op.ch op.bank op.row 1 false true (settledWords op.coll (opLine a b op))
    (a, { b with ops := b.ops.map (fun o => if o.serial = op.serial then { o with unread := false } else o) })
  | _, _ =>
    let (a, b) := writeWords a gone op
    (a, dropEntry b op)

/-- Operations that have had their slots behind turns of their lines act on those lines where the turns have passed K, in the order of
their slots (R109; log 9). -/
def settleBank (a : Arrays) (b : Block) (ch bank : Nat) : Arrays × Block :=
  let held := sortBy (fun o => o.grantAt) (b.ops.filter (fun o => o.ch == ch && o.bank == bank && (o.stage == .line || o.unread)))
  held.foldl (fun r op => if turnAhead r.2 op then r else actOnLine r.1 r.2 op) (a, b)

/-- An operation has its slot (R115, R153): a turn goes on to K, a write is acknowledged, and each acts on its line at once or behind
the turns of the line. -/
def performOp (a : Arrays) (b : Block) (bs : BankSt) (slot : Nat) (op : LineOp) : Arrays × Block :=
  let coll := fresherWords bs slot op
  let turn := !isReadKind op.kind && !bySequencer op.kind && op.stage != .store
  let ackAt := max (op.readyAt + 2) (b.now + 1) + retHops op.org op.ch (opCluster op)
  let next : LineOp := { op with
    grantAt := b.now, coll := coll, unread := turn, stage := if turn then .chkK else .line
    readyAt := if turn then phaseEnd b op + 6 else phaseEnd b op + 4 }
  let b := { b with ops := b.ops.map (fun o => if o.serial = op.serial then next else o) }
  let b := match op.kind with
    | .write => ackLine b op ackAt (writeLat op.org op.ch (opCluster op) false) false
    | .reduce _ => count b 0x20 { ch := op.ch, port := op.src, ctx := op.ctx, cluster := opCluster op } 1
    | _ => b
  if turnAhead b next then (a, b) else actOnLine a b next

/-- Counters of a grant (R200, R201, R443, R445). The channel sequencer's slots count under source 8, and what goes over the spare bus
takes no slot (R241). -/
def grantTaps (b : Block) (ch bank rank : Nat) (op : LineOp) : Block :=
  if 64 ≤ bank then b else
  let k := bank / 8
  let owned := opOwned b op
  let cls := rankClass owned op.cls
  let src := min 8 op.src
  let t : Tap := { ch := ch, port := src, cls := op.cls, cluster := k }
  let b := count b 0x11 t 1
  let b := if rank = 1 then count b 0x14 t 1 else b
  let passed := decide (4 ≤ rank)
  let b := if passed then count b 0x15 t 1 else b
  let b := if rank = 4 then count b 0x17 t 1 else b
  setChan b ch (fun c => { c with
    slotCnt := fixedAdd b c.slotCnt (8 * src + op.cls) 1
    ownedCnt := if rank = 1 then fixedAdd b c.ownedCnt k 1 else c.ownedCnt
    passedCnt := if passed then fixedAdd b c.passedCnt k 1 else c.passedCnt
    budget := if cls = 0 then c.budget else tmod 0 c.budget (8 * op.src + cls) (· + 1)
    grants := c.grants + 1 })

/-- A trace record of class 2 (R449, R451). -/
def grantTrace (b : Block) (ch bank slot owner rank src : Nat) : Block :=
  let f := b.obs.trcFilt
  let want := if bit f 11 then 0 else fld f 8 3
  if clsOn b.obs 2 && want == ch && fld f 0 3 == bank / 8 then
    trcEnter b 2 rank (tapInfo { ch := ch, port := src, ctx := 0 })
      (put 0 6 bank ||| put 6 8 slot ||| put 14 7 owner ||| put 21 4 src)
  else b

/-- Lost slots (R64, R65): every operation of a port that waited for the bank and was not granted it. A THRESHOLD of 0 is taken as 1, the
least count that a window can reach (DESIGN CHOICE, log 89). -/
def countLosers (b : Block) (ch bank : Nat) (losers : List LineOp) : Block :=
  let th := fld b.regs.conflictCtl 32 20
  (losers.filter (fun op => op.src < 9)).foldl (fun b op =>
    let b := count b 0x13 { ch := ch, port := op.src, cluster := bank / 8 } 1
    setChan b ch (fun c =>
      let n := tget 0 c.confWin op.src + 1
      { c with conf := fixedAdd b c.conf op.src 1, confWin := tset c.confWin op.src n
               confBank := if n ≤ max 1 th then tset c.confBank op.src bank else c.confBank })) b

/-- The entry a slot reads has bad parity: it acts as OPEN, with one record (R221). -/
def parityCheck (b : Block) (ch r k slot : Nat) : Block :=
  let key := slotKey r k (slot % 256)
  let e := slotEntry (chan b ch) r k (slot % 256)
  if parOk e ∨ (chan b ch).rosterBad.contains key then b
  else emit (setChan b ch (fun c => { c with rosterBad := c.rosterBad ++ [key] })) 0x17 (some ch) none
    (put 0 2 r ||| put 4 3 k ||| put 8 8 (slot % 256) ||| put 16 8 e)

/-- The bank remembers its slot, and what it wrote (R109). -/
def markBank (b : Block) (ch bank slot : Nat) (src : Option Nat) (row : Nat) (words : WordMask) (org : Option Origin) : Block :=
  setBank b ch bank (fun s => { s with
    lastSlot := some slot, lastAt := b.now, lastSrc := match src with | some v => some v | none => s.lastSrc
    wroteRow := row, wroteWords := words, wrotePort := org })

/-- Dredge work counts as event 0x18 (R444). -/
def dredgeTap (b : Block) (ch bank : Nat) : Block := count b 0x18 { ch := ch, cluster := (if 64 ≤ bank then bank - 64 else bank / 8) } 1

/-- A turn of the dredge or of the repair queue on a line (R226, R239). -/
def dredgeTurn (a : Arrays) (b : Block) (ch bank row slot : Nat) : Arrays × Block :=
  let ds := rawLine a.mem (servedKey b ch bank row)
  let b := noteRead a b ch bank row 2 true false ds
  let b := dredgeTap (markBank b ch bank slot none row 0xFFFF#16 none) ch bank
  (scrubLine a b ch bank row, setChan b ch (fun c => { c with
    repair := c.repair.filter (fun e => e != (bank, row))
    dredge := { c.dredge with turns := if c.dredge.row = row then c.dredge.turns.filter (fun k => k != bank) else c.dredge.turns } }))

/-- A patrol read (R236, R239): errors call for a turn in the bank's next DREDGE slot. -/
def dredgeRead (a : Arrays) (b : Block) (ch bank slot : Nat) : Block :=
  let row := (chan b ch).dredge.row
  let ds := rawLine a.mem (servedKey b ch bank row)
  let b := noteRead a b ch bank row 2 false false ds
  let bad := ds.any (fun d => d.verdict == .corrected || d.verdict == .uncorrectable)
  let b := dredgeTap (markBank b ch bank slot none row 0 none) ch bank
  setChan b ch (fun c => { c with dredge := { c.dredge with
    reads := c.dredge.reads.filter (fun k => k != bank)
    turns := if bad then c.dredge.turns ++ [bank] else c.dredge.turns } })

/-- A line of a row whose tag word was lost is stored poisoned, and what was on its way to it with it (R186). The tag word itself is
left as it is until step 2. -/
def poisonLine (a : Arrays) (b : Block) (ch bank row slot : Nat) : Arrays × Block :=
  let a := putLine a b ch bank row (fun _ => poisonWord)
  let b := markBank (dropClaim b ch bank row) ch bank slot none row 0xFFFF#16 none
  let b := { b with ops := b.ops.map (fun o => if o.ch = ch ∧ o.bank = bank ∧ o.row = row ∧ (o.stage = .chkK ∨ o.stage = .line) then
    { o with wp := 0xFFFF#16 } else o) }
  let b := setChan b ch (fun c => { c with tagFix := c.tagFix.map (fun e =>
    if e.1 = row then (e.1, e.2.filter (fun k => k != bank)) else e) })
  settleTags a b ch

/-- The dredge's count of DREDGE slots in which its waiting read was excluded (R238). -/
def noteExcluded (b : Block) (ch bank slot owner : Nat) : Block :=
  let c := chan b ch
  let bs := bankOf c bank
  if owner ≠ 1 ∨ c.dredge.reads.contains bank = false then b
  else setBank b ch bank (fun s => { s with
    excluded := if bs.lastSlot = some (slot - 1) ∧ bs.wroteWords ≠ 0 then s.excluded + 1 else 0 })

/-- Turns and writes that wait for their slot behind an entry of their line make it drain (R151, R233). -/
def forceDrains (a : Arrays) (b : Block) (ch bank : Nat) : Block :=
  let waits := b.ops.filter (fun op => waitsAt b.now ch bank op && op.kind != .drain && !isReadKind op.kind && op.kind != .test)
  waits.foldl (fun b op => if (chan b ch).merge.any (entryBefore op) then drainLine a b ch op.line else b) b

/-- What the slot of a bank is given to happens: `choice` of the operations `waiting` for it, under an entry that names `owner`. -/
def performPick (a : Arrays) (b : Block) (ch bank slot owner : Nat) (waiting : List LineOp) (choice : Pick) : Arrays × Block :=
  match choice with
  | .nothing => (a, countLosers b ch bank waiting)
  | .patrolTurn => dredgeTurn a (countLosers b ch bank waiting) ch bank (chan b ch).dredge.row slot
  | .repairTurn row => dredgeTurn a (countLosers b ch bank waiting) ch bank row slot
  | .patrolRead => (a, dredgeRead a (countLosers b ch bank waiting) ch bank slot)
  | .poison row => poisonLine a (countLosers b ch bank waiting) ch bank row slot
  | .spareRow => spareStep a (markBank b ch bank slot none 0 0 none) ch
  | .op op rank =>
    let bs := bankOf (chan b ch) bank
    let b := countLosers b ch bank (waiting.filter (fun o => o.serial != op.serial))
    let b := grantTrace (grantTaps b ch bank rank op) ch bank (slot % 256) owner rank op.src
    let r := performOp a b bs slot op
    (r.1, markBank r.2 ch bank slot (some op.src) op.row (changedWords op) (if bySequencer op.kind then none else some op.org))

/-- The decision of a bank's slot in roster `r`, and its slot. -/
def decideSlot (a : Arrays) (b : Block) (ch bank slot r : Nat) : Arrays × Block :=
  let k := if 64 ≤ bank then bank - 64 else bank / 8
  let owner := slotOwner (chan b ch) r k (slot % 256)
  let next := slotOwner (chan b ch) r k ((slot + 1) % 256)
  if (bankOf (chan b ch) bank).lastSlot = some slot then (a, b)
  else
    let choice := pick { b with arb := { b.arb with active := r } } ch bank slot owner next
    let waiting := b.ops.filter (fun op => waitsAt b.now ch bank op && !sparedNow (chan b ch) bank && decide (bank < 64))
    performPick a (forceDrains a (noteExcluded b ch bank slot owner) ch bank) ch bank slot owner waiting choice

/-- BANK_SLOT_GRANT: the arbiter of a bank decides and its slot is performed. -/
def grantBank (a : Arrays) (b : Block) (ch bank : Nat) : Arrays × Block :=
  match (if banksRun b ch then slotNow b bank else none) with
  | none => (a, b)
  | some slot =>
    let r := rosterOf b slot
    let x := settleTags a (parityCheck b ch r (if 64 ≤ bank then bank - 64 else bank / 8) slot) ch
    let x := settleBank x.1 x.2 ch bank
    decideSlot x.1 x.2 ch bank slot r

/-! The command. -/

/-- BANK_SLOT_GRANT (R110, R194 to R201): a bank's arbiter decides and its slot is performed. -/
def execBankSlotGrant (ch bank : Nat) (s : State) : Host.Outcome State Fault Refusal :=
  guardedArr (chanOk s.blk ch && decide (bank < 66)) s (grantBank s.arr s.blk ch bank)

end Sys2Proof.Machine
end

