-- ==== Sys2Proof/Machine/Check.lean ====
section
/-! DEFINITION. Check points and the canary (R154, R158 to R164, R181, R235), the reduce unit (R149 to R152) and the merge
buffer (R230 to R235). -/

namespace Sys2Proof.Machine

/-! The canary. -/

/-- Bits of an element of a format: those whose elements may cross or fill several bytes; of any other format an element lies within a
byte (R160). -/
def elemBits (fmt : Nat) : Nat := match fmt with | 0x03 | 0x04 => 32 | 0x05 | 0x06 => 16 | 0x12 | 0x13 => 6 | _ => 8

/-- The bytes of the elements that a mask enables in full: a byte counts where every byte that holds bits of an element of it is
enabled (R160). A byte that two elements share counts where both are. Six-bit elements are counted from the line's first bit (DESIGN
CHOICE, log 90). -/
def fullElems (fmt : Nat) (m : LineMask) : LineMask :=
  let n := elemBits fmt
  bytesOf (fun k =>
    let lo := 8 * k / n * n / 8
    let hi := min 127 (((8 * k + 7) / n * n + n - 1) / 8)
    (List.range (hi + 1 - lo)).all (fun j => bit m (lo + j)))

/-- The first element of a line that fails the check, with its cause: an element counts where `m` enables one of its bytes,
`seen` does not hold all of them, and its word is not poisoned (R158, R159). -/
def canaryScan (fmt : Nat) (d : LineData) (m seen : LineMask) (poisoned : WordMask) : Option (Nat × Nat) :=
  let n := elemBits fmt / 8
  (List.range (128 / n)).findSome? (fun e =>
    let any := fld m (e * n) n != 0
    let old := fld seen (e * n) n == 2 ^ n - 1
    if any && !old && !bit poisoned (e * n / 8) then (canaryCause fmt (fld d (8 * e * n) (8 * n))).map (fun c => (e, c)) else none)

/-- The trip of a context has reached a check point of channel `ch`; `k` is its cluster, none for the merge buffer (R163). -/
def tripReached (b : Block) (ctx ch : Nat) (k : Option Nat) : Bool :=
  let l := (ctxOf b ctx).trip
  bit b.regs.canaryFlag ctx && bit b.regs.canaryFence ctx && (l.isEmpty || l.any (fun (t, tch, tk) =>
    if tch ≠ ch then decide (t + 4 ≤ b.now) else decide (k = some tk) || decide (t + 2 ≤ b.now)))

/-- The value of CANARY_SITEc for a trip (R165). -/
def siteWord (op : LineOp) (point elem cause : Nat) : Word :=
  putBit 63 true ||| put 61 2 cause ||| put 58 3 op.ch ||| put 55 3 (opCluster op) ||| put 52 3 (op.bank % 8) ||| put 50 2 point
    ||| put 42 7 elem ||| put 7 35 op.line

/-- A value of a context fails the check: a trip, if its flag is 0, or one more check point of a trip of this cycle (R161). -/
def tripCanary (b : Block) (op : LineOp) (point elem cause : Nat) : Block :=
  let here := (b.now, op.ch, opCluster op)
  let l := (ctxOf b op.ctx).trip
  if bit b.regs.canaryFlag op.ctx then
    (if l.any (fun e => e.1 == b.now) && !l.contains here then setCtx b op.ctx (fun c => { c with trip := l ++ [here] }) else b)
  else
    let site := siteWord op point elem cause
    let b := setCtx { b with regs := { b.regs with canaryFlag := b.regs.canaryFlag ||| (1#64 <<< op.ctx) } } op.ctx
      (fun c => { c with site := site, trip := [here] })
    emit b 0x20 (some op.ch) (some (op.ctx, op.shift)) site

/-- The check applies to the line: its seam has WATCH, and lies on the chip (R158). -/
def watched (b : Block) (op : LineOp) : Bool := (seamOf b op.seam).watch && !(seamOf b op.seam).sump

/-- Event 0x26 (R444). -/
def rejectTap (b : Block) (op : LineOp) : Block := count b 0x26 { ch := op.ch, ctx := op.ctx } 1

/-- A record of class 1 for each word that a commit writes, while debug access is open, outside SECURE seams (R449, R450). -/
def traceData (b : Block) (op : LineOp) (words : WordMask) (d : LineData) : Block :=
  if debugOpen b && clsOn b.obs 1 && !(seamOf b op.seam).secure then
    ((List.range 16).filter (bit words)).foldl (fun b k =>
      trace b 1 k { ch := op.ch, port := op.src, ctx := op.ctx } (some (b.cw.instNum * 2 ^ 42 + op.line * 128 + 8 * k)) (lineWord d k)) b
  else b

/-! Check points (R160). -/

def dropOp (b : Block) (op : LineOp) : Block := { b with ops := b.ops.filter (fun o => o.serial != op.serial) }
def replaceOp (b : Block) (op : LineOp) : Block := { b with ops := b.ops.map (fun o => if o.serial = op.serial then op else o) }

/-- A drain that is rejected still writes the bytes its entry has committed (R235). A drain is rejected and counted once: one that E
sends back as a turn holds committed bytes only. -/
def rejectDrain (b : Block) (op : LineOp) (turn : Bool) : Block × Option LineOp :=
  let b := if op.be &&& ~~~op.checked = 0 then b else rejectTap (setChan b op.ch (fun c => { c with mbRejected := satAdd 65535 c.mbRejected 1 })) op
  let be := op.be &&& op.checked
  let op := { op with be := be, readyAt := b.now + 1 }
  if be = 0 ∧ op.wp = 0 then (dropEntry (dropOp b op) op, none)
  else if turn then (b, some op)
  else
    let whole := !isNarrow be op.wp || (b.zeroLines.contains (lineKey op.ch op.bank op.row) && !op.old)
    (replaceOp b { op with stage := if whole then .store else .bank }, none)

/-- A write-side line operation at its check point or the merge buffer in cycle `now` is acknowledged three stages later (R115,
R153, R232). -/
def ackOp (b : Block) (op : LineOp) (rejected : Bool) : Block :=
  let red := match op.kind with | .reduce _ => true | _ => false
  ackLine b op (b.now + 3 + retHops op.org op.ch (opCluster op)) (writeLat op.org op.ch (opCluster op) red) rejected

/-- The words a reduce turn stores (R149 to R152). -/
def reduceWord (redop : Nat) (op : LineOp) (old : List Decoded) (k : Nat) : Bool × Word :=
  let n := redBytes redop
  let s := wordAt old k
  if bit op.wp k || s.bad then (true, 0)
  else
    let x := lineWord op.data k
    (false, (List.range (8 / n)).foldl (fun acc e =>
      let at_ := 8 * e * n
      let v := if fld op.be (8 * k + e * n) n = 2 ^ n - 1 then redElem redop (fld s.data at_ (8 * n)) (fld x at_ (8 * n)) else fld s.data at_ (8 * n)
      acc ||| BitVec.ofNat 64 (v <<< at_)) 0)

/-- The value that a write, a turn or a drain is about to store, and its words that the check leaves out: those stored poisoned
(R149, R152, R158, R235). -/
def checkValue (a : Arrays) (b : Block) (op : LineOp) : LineData × WordMask :=
  let old := opLine a b op
  match op.kind, op.stage with
  | .reduce r, _ =>
    let words := (List.range 16).map (reduceWord r op old)
    let w (k : Nat) : Bool × Word := words.getD k (false, 0)
    (lineOf (fun k => (w k).2), wordsOf (fun k => (w k).1))
  | _, .chkK => (overlay (lineData old) op.data op.be, wordsOf (fun k => bit op.wp k || ((wordAt old k).bad && !wordFull op.be k)))
  | _, _ => (overlay (lineData old) op.data op.be, op.wp)

/-- The first element of a line at E or K that fails the check, with its cause. -/
def checkFails (a : Arrays) (b : Block) (op : LineOp) : Option (Nat × Nat) :=
  if watched b op && op.stage != .chkF then
    let v := checkValue a b op
    canaryScan op.fmt v.1 op.be op.checked v.2
  else none

/-- The line operation is rejected at its check point in cluster `k` of its channel, or at merge-buffer entry (R163). -/
def rejected (b : Block) (op : LineOp) (k : Option Nat) : Bool := watched b op && tripReached b op.ctx op.ch k

/-- Check point E: a write commits and stands at the array input register, or is dropped. A write that bypasses the buffer
makes an entry of its line drain (R233). -/
def checkE (a : Arrays) (b : Block) (op : LineOp) : Block :=
  if rejected b op (some (opCluster op)) then
    (if op.kind = .drain then (rejectDrain b op false).1 else ackOp (rejectTap (dropOp b op) op) op true)
  else
    let b := traceData b op (wordsOf (wordAny op.be)) (checkValue a b op).1
    let b := replaceOp b { op with stage := .store, readyAt := b.now + 1 }
    if op.kind = .drain then b else drainLine a b op.ch op.line

/-- Check point K of a reduce turn: its result is stored, or the line keeps its contents (R153, R163). -/
def checkReduce (a : Arrays) (b : Block) (op : LineOp) : Arrays × Block :=
  let v := checkValue a b op
  let b := dropOp b op
  if rejected b op (some (opCluster op)) then (a, ackOp (rejectTap b op) op true)
  else
    let b := traceData b op (wordsOf (wordAny op.be)) v.1
    let (a, b) := writeWhole a b op (fun k => storeWord (bit v.2 k) (lineWord v.1 k))
    (a, ackOp b op false)

/-- A drain that is a turn stores its line, and its entry leaves the buffer (R233). -/
def storeDrain (a : Arrays) (b : Block) (op : LineOp) (old : List Decoded) : Arrays × Block :=
  let b := traceData b op (wordsOf (wordAny op.be)) (overlay (lineData old) op.data op.be)
  let r := writeWhole a (dropOp b op) op (mixedWord op.data op.be op.wp old)
  (r.1, dropEntry r.2 op)

/-- Check point K of a drain that is a turn (R233, R235). -/
def checkDrain (a : Arrays) (b : Block) (op : LineOp) : Arrays × Block :=
  let old := opLine a b op
  if rejected b op (some (opCluster op)) then
    let r := rejectDrain b op true
    match r.2 with
    | some op => storeDrain a r.1 op old
    | none => (a, r.1)
  else storeDrain a b op old

/-- Check point F: a zero-line write sets the tag, a zero-map hit that is counted (R46, R184), or is rejected (R181, R183). -/
def checkF (a : Arrays) (b : Block) (op : LineOp) : Arrays × Block :=
  let far := if retHops op.org op.ch (opCluster op) = 6 then 4 else 0
  let due := max op.readyAt b.now + 2 + far
  let b := dropOp b op
  if rejected b op (some (opCluster op)) then
    (a, ackLine (rejectTap b op) op due (4 + 2 * far) true)
  else
    let b := zeroHit (ackLine (traceData b op 0xFFFF#16 0) op due (4 + 2 * far) false) op
    if op.noTag then (a, b) else tagLine a b op

/-- A narrow write waits at the buffer for the earlier operations of its own port on its line (R102). -/
def heldAtMerge (b : Block) (op : LineOp) : Bool := earlierOp b op (fun o => o.kind != .drain && !bySequencer o.kind)

/-- The operations of a channel that stand at a check point E, K or F in this cycle; of the turns of a line, the first. -/
def dueChecks (b : Block) (ch : Nat) : List LineOp :=
  b.ops.filter (fun op => op.ch == ch && decide (op.readyAt ≤ b.now) &&
    (match op.stage with | .chkE => true | .chkK => !turnAhead b op | .chkF => !heldAtF b op | _ => false))

/-- The operations of a channel that stand at the merge buffer in this cycle, in the port order of R183 and then of acceptance (R231). -/
def dueMerges (b : Block) (ch : Nat) : List LineOp :=
  sortBy (fun op => op.src) (b.ops.filter (fun op => op.ch == ch && op.stage == .merge && decide (op.readyAt ≤ b.now) && !heldAtMerge b op))

/-! The merge buffer. -/

/-- An operation joins an entry (R231). -/
def mergeInto (op : LineOp) (e : MergeEntry) : MergeEntry :=
  { e with data := overlay e.data op.data op.be, mask := e.mask ||| op.be, wp := e.wp ||| op.wp
           checked := e.checked ||| fullElems op.fmt op.be }

/-- The entry that an operation allocates (R230). -/
def newEntry (b : Block) (serial : Nat) (op : LineOp) : MergeEntry :=
  { serial := serial, first := op.serial, id := op.id, line := op.line, seam := op.seam, bank := op.bank, row := op.row,
    data := op.data &&& spread op.be, mask := op.be, wp := op.wp, ctx := op.ctx, shift := op.shift, org := op.org, src := op.src,
    cls := op.cls, qos := op.qos, alloc := b.now, checked := fullElems op.fmt op.be, draining := false }

/-- What an operation does at the buffer (R231, R232): it joins an entry, waits for an entry to drain, allocates, or waits for room. -/
inductive Entering where
  | joins (e : MergeEntry)
  | behind (e : MergeEntry)
  | allocates
  | full
  deriving DecidableEq, Repr

def entering (l : List MergeEntry) (op : LineOp) : Entering :=
  match l.find? (fun e => e.line == op.line) with
  | some e => if e.ctx = op.ctx ∧ e.draining = false then .joins e else .behind e
  | none => if 32 ≤ l.length then .full else .allocates

/-- The operations that enter a buffer in this cycle, each after the ones before it. -/
def enterers (b : Block) (ch : Nat) : List LineOp :=
  ((dueMerges b ch).foldl (fun (r : List MergeEntry × List LineOp) op => match entering r.1 op with
    | .joins e => (r.1.map (fun f => if f.serial = e.serial then mergeInto op f else f), r.2 ++ [op])
    | .allocates => (r.1 ++ [newEntry b (b.serial + 1 + r.1.length) op], r.2 ++ [op])
    | _ => r) ((chan b ch).merge, [])).2

/-- The first element that fails the check of an operation at the merge buffer: of those it enables in full (R160). -/
def mergeFails (b : Block) (op : LineOp) : Option (Nat × Nat) :=
  if watched b op then canaryScan op.fmt op.data (fullElems op.fmt op.be) 0 op.wp else none

/-- The failed checks of this cycle, with check point, element and cause: at the check points E and K, and at the merge buffers. -/
def failsNow (a : Arrays) (b : Block) : List (LineOp × Nat × Nat × Nat) :=
  (List.range b.build.channels).flatMap (fun ch =>
    (dueChecks b ch).filterMap (fun op => (checkFails a b op).map (fun f => (op, (if op.stage = .chkK then 1 else 0), f)))
      ++ (enterers b ch).filterMap (fun op => (mergeFails b op).map (fun f => (op, 2, f))))

/-- The trips of this cycle: each reaches the checks of its own cluster in its own cycle, and the lowest channel, cluster, bank and
element give the site and the record (R161, R163). -/
def tripScan (a : Arrays) (b : Block) : Block :=
  (sortBy (fun e : LineOp × Nat × Nat × Nat => (e.1.ch * 64 + e.1.bank) * 128 + e.2.2.1) (failsNow a b)).foldl
    (fun b e => tripCanary b e.1 e.2.1 e.2.2.1 e.2.2.2) b

/-- The check of one operation at its check point. -/
def checkOp (a : Arrays) (b : Block) (op : LineOp) : Arrays × Block :=
  match op.stage, op.kind with
  | .chkF, _ => checkF a b op
  | .chkE, _ => (a, checkE a b op)
  | _, .reduce _ => checkReduce a b op
  | _, _ => checkDrain a b op

/-- CHECK_POINT: the n-th operation of the channel that stands at a check point in this cycle (log 10). What has had its slot behind it
then acts on its line. -/
def checkPoint (a : Arrays) (b : Block) (ch n : Nat) : Arrays × Block :=
  let b := tripScan a b
  match (dueChecks b ch)[n]? with
  | none => (a, b)
  | some op =>
    let r := settleBank a b ch op.bank
    let r := checkOp r.1 r.2 { op with unread := false }
    settleBank r.1 r.2 ch op.bank

/-- The entry is full of whole words, or its bank is being quiesced: it drains at once (R233). -/
def drainsNow (c : Channel) (e : MergeEntry) : Bool := entryFull e || (c.spare.phase == 1 && c.spare.bank == e.bank)

/-- The line's entry drains at once if it must. -/
def drainIfDue (a : Arrays) (b : Block) (ch line : Nat) : Block :=
  match mergeFind (chan b ch) line with
  | some e => if drainsNow (chan b ch) e then startDrain a b ch e else b
  | none => b

/-- For each write that finds the buffer full an entry drains, oldest first; a write's first wait is counted (R232, R233). -/
def waitFull (a : Arrays) (b : Block) (op : LineOp) : Block :=
  let b := if op.full then b
    else replaceOp (setChan b op.ch (fun c => { c with mbFullWaits := satAdd 65535 c.mbFullWaits 1 })) { op with full := true }
  let l := (chan b op.ch).merge
  let waiting := b.ops.filter (fun o => o.ch == op.ch && o.stage == .merge && o.full)
  if waiting.length ≤ (l.filter (fun e => e.draining)).length then b
  else match l.find? (fun e => !e.draining) with
    | some e => startDrain a b op.ch e
    | none => b

/-- An operation stands at the merge buffer: it is rejected, joins an entry, allocates one, or waits (R163, R231, R232). -/
def mergeArrive (a : Arrays) (b : Block) (op : LineOp) : Block :=
  let fence := watched b op && bit b.regs.canaryFence op.ctx
  let own := (mergeFails b op).isSome && bit b.regs.canaryFlag op.ctx && (ctxOf b op.ctx).trip.any (fun e => e.1 == b.now)
  let taken (b : Block) : Block := ackOp (dropOp b op) op false
  if rejected b op none || (fence && own) then ackOp (rejectTap (dropOp b op) op) op true
  else match entering (chan b op.ch).merge op with
    | .joins e => drainIfDue a (taken (setMerge b op.ch e.serial (mergeInto op))) op.ch op.line
    | .behind e => startDrain a b op.ch e
    | .full => waitFull a b op
    | .allocates =>
      let b := count b 0x21 { ch := op.ch, port := op.src, ctx := op.ctx } 1
      let e := newEntry b (b.serial + 1) op
      drainIfDue a (taken (setChan { b with serial := b.serial + 1 } op.ch (fun c => { c with merge := c.merge ++ [e] }))) op.ch op.line

/-- MERGE_BUFFER_ENTRY: the n-th operation that stands at the buffer, after those before it in port order (R231). -/
def mergeEntry (a : Arrays) (b : Block) (ch n : Nat) : Block :=
  ((dueMerges b ch).take (n + 1)).foldl (mergeArrive a) (tripScan a b)

/-- MERGE_WINDOW_EXPIRY: the n-th entry is 64 cycles old; what joins it in this cycle joins first (R233). -/
def mergeExpiry (a : Arrays) (b : Block) (ch n : Nat) : Block :=
  match (chan b ch).merge[n]? with
  | none => b
  | some e =>
    if e.alloc + Config.mergeWindow ≤ b.now then
      let b := ((dueMerges b ch).filter (fun op => op.line == e.line && op.ctx == e.ctx)).foldl (mergeArrive a) (tripScan a b)
      match (chan b ch).merge.find? (fun f => f.serial == e.serial) with
      | some e => startDrain a b ch e
      | none => b
    else b

/-! The commands. -/

/-- CHECK_POINT (R160 to R164). -/
def execCheckPoint (ch n : Nat) (s : State) : Host.Outcome State Fault Refusal :=
  guardedArr (chanOk s.blk ch) s (checkPoint s.arr s.blk ch n)

/-- MERGE_BUFFER_ENTRY (R231, R232). -/
def execMergeBufferEntry (ch n : Nat) (s : State) : Host.Outcome State Fault Refusal :=
  guarded (chanOk s.blk ch) s (mergeEntry s.arr s.blk ch n)

/-- MERGE_WINDOW_EXPIRY (R233). -/
def execMergeWindowExpiry (ch n : Nat) (s : State) : Host.Outcome State Fault Refusal := guarded (chanOk s.blk ch) s (mergeExpiry s.arr s.blk ch n)

end Sys2Proof.Machine
end

