-- ==== Sys2Proof/Machine/Integrity.lean ====
section
/-! DEFINITION. The dredge (R236 to R239), the correction window (R244), bank sparing (R245 to R248) and the checker test
mode (R240, R241). -/

namespace Sys2Proof.Machine

/-! The dredge. -/

/-- INTERVAL in µs, within 1 s and 86,400 s (R237). -/
def dredgeInterval (b : Block) : Nat := max 1 (min 86400 (fld b.regs.dredgeCtl 0 17)) * 1000000

/-- The banks a step reads: every active bank not being spared, and each free spare (R236). -/
def stepReads (c : Channel) : List Nat :=
  (List.range 64).filter (fun k => !sparedNow c k) ++ (if c.spare.s0State = 0 then [64] else []) ++ (if c.spare.s1State = 0 then [65] else [])

/-- The step of row `row` begins: its reads wait, its tag word is checked (R186, R236). -/
def startStep (a : Arrays) (b : Block) (ch row : Nat) : Arrays × Block :=
  let b := setChan b ch (fun c => { c with dredge := { c.dredge with running := true, row := row, reads := stepReads c, turns := [] } })
  let (a, b) := settleTags a (tagNote a b ch row) ch
  (a, b)

/-- DREDGE_STEP: the step in progress has ended and the next is due (R237). -/
def dredgeStep (a : Arrays) (b : Block) (ch : Nat) : Arrays × Block :=
  let d := (chan b ch).dredge
  let rows := linesPerBank b.build
  let setD (b : Block) (f : Dredge → Dredge) : Block := setChan b ch (fun c => { c with dredge := f c.dredge })
  if banksRun b ch = false then (a, b)
  else if d.running = false then
    (if d.passStart ≤ usNow b then startStep a (setD b (fun d => { d with passStart := usNow b })) ch 0 else (a, b))
  else if d.reads.isEmpty = false ∨ d.turns.isEmpty = false then (a, b)
  else if d.row + 1 < rows then
    (if (d.row + 1) * dredgeInterval b ≤ (usNow b - d.passStart) * rows then startStep a b ch (d.row + 1) else (a, b))
  else
    let b := setD b (fun d => { d with passes := d.passes + 1, running := false, row := 0, passStart := max (usNow b) (d.passStart + dredgeInterval b) })
    if d.passStart + dredgeInterval b ≤ usNow b then startStep a b ch 0 else (a, b)

/-- CE_WINDOW_START: the count of every bank returns to 0 (R244). -/
def ceWindow (b : Block) : Block :=
  if isReady b && decide (b.arb.ceFrom + b.arb.ceLen * 100000000 ≤ b.now / Config.refCycles) then
    let w := max 1 (fld b.regs.ceCtl 16 16)
    let b := { b with arb := { b.arb with ceFrom := b.arb.ceFrom + b.arb.ceLen * 100000000, ceLen := w } }
    { b with chans := b.chans.map (fun e => (e.1, { e.2 with banks := e.2.banks.map (fun k => (k.1, { k.2 with ceWin := 0 })) })) }
  else b

/-! Sparing. -/

/-- The channel's sparing ends; a trigger that was held starts its own (R244, R247). -/
def endSparing (a : Arrays) (b : Block) (ch : Nat) (f : Sparing → Sparing) : Block :=
  let s := (chan b ch).spare
  let b := setChan b ch (fun c => { c with spare := f { c.spare with phase := 0, bank := 0, onto := 0, cmd := none, row := 0, redo := false, bad := false, waiting := none } })
  match s.waiting with
  | some t => startSparing a b ch t.bank t.cmd
  | none => b

/-- The sparing ends without a switch: one SPARE_FAIL record (R247). -/
def failSparing (a : Arrays) (b : Block) (ch cause : Nat) (f : Sparing → Sparing) : Block :=
  let s := (chan b ch).spare
  let b := emit b 0x26 (some ch) none (put 0 6 s.bank ||| putBit 6 (s.onto == 65) ||| put 8 4 cause)
  endSparing a (completeIf b s.cmd cRefused rSpareFail) ch f

/-- Whether a line operation still works on a bank being quiesced: one that has had its slot and has yet to act on its line. -/
def bankBusy (b : Block) (ch bank : Nat) : Bool :=
  b.ops.any (fun op => op.ch == ch && op.bank == bank && (op.stage == .chkK || op.stage == .line || op.kind == .drain))

/-- QUIESCE_DONE: the bank's entries and repair lines are done; the copy begins (R245). -/
def quiesceDone (b : Block) (ch : Nat) : Block :=
  let c := chan b ch
  if c.spare.phase = 1 ∧ c.merge.any (fun e => e.bank == c.spare.bank) = false ∧ c.repair.any (fun e => e.1 == c.spare.bank) = false
      ∧ bankBusy b ch c.spare.bank = false
  then setChan b ch (fun c => { c with spare := { c.spare with phase := 2 } }) else b

/-- COPY_DONE: the spare holds the bank's rows; the verify begins (R245). -/
def copyDone (b : Block) (ch : Nat) : Block :=
  let s := (chan b ch).spare
  if s.phase = 2 ∧ linesPerBank b.build ≤ s.row then setChan b ch (fun c => { c with spare := { c.spare with phase := 3, row := 0 } })
  else b

/-- The states and bank fields after the switch: the spare serves the bank, a spare it came from has failed (R244, R245). -/
def switchSpare (s : Sparing) (bank onto : Nat) : Sparing :=
  let s := if s.s0State ≠ 0 ∧ s.s0Bank = bank then { s with s0State := 3 } else s
  let s := if s.s1State ≠ 0 ∧ s.s1Bank = bank then { s with s1State := 3 } else s
  if onto = 64 then { s with s0State := 2, s0Bank := bank } else { s with s1State := 2, s1Bank := bank }

/-- A spare marked failed. -/
def failSpare (onto : Nat) (s : Sparing) : Sparing := if onto = 64 then { s with s0State := 3 } else { s with s1State := 3 }

/-- VERIFY_DONE: the switch, or the other spare where this one has failed (R245, R247). -/
def verifyDone (a : Arrays) (b : Block) (ch : Nat) : Block :=
  let s := (chan b ch).spare
  if s.phase ≠ 3 then b
  else if s.bad then
    match freeSpare (failSpare s.onto s) with
    | some other => setChan b ch (fun c => { c with
        spare := { failSpare s.onto s with phase := 2, onto := other, row := 0, redo := false, bad := false }
        dredge := { c.dredge with reads := c.dredge.reads.filter (fun k => k != other)
                                  turns := c.dredge.turns.filter (fun k => k != other) } })
    | none => failSparing a b ch 2 (failSpare s.onto)
  else if s.row < linesPerBank b.build then b
  else
    let b := emit b 0x25 (some ch) none (put 0 6 s.bank ||| putBit 6 (s.onto == 65))
    let b := completeIf { b with rlog := retireAppend b.rlog s.bank ch (s.onto - 64) } s.cmd cOkay 0 (put 0 1 (s.onto - 64))
    endSparing a b ch (fun t => switchSpare t s.bank s.onto)

/-- SPARING_TIME_LIMIT: no switch 400 µs after phase 1 began (R247). -/
def sparingLimit (a : Arrays) (b : Block) (ch : Nat) : Block :=
  let s := (chan b ch).spare
  if s.phase ≠ 0 ∧ usDue b s.startUs 400 = true then failSparing a b ch 1 id else b

/-! Checker test mode. -/

/-- RAW_WRITE is refused in a SECURE seam and in a seam with owners (R241). -/
def rawProtected (b : Block) (ch bank row : Nat) : Bool :=
  b.seams.any (fun e => e.2.valid && !e.2.sump && (e.2.secure || e.2.owners != 0) && (lineIn b e.2 ch bank row).isSome)

/-- An operation code written to ECC_TEST_CTL.OP while no operation runs (R240, R241). -/
def eccStart (b : Block) (ch op : Nat) : Block :=
  let c := chan b ch
  let bankF := fld c.ecc.addr 0 7
  let row := fld c.ecc.addr 7 13
  let word := fld c.ecc.addr 20 4
  let setE (f : EccTest → EccTest) : Block := setChan b ch (fun c => { c with ecc := f c.ecc })
  if op = 1 ∨ op = 4 then setE (fun e => { e with busy := true, op := op })
  else if op = 2 ∨ op = 3 then
    let served := if bankF = 64 ∧ (c.spare.s0State = 1 ∨ c.spare.s0State = 2) then c.spare.s0Bank
      else if bankF = 65 ∧ (c.spare.s1State = 1 ∨ c.spare.s1State = 2) then c.spare.s1Bank else bankF
    if 66 ≤ bankF ∨ (op = 2 ∧ served < 64 ∧ rawProtected b ch served row = true) then setE (fun e => { e with err := true, op := op })
    else
      let o : LineOp := { seqOp b .test ch served row 0 0 with
        no := bankF * 16 + word, be := if op = 2 then 1 else 0
        data := c.ecc.data.setWidth 1024 ||| ((c.ecc.check &&& 0xFF#64).setWidth 1024 <<< 64) }
      postOp (setE (fun e => { e with busy := true, err := false, op := op })) o
  else b

/-- SYN, Q, VERDICT and CHECK as ECC_TEST_CHECK holds them (R241). -/
def checkWord (check : Nat) (d : Decoded) : Word :=
  let v := match d.verdict with | .clean => 0 | .corrected => 1 | .uncorrectable => 2 | .poisoned => 3
  put 0 8 check ||| put 8 7 d.syn ||| putBit 15 d.q ||| put 16 2 v

/-- ECC_TEST_DONE: the running operation has its result and BUSY reads 0 (R240). -/
def eccDone (b : Block) (ch : Nat) : Block :=
  let e := (chan b ch).ecc
  if e.busy = false ∨ b.ops.any (fun o => o.kind == .test && o.ch == ch) = true then b
  else
    let check := match e.op with
      | 1 => (e.check &&& ~~~0xFF#64) ||| put 0 8 (eccEncode e.data).toNat
      | 4 => checkWord (fld e.check 0 8) (eccDecode e.data (BitVec.ofNat 8 (fld e.check 0 8)))
      | _ => e.check
    setChan b ch (fun c => { c with ecc := { e with busy := false, check := check } })

/-! The commands. -/

/-- DREDGE_STEP (R237). -/
def execDredgeStep (ch : Nat) (s : State) : Host.Outcome State Fault Refusal := guardedArr (chanOk s.blk ch) s (dredgeStep s.arr s.blk ch)

/-- CE_WINDOW_START (R244). -/
def execCeWindowStart (s : State) : Host.Outcome State Fault Refusal := done s (ceWindow s.blk)

/-- QUIESCE_DONE (R245). -/
def execQuiesceDone (ch : Nat) (s : State) : Host.Outcome State Fault Refusal := guarded (chanOk s.blk ch) s (quiesceDone s.blk ch)

/-- COPY_DONE (R245). -/
def execCopyDone (ch : Nat) (s : State) : Host.Outcome State Fault Refusal := guarded (chanOk s.blk ch) s (copyDone s.blk ch)

/-- VERIFY_DONE (R245, R247). -/
def execVerifyDone (ch : Nat) (s : State) : Host.Outcome State Fault Refusal := guarded (chanOk s.blk ch) s (verifyDone s.arr s.blk ch)

/-- SPARING_TIME_LIMIT (R247). -/
def execSparingTimeLimit (ch : Nat) (s : State) : Host.Outcome State Fault Refusal := guarded (chanOk s.blk ch) s (sparingLimit s.arr s.blk ch)

/-- ECC_TEST_DONE (R240). -/
def execEccTestDone (ch : Nat) (s : State) : Host.Outcome State Fault Refusal := guarded (chanOk s.blk ch) s (eccDone s.blk ch)

end Sys2Proof.Machine
end

