-- ==== Sys2Proof/Machine/Sump.lean ====
section
/-! DEFINITION. S0 and the sump (R270 to R288): requests on S0, FILL marks, read beats and write responses. -/

namespace Sys2Proof.Machine

/-- SUMP_CTL.MAX_OUT and DRAIN_LIMIT (R288). -/
def maxOut (b : Block) : Nat := max 1 (min 1024 (fld b.regs.sumpCtl 32 11))
def drainLimit (b : Block) : Nat := fld b.regs.sumpCtl 0 16

/-- The local byte range of a data request. -/
def reqLo (x : Txn) : Nat := localOf x.req.addr
def reqHi (x : Txn) : Nat := reqLo x + reqBytes x.req - 1

/-- The write data of a request on the byte lanes of a 256 B port (R87, R273): each beat is two lines. -/
def s0Beats256 (x : Txn) : List WBeat :=
  let n := beatCount 256 (reqLo x) (reqBytes x.req)
  let half (l : Nat) : LineData × LineMask × WordMask :=
    if (reqLines x.req).contains l then lineOfBeats (reqWidth x) x.req x.wbeats l else (0, 0, 0)
  (List.range n).map (fun k =>
    let (d0, e0, p0) := half ((reqLo x / 256 + k) * 2)
    let (d1, e1, p1) := half ((reqLo x / 256 + k) * 2 + 1)
    { data := d1.append d0, be := e1.append e0, wpoison := p1.append p0, last := decide (k + 1 = n) })

/-- A data request as S0 carries it (R273). -/
def s0Data (b : Block) (x : Txn) : S0Req :=
  let l := reqLo x
  { id := BitVec.ofNat 8 (l / 4096), write := x.op == .wr,
    addr := BitVec.ofNat 48 (b.cw.instNum * 2 ^ 42 + (l - Config.sumpBase)), len := x.req.len.toNat, cls := x.req.cls.toNat,
    qos := x.req.qos.toNat, ctx := x.req.ctx.toNat, shift := x.req.shift, who := .data x.uid,
    data := if x.op = .wr then s0Beats256 x else [], beats := 0, err := false, since := b.now + 3 }

/-- One of the block's own requests on S0 (R275), within one 256 B beat, with the doublewords that it writes. -/
def s0Own (b : Block) (l len : Nat) (who : S0Who) (dws : List Word) : S0Req :=
  let d : Nat := dws.foldr (fun w a => a * 2 ^ 64 + w.toNat) 0
  { id := BitVec.ofNat 8 (l / 4096), write := !dws.isEmpty, addr := BitVec.ofNat 48 (b.cw.instNum * 2 ^ 42 + (l - Config.sumpBase)),
    len := len - 1, cls := 1, qos := 15, ctx := 0, shift := 0, who := who,
    data := if dws.isEmpty then [] else
      [{ data := BitVec.ofNat 2048 (d <<< (8 * (l % 256))), be := BitVec.ofNat 256 ((2 ^ len - 1) <<< (l % 256)), wpoison := 0, last := true }]
    beats := 0, err := false, since := b.now + 3 }

/-- The read lies in an invalidated seam and reaches its FILL mark or beyond (R284). -/
def beyondFill (b : Block) (x : Txn) : Bool :=
  let s := seamOf b (x.seam.getD 0)
  x.op == .rd && s.sumpInvalid && decide (s.fill ≤ reqHi x)

/-- The lines of a read answered without S0: DATA 0, every word marked, POISON (R284). -/
def poisonLines (x : Txn) (due : Nat) : List LineRes :=
  (List.range (reqLines x.req).length).map (fun n => { no := n, data := 0, pm := 0xFFFF#16, coll := 0, st := .poison, due := due, given := some 0xFFFFFFFF#32 })

/-- INVALID_SUMP_READ (R284): the bridge answers the read. -/
def answerInvalid (b : Block) (x : Txn) (due : Nat) : Block :=
  let b := { b with sump := { b.sump with invalidRd := satAdd 65535 b.sump.invalidRd 1 } }
  setTxn b x.uid (fun x => { x with results := poisonLines x due })

/-- A request's last transfer has passed the bridge output to S0: it waits there. -/
def sumpArrive (b : Block) (uid : Nat) : Block :=
  match txnOf b uid with
  | none => b
  | some x =>
    if x.phase ≠ .active then b
    else { b with sump := { b.sump with queue := b.sump.queue ++ [s0Data b x] } }

/-- A byte of a write's range is enabled (R87). -/
def byteEnabled (x : Txn) (k : Nat) : Bool :=
  let w := reqWidth x
  match x.wbeats[k / w - reqLo x / w]? with
  | some t => bit t.be (k % w)
  | none => false

/-- A write transfers on S0 (R285): it moves FILL on when it reaches it with every byte from there on enabled. -/
def moveFill (b : Block) (x : Txn) : Block :=
  let n := x.seam.getD 0
  let s := seamOf b n
  let hi := reqHi x
  if s.sumpInvalid ∧ reqLo x ≤ s.fill ∧ s.fill ≤ hi
      ∧ (List.range (hi + 1 - s.fill)).all (fun k => byteEnabled x (s.fill + k)) = true
  then setSeam b n (fun s => { s with fill := hi + 1, sumpInvalid := decide (hi + 1 < seamHi s) }) else b

/-- Bytes of the 256 KiB return buffer that outstanding reads hold (R274). -/
def s0Reserved (b : Block) : Nat := (b.sump.out.filter (fun r => !r.write)).foldl (fun n r => n + r.len + 1) 0

/-- Beats of a request on a port of 256 B (R87, R273). -/
def s0Beats (r : S0Req) : Nat := beatCount 256 (fld r.addr 0 42) (r.len + 1)

/-- S0 may transfer a request now that has come through the bridge: MAX_OUT, the return buffer, no drain and no reset (R274, R281, R282, R362). -/
def s0Free (b : Block) (r : S0Req) : Bool :=
  decide (r.since ≤ b.now) && !b.bring.inReset && b.recov.draining.isNone && b.power.inst == .on && decide (b.sump.out.length < maxOut b)
    && (r.write || decide (s0Reserved b + r.len + 1 ≤ 262144))

/-- S0_REQUEST_TRANSFER: the head of the queue transfers on S0, or is answered at its FILL mark (R273, R278, R284, R285). -/
def s0Transfer (b : Block) : Block :=
  match b.sump.queue with
  | [] => b
  | r :: rest =>
    if s0Free b r = false then b
    else
      let b := { b with sump := { b.sump with queue := rest } }
      let send (b : Block) : Block :=
        let b := if r.write then count b 0x31 { cls := r.cls } (s0Beats r) else b
        { b with sump := { b.sump with out := b.sump.out ++ [{ r with since := b.now }] } }
      match r.who with
      | .data uid =>
        match txnOf b uid with
        | none => b
        | some x =>
          if beyondFill b x then answerInvalid b x (b.now + 5)
          else if r.write then send (moveFill b x) else send b
      | _ => send b

/-- A protocol fault on S0 (R277, R282). -/
def s0Fault (b : Block) (fault : Nat) (id : BitVec 8) : Block :=
  let b := { b with sump := { b.sump with proto := satAdd 65535 b.sump.proto 1 } }
  emit b 0x38 none none (put 0 3 fault ||| put 8 8 id.toNat)

/-- A response of an ID that has nothing outstanding: after a reset, or unknown (R277, R282). -/
def s0Unknown (b : Block) (id : BitVec 8) : Block :=
  if b.bring.inReset then b else s0Fault b (if b.sump.stale.contains id then 4 else 2) id

/-- A response of a generation that is gone is dropped (R380). -/
def staleShift (b : Block) (ctx : Nat) (shift : BitVec 8) : Bool :=
  (ctxOf b ctx).state != .open || (ctxOf b ctx).shift != shift
def dropResponse (b : Block) (ctx : Nat) : Block :=
  count (setCtx b ctx (fun c => { c with dropped := satAdd (2 ^ 24 - 1) c.dropped 1 })) 0x40 { ctx := ctx } 1

/-- The statuses S0 may return; any other is SUMP_ERR (R277). -/
def s0Status (st : BitVec 4) : Status := if st = 0 then .okay else if st = 1 then .poison else .sumpErr
def s0Legal (st : BitVec 4) : Bool := st == 0 || st == 1 || st == 10

/-- The lines of a read that one S0 beat holds: beat k covers 256 B (R87). They keep its status and PMASK (R277). -/
def beatLines (x : Txn) (k : Nat) (d : BitVec 2048) (pm : BitVec 32) (st : Status) (due : Nat) : List LineRes :=
  let base := (reqLo x / 256 + k) * 2
  let n := (reqLines x.req).length
  ([0, 1] : List Nat).filterMap (fun h =>
    let line := base + h
    if line < reqLo x / 128 ∨ reqLo x / 128 + n ≤ line then none
    else
      let p : WordMask := pm.extractLsb' (16 * h) 16
      some { no := line - reqLo x / 128, data := d.extractLsb' (1024 * h) 1024, pm := p, coll := 0, st := st, due := due, given := some pm })

/-- A request on S0 changed, or ended. -/
def setS0 (b : Block) (old new : S0Req) : Block := { b with sump := { b.sump with out := b.sump.out.map (fun r => if r = old then new else r) } }
def endS0 (b : Block) (r : S0Req) : Block := { b with sump := { b.sump with out := b.sump.out.erase r } }

/-- The beats of a read from `k` on are marked and carry SUMP_ERR (R277). -/
def breakBeats (x : Txn) (k n due : Nat) : List LineRes :=
  (List.range (n - k)).flatMap (fun j => beatLines x (k + j) 0 0xFFFFFFFF#32 .sumpErr due)

/-- A beat of an outstanding read whose context still stands (R277). -/
def takeS0Beat (b : Block) (r : S0Req) (t : S0Beat) : Block :=
  let n := s0Beats r
  let k := r.beats
  let b := count b 0x30 { cls := r.cls } 1
  let wrong := decide (k < n) && (t.last != decide (k + 1 = n))
  let b := if k < n && !s0Legal t.status then s0Fault b 1 r.id else b
  let b := if wrong then s0Fault b 3 r.id else b
  let st := s0Status t.status
  let err := wrong || (decide (k < n) && st == .sumpErr)
  let b := if err && !r.err then { b with sump := { b.sump with errors := satAdd 65535 b.sump.errors 1 } } else b
  let uid := match r.who with | .data u => u | _ => 0
  let gone := decide (r.who ≠ .probe) && staleShift b r.ctx r.shift
  let b := if n ≤ k ∨ gone = true then b
    else setTxn b uid (fun x => { x with results := x.results ++
      (if wrong then breakBeats x k n (b.now + 5) else beatLines x k t.data t.pmask st (b.now + 5)) })
  if t.last then (if gone then dropResponse (endS0 b r) r.ctx else endS0 b r)
  else setS0 b r { r with beats := if wrong then n else k + 1, err := r.err || err }

/-- S0_READ_BEAT: the beat belongs to the oldest outstanding read of its ID (R276, R277). -/
def s0ReadBeat (b : Block) (t : S0Beat) : Block :=
  match b.sump.out.find? (fun r => !r.write && r.id == t.id) with
  | none => s0Unknown b t.id
  | some r => takeS0Beat b r t

/-- S0_WRITE_RESPONSE: the response of the oldest outstanding data write of its ID (R276 to R278). -/
def s0WriteResp (b : Block) (id : BitVec 8) (status : BitVec 4) : Block :=
  match b.sump.out.find? (fun r => r.write && r.id == id && (match r.who with | .data _ => true | _ => false)) with
  | none => s0Unknown b id
  | some r =>
    let b := if s0Legal status then b else s0Fault b 1 id
    let st := s0Status status
    let b := if st = .sumpErr then { b with sump := { b.sump with errors := satAdd 65535 b.sump.errors 1 } } else b
    let b := endS0 b r
    if staleShift b r.ctx r.shift then dropResponse b r.ctx
    else match r.who with
      | .data uid => answer b uid st (b.now + 5)
      | _ => b

/-! The commands. -/

/-- S0_REQUEST_TRANSFER (R273, R284, R285). -/
def execS0RequestTransfer (s : State) : Host.Outcome State Fault Refusal := done s (s0Transfer s.blk)

/-- S0_READ_BEAT (R276, R277). -/
def execS0ReadBeat (t : S0Beat) (s : State) : Host.Outcome State Fault Refusal := done s (s0ReadBeat s.blk t)

/-- S0_WRITE_RESPONSE (R276 to R278). -/
def execS0WriteResponse (id : BitVec 8) (status : BitVec 4) (s : State) : Host.Outcome State Fault Refusal :=
  done s (s0WriteResp s.blk id status)

end Sys2Proof.Machine
end

