-- ==== Sys2Proof/Machine/Roster.lean ====
section
/-! DEFINITION. Rosters: admission (R206 to R210), rotations and switches (R190, R217, R218), budget and conflict windows
(R200, R65), peer reservations (R211), the step-length watchdog (R220), starvation (R202 to R205), parity and restoration
(R221, R417), and the commands APPLY, STEP_MARK and ROSTER_SELECT (R216, R217, R404). -/

namespace Sys2Proof.Machine

/-! Admission. -/

/-- A slot entry with its owner code, or none where the parity is bad (R191). -/
def ownerOf (e : Nat) : Option Nat := if parOk e then some (e % 128) else none

/-- The home port of a cluster, by number (R22). -/
def homePort (k : Nat) : Nat := ([0, 4, 1, 6, 2, 5, 3, 7] : List Nat).getD k 0

/-- A roster as admission sees it: the 256 owners of each (channel, cluster), in order. -/
abbrev Owners := List (Nat × Nat × List (Option Nat))

/-- The owners of a roster that stands in the roster registers. -/
def ownersOf (b : Block) (r : Nat) : Owners :=
  (List.range b.build.channels).flatMap (fun ch => (List.range 8).map (fun k =>
    let t := (chan b ch).roster.filter (fun e => e.1 / 256 == r * 8 + k)
    (ch, k, (List.range 256).map (fun slot => ownerOf (tget 0x80 t (slotKey r k slot))))))

/-- A class-0 owner, local or peer (R192). -/
def isPeer (o : Nat) : Bool := decide (4 ≤ o) && decide (o ≤ 7)
def isLocal (o : Nat) : Bool := decide (0x40 ≤ o)

/-- Rule ENCODING on one entry. -/
def entryOk (b : Build) (o : Option Nat) : Bool :=
  match o with
  | none => false
  | some o => o == 0 || o == 1 || (isPeer o && decide (o - 4 < b.peers)) || (isLocal o && decide ((o - 0x40) / 8 < b.channels))

/-- How many entries have the property. -/
def countOf (l : List (Option Nat)) (p : Nat → Bool) : Nat := (l.filter (fun e => match e with | some o => p o | none => false)).length

/-- The distinct owners of a cluster. -/
def ownerSet (l : List (Option Nat)) : List Nat := (l.filterMap id).eraseDups

/-- Rule GAP: every local owner of the cluster owns one of any 4 consecutive slots, counted cyclically. -/
def gapOk (l : List (Option Nat)) : Bool :=
  ((ownerSet l).filter isLocal).all (fun o =>
    let at_ (i : Nat) : Bool := l.getD (i % 256) none == some o
    (List.range 256).all (fun s => at_ s || at_ (s + 1) || at_ (s + 2) || at_ (s + 3)))

/-- Sources of a spine input (R208). -/
def spineSources (ch k : Nat) (l : List (Option Nat)) : Nat :=
  let s := ownerSet l
  (s.filter (fun o => isLocal o && (o - 0x40) / 8 == ch && (o - 0x40) % 8 != homePort k)).length
    + (if s.any (fun o => isPeer o || (isLocal o && (o - 0x40) / 8 != ch)) then 1 else 0)

/-- Ports of channel m that own a slot in a cluster of channel j, for which `p m j` holds. -/
def portsInto (rs : Owners) (m : Nat) (p : Nat → Bool) : List Nat :=
  (rs.flatMap (fun e => if p e.1 then (ownerSet e.2.2).filter (fun o => isLocal o && (o - 0x40) / 8 == m) else [])).eraseDups

/-- Sources of an X0 egress, and of a bridge output to X0 (R208). -/
def egressSources (rs : Owners) (n : Nat) : Nat := (portsInto rs n (fun j => j != n)).length
def bridgeSources (b : Build) (rs : Owners) (j : Nat) : Nat :=
  ((List.range b.channels).filter (fun m => m != j && !(portsInto rs m (fun c => c == j)).isEmpty)).length
    + (if rs.any (fun e => e.1 == j && (ownerSet e.2.2).any isPeer) then 1 else 0)

/-- Slots a link of a width may carry (R209): WIDTH is coded as PEERn_STAT.WIDTH. -/
def peerSlots (width : Nat) : Nat := if width = 3 then 102 else if width = 0 then 0 else 51

/-- Slots of a peer port in a roster. -/
def peerCount (rs : Owners) (n : Nat) : Nat := rs.foldl (fun a e => a + countOf e.2.2 (fun o => o == 4 + n)) 0

/-- The width that failed lanes allow (R290): 3 full, 1 the lower half, 2 the upper, 0 down. -/
def laneWidth (failed : BitVec 64) : Nat :=
  let lo := ones (failed.extractLsb' 0 32)
  let hi := ones (failed.extractLsb' 32 32)
  if lo ≤ 2 ∧ hi ≤ 2 then 3 else if lo ≤ 2 then 1 else if hi ≤ 2 then 2 else 0

/-- The lanes of a peer port that its fuses name (R242). -/
def fusedLanes (b : Block) (n : Nat) : BitVec 64 :=
  b.bring.laneFuse.foldl (fun m f => if f.1 = n then m ||| (1#64 <<< f.2) else m) 0

/-- The first place of a roster that breaks a rule of codes 1 to 6, as (rule, channel, cluster) (R207). DESIGN CHOICE (log 98): of several
places the first in channel order; X0 egress and the bridge stand as cluster 0, a peer port as channel and cluster 0. -/
def admitAlone (b : Block) (rs : Owners) : Option (Nat × Nat × Nat) :=
  let first (p : Nat × Nat × List (Option Nat) → Bool) (rule : Nat) : Option (Nat × Nat × Nat) :=
    (rs.find? p).map (fun e => (rule, e.1, e.2.1))
  let chans := List.range b.build.channels
  let bad1 := first (fun e => e.2.2.any (fun o => !entryOk b.build o)) 1
  let bad2 := first (fun e => decide (192 < countOf e.2.2 (fun o => isPeer o || isLocal o))) 2
  let bad3 := first (fun e => decide (countOf e.2.2 (fun o => o == 1) < 2)) 3
  let bad4 := first (fun e => !gapOk e.2.2) 4
  let bad5 := first (fun e => decide (2 < spineSources e.1 e.2.1 e.2.2)) 5
  let bad5x := (chans.find? (fun n => decide (2 < egressSources rs n) || decide (2 < bridgeSources b.build rs n))).map (fun n => (5, n, 0))
  let bad6 := ((List.range b.build.peers).find? (fun n => decide (peerSlots (laneWidth (fusedLanes b n)) < peerCount rs n))).map
    (fun _ => (6, 0, 0))
  [bad1, bad2, bad3, bad4, bad5, bad5x, bad6].findSome? id

/-- Rule SWITCH between two clusters of the same place: a local owner in both leaves more than 4 slots either way. -/
def switchBad (l m : List (Option Nat)) : Bool :=
  let firstOf (x : List (Option Nat)) (o : Nat) : Nat := (x.findIdx? (fun e => e == some o)).getD 0
  let lastOf (x : List (Option Nat)) (o : Nat) : Nat := 255 - (x.reverse.findIdx? (fun e => e == some o)).getD 0
  let gap (x y : List (Option Nat)) (o : Nat) : Nat := 256 + firstOf y o - lastOf x o
  ((ownerSet l).filter (fun o => isLocal o && (ownerSet m).contains o)).any (fun o => decide (4 < gap l m o) || decide (4 < gap m l o))

/-- The first cluster in which two rosters break rule SWITCH. -/
def switchPair (r q : Owners) : Option (Nat × Nat × Nat) :=
  ((r.zip q).find? (fun e => switchBad e.1.2.2 e.2.2.2)).map (fun e => (7, e.1.1, e.1.2.1))

/-- The admission of roster r among the declared rosters (R206, R207): none if it passes, else (rule, channel, cluster). -/
def admitRoster (b : Block) (rosters : List (Nat × Owners)) (r : Nat) : Option (Nat × Nat × Nat) :=
  match rosters.find? (fun e => e.1 == r) with
  | none => some (15, 0, 0)
  | some e => match admitAlone b e.2 with
    | some v => some v
    | none => (rosters.filter (fun q => decide (q.1 < r) && (admitAlone b q.2).isNone)).findSome? (fun q => switchPair e.2 q.2)

/-- The fallback roster of R210: OPEN, with DREDGE in slots 0 and 128 of every cluster. -/
def fallbackEntries : List (Nat × Nat) :=
  (List.range 8).flatMap (fun k => [(slotKey 0 k 0, 1), (slotKey 0 k 128, 1)])

/-- A roster's entries replaced in a channel. -/
def loadEntries (r : Nat) (new : List (Nat × Nat)) (t : Tbl Nat) : Tbl Nat := new ++ t.filter (fun e => e.1 / 2048 != r)

/-- Boot's admission of every declared roster, with its ROSTER_REJECT records (R206, R210). -/
def admitAll (b : Block) : Block :=
  let declared := (List.range 4).filter (fun r => bit b.arb.declared r)
  let rosters := declared.map (fun r => (r, ownersOf b r))
  let verdicts := (List.range 4).map (fun r => (r, admitRoster b rosters r))
  let rule := verdicts.map (fun v => (v.1, match v.2 with | none => 0 | some w => w.1))
  let adm : BitVec 4 := verdicts.foldl (fun m v => if v.2.isNone then m ||| (1#4 <<< v.1) else m) 0
  let b := { b with arb := { b.arb with rule := rule, admitted := adm } }
  verdicts.foldl (fun b v => match v.2 with
    | none => b
    | some (rl, ch, k) => if rl = 15 then b else
        emit b 0x14 (if rl = 6 then none else some ch) none (put 0 2 v.1 ||| put 4 3 rl ||| put 8 3 k)) b

/-- The roster activated at ready, with the fallback if none is admitted (R210). -/
def activateRoster (b : Block) : Block :=
  match (List.range 4).find? (fun r => bit b.arb.admitted r) with
  | some r => { b with arb := { b.arb with active := r } }
  | none =>
    let b := (List.range b.build.channels).foldl (fun b ch => setChan b ch (fun c => { c with
      roster := loadEntries 0 fallbackEntries c.roster })) b
    let copy := (List.range b.build.channels).flatMap (fun ch => fallbackEntries.map (fun e => (ch * 8192 + e.1, e.2)))
    { b with arb := { b.arb with fallback := true, active := 0, admitted := b.arb.admitted ||| 1#4,
                                 copy := copy ++ b.arb.copy.filter (fun e => e.1 / 2048 % 4 != 0) } }

/-! Rotations. -/

/-- ROTATION_START (R190, R217, R218): the next rotation begins, with a pending switch that is due. -/
def rotationStart (b : Block) : Block :=
  let next := b.arb.rotation + 1
  if b.arb.fresh = false ∧ next * 256 ≤ b.arb.bankCycles then
    let due := switchDue b (bankStart b (next * 256))
    { b with arb := { b.arb with
        rotation := next
        active := if due then b.arb.pend.getD b.arb.active else b.arb.active
        pend := if due then none else b.arb.pend } }
  else b

/-- BG_BUDGET.WINDOW in rotations (R200). -/
def budgetWindow (b : Block) : Nat := fld b.regs.bgBudgetA 56 8 + 1

/-- BUDGET_WINDOW_START (R200, R204): counts return to 0, and each source may report starvation again. -/
def budgetStart (b : Block) : Block :=
  if b.arb.budgetRot + budgetWindow b ≤ b.arb.rotation then
    { b with
      arb := { b.arb with budgetRot := b.arb.rotation, cwStarveRep := false }
      chans := b.chans.map (fun e => (e.1, { e.2 with budget := [], starveRep := [] })) }
  else b

/-- CONFLICT_WINDOW_END (R65). -/
def conflictEnd (b : Block) : Block :=
  if b.arb.fresh = false ∧ b.arb.confFrom + b.arb.confLen ≤ b.arb.bankCycles then
    { b with
      arb := { b.arb with confFrom := b.arb.confFrom + b.arb.confLen, confLen := max 1 (fld b.regs.conflictCtl 0 20) }
      chans := b.chans.map (fun e => (e.1, { e.2 with confWin := [], confBank := [], confRep := [] })) }
  else b

/-- CONFLICT_STORM (R65): one record a port and window. A THRESHOLD of 0 is taken as 1 (DESIGN CHOICE, log 89). -/
def conflictStorm (b : Block) (p : PortId) : Block :=
  let c := chan b p.ch
  let k := portCode p.port
  let n := tget 0 c.confWin k
  if bit b.regs.conflictCtl 24 && decide (max 1 (fld b.regs.conflictCtl 32 20) ≤ n) && !c.confRep.contains k then
    emit (setChan b p.ch (fun c => { c with confRep := c.confRep ++ [k] })) 0x12 (some p.ch) none
      (put 0 4 k ||| put 4 6 (tget 0 c.confBank k))
  else b

/-! Steps. -/

/-- The SHADOW fields take effect (R404). -/
def applyShadow (b : Block) : Block :=
  { b with regs := { b.regs with classLimitA := b.regs.classLimitW, bgBudgetA := b.regs.bgBudgetW } }

/-- A step boundary (R216, R217, R220). -/
def stepBoundary (b : Block) : Block :=
  let b := applyShadow b
  { b with arb := { b.arb with
      stepFrom := some (usNow b, b.time.ns), stepReported := false
      pendFrom := if b.arb.pendStep then b.now else b.arb.pendFrom, pendStep := false } }

/-- STEP_LONG (R220): one record a step. -/
def stepLong (b : Block) : Block :=
  match b.arb.stepFrom with
  | none => b
  | some (us, t) =>
    let l := fld b.regs.stepCtl 0 32
    if l ≠ 0 ∧ b.arb.stepReported = false ∧ usDue b us l = true then
      emit { b with arb := { b.arb with stepReported := true } } 0x19 none none t (put 0 32 l)
    else b

/-- A roster may be selected: admitted, and without an unrestored bad entry (R217, R221). -/
def selectable (b : Block) (r : Nat) : Bool :=
  bit b.arb.admitted r && !b.chans.any (fun e => e.2.rosterBad.any (fun k => k / 2048 == r))

/-- ROSTER_SELECT of an admitted roster (R217): the switch is pending. -/
def selectRoster (b : Block) (r : Nat) (now : Bool) : Block :=
  { b with arb := { b.arb with pend := some r, pendStep := !now, pendFrom := b.now } }

/-! Peer reservations (R211). -/

/-- The width a peer port offers a reservation. -/
def linkWidth (l : Link) : Nat :=
  match l.state with
  | .active | .retraining => l.width
  | .hello => if l.retr then l.width else 0
  | _ => 0

/-- Slots of a peer port in a roster of the registers. -/
def rosterPeer (b : Block) (r n : Nat) : Nat :=
  b.chans.foldl (fun a e => a + (e.2.roster.filter (fun s => s.1 / 2048 == r && ownerOf s.2 == some (4 + n))).length) 0

/-- PEER_RESERVATION_RECHECK (R211). -/
def peerRecheck (b : Block) (n : Nat) : Block :=
  let most := peerSlots (linkWidth (linkOf b n))
  (List.range 4).foldl (fun b r =>
    let k := rosterPeer b r n
    let was := b.arb.degraded.contains (r, n)
    let bad := decide (most < k)
    let p3 := put 0 2 r ||| put 4 2 n
    if bit b.arb.admitted r && decide (0 < k) then
      if bad && !was then emit { b with arb := { b.arb with degraded := b.arb.degraded ++ [(r, n)] } } 0x15 none none p3
      else if was && !bad then emit { b with arb := { b.arb with degraded := b.arb.degraded.filter (fun e => e != (r, n)) } } 0x16 none none p3
      else b
    else b) b

/-! Parity (R221, R417). -/

/-- One entry of one inactive roster a bank cycle is checked in every cluster (R221): the inactive rosters take turns. -/
def inactiveCheck (b : Block) : Block :=
  let inactive := (List.range 4).filter (fun r => r != b.arb.active)
  let r := inactive.getD (b.arb.bankCycles / 256 % 3) 0
  let slot := b.arb.bankCycles % 256
  (List.range b.build.channels).foldl (fun b ch =>
    let bad := (chan b ch).roster.filter (fun e => e.1 / 2048 == r && e.1 % 256 == slot && !parOk e.2 && !(chan b ch).rosterBad.contains e.1)
    bad.foldl (fun b e => parityCheck b ch r (e.1 / 256 % 8) slot) b) b

/-- The lowest-numbered other admitted roster. -/
def otherRoster (b : Block) (r : Nat) : Option Nat := (List.range 4).find? (fun q => q != r && selectable b q)

/-- ROSTER_RESTORE (R221, R417): the word of a bad entry is rewritten from the sequencer's copy and read back. -/
def rosterRestore (b : Block) (ch r k slot : Nat) (readbackOk : Bool) : Block :=
  let key := slotKey r k slot
  let c := chan b ch
  if c.rosterBad.contains key = false then b
  else
    let word := (List.range 8).map (fun i => slotKey r k (slot / 8 * 8 + i))
    let found := slotEntry c r k slot
    let vals := word.map (fun w => (w, tget 0x80 b.arb.copy (ch * 8192 + w)))
    let b := setChan b ch (fun c => { c with roster := vals ++ c.roster.filter (fun e => !word.contains e.1) })
    if readbackOk && vals.all (fun v => parOk v.2) then
      setChan b ch (fun c => { c with rosterBad := c.rosterBad.filter (fun w => !word.contains w) })
    else
      let b := emit b 0x18 (some ch) none (put 0 2 r ||| put 4 3 k ||| put 8 8 slot ||| put 16 8 found)
      let b := { b with
        arb := { b.arb with admitted := b.arb.admitted &&& ~~~(1#4 <<< r), rule := tset b.arb.rule r 1 }
        safety := { b.safety with flags := b.safety.flags ||| 0x20#6 } }
      if b.arb.active = r then match otherRoster b r with
        | some q => selectRoster b q true
        | none => b
      else b

/-! Starvation (R202 to R205). -/

/-- The wait count at which an operation is reported (R204, R205). -/
def reportAt (b : Block) : Nat := if starveForces b then 2 * starveLimit b else starveLimit b

/-- One STARVE record, unless the source has written one for its channel in this budget window. -/
def starveRecord (b : Block) (ch : Option Nat) (src : Nat) (cls : Nat) (p3 : Word) (count : Nat) : Block :=
  let p3 := p3 ||| put 0 4 src ||| put 4 3 cls ||| put 32 14 (min 8192 count)
  match ch with
  | none => if b.arb.cwStarveRep then b else emit { b with arb := { b.arb with cwStarveRep := true } } 0x13 none none p3
  | some n =>
    let b := setChan b n (fun c => { c with starved := c.starved ||| (1#9 <<< min src 8) })
    if (chan b n).starveRep.contains src then b
    else emit (setChan b n (fun c => { c with starveRep := c.starveRep ++ [src] })) 0x13 (some n) none p3

/-- The operations that wait at a channel's banks. -/
def bankWaiters (b : Block) (ch : Nat) : List LineOp :=
  b.ops.filter (fun op => op.ch == ch && (op.stage == .bank || op.stage == .store) && decide (op.readyAt ≤ b.now))

/-- Owned transfers carry owned lines, or the descriptor pointer or tally operation of an owned cluster (R112, R189). A beat with two lines
ranks by its first one (DESIGN CHOICE, log 83); a request to S0 or to another instance is unowned (R272; log 84). -/
def xferOwned (b : Block) (x : Xfer) : Bool :=
  match x.payload with
  | .lines (op :: _) => opOwned b op
  | .desc uid | .tally uid => match txnOf b uid with
    | some t =>
      let seam := t.seam.getD 0
      let l := locOf b.build (seamOf b seam) (localOf t.req.addr / 128)
      isOwned b x.cls seam l.ch (l.bank / 8) x.org
    | none => false
  | _ => false

/-- The wait count of a transfer (R202). -/
def xferWait (b : Block) (x : Xfer) : Nat := x.waited + (b.now - x.readyAt)

/-- Transfers at a path in their order. -/
def pathXfers (b : Block) (p : PathId) : List Xfer := b.xfers.filter (fun x => decide (x.path = p))

/-- Where a path's record belongs: PATH, channel, cluster (R204, R425). -/
def pathPlace (p : PathId) (src : Nat) : Nat × Option Nat × Nat :=
  match p with
  | .spine ch k => (0, some ch, k)
  | .x0e ch => (1, some ch, 0)
  | .brX0 _ => (2, if src = 8 then none else some src, 0)
  | .brS0 => (3, if src < 8 then some src else none, 0)
  | .brCw => (4, if src < 8 then some src else none, 0)

/-- STARVE (R204, R205). -/
def starveRow (b : Block) (w : StarvedAt) : Block :=
  match w with
  | .bank ch n =>
    match (bankWaiters b ch)[n]? with
    | none => b
    | some op =>
      if opOwned b op = false ∧ op.reported = false ∧ reportAt b ≤ opWait b op then
        let b := { b with ops := b.ops.map (fun o => if o.serial = op.serial then { o with reported := true } else o) }
        starveRecord b (some ch) (min 8 (op.src)) op.cls (put 8 3 (opCluster op)) (opWait b op)
      else b
  | .path p n =>
    match (pathXfers b p)[n]? with
    | none => b
    | some x =>
      if xferOwned b x = false ∧ x.reported = false ∧ reportAt b ≤ xferWait b x then
        let b := { b with xfers := b.xfers.map (fun y => if y.serial = x.serial then { y with reported := true } else y) }
        let (code, ch, k) := pathPlace p x.src
        let src := match p with | .spine _ _ | .x0e _ => x.src | _ => if ch.isSome then 8 else 9
        starveRecord b ch src x.cls (putBit 7 true ||| put 8 3 k ||| put 11 3 code) (xferWait b x)
      else b

/-- The build has the path. -/
def pathOk (b : Block) (p : PathId) : Bool :=
  match p with | .spine c k => chanOk b c && decide (k < 8) | .x0e c | .brX0 c => chanOk b c | _ => true

/-! The commands. -/

/-- ROTATION_START (R190, R217, R218). -/
def execRotationStart (s : State) : Host.Outcome State Fault Refusal := done s (rotationStart s.blk)

/-- BUDGET_WINDOW_START (R200). -/
def execBudgetWindowStart (s : State) : Host.Outcome State Fault Refusal := done s (budgetStart s.blk)

/-- STARVE (R204, R205). -/
def execStarve (w : StarvedAt) (s : State) : Host.Outcome State Fault Refusal :=
  guarded (match w with | .bank ch _ => chanOk s.blk ch | .path p _ => pathOk s.blk p) s (starveRow s.blk w)

/-- CONFLICT_WINDOW_END (R65). -/
def execConflictWindowEnd (s : State) : Host.Outcome State Fault Refusal := done s (conflictEnd s.blk)

/-- CONFLICT_STORM (R65). -/
def execConflictStorm (p : PortId) (s : State) : Host.Outcome State Fault Refusal := guarded (chanOk s.blk p.ch) s (conflictStorm s.blk p)

/-- STEP_LONG (R220). -/
def execStepLong (s : State) : Host.Outcome State Fault Refusal := done s (stepLong s.blk)

/-- PEER_RESERVATION_RECHECK (R211). -/
def execPeerReservationRecheck (n : Nat) (s : State) : Host.Outcome State Fault Refusal := guarded (peerOk s.blk n) s (peerRecheck s.blk n)

/-- ROSTER_RESTORE (R221, R417). -/
def execRosterRestore (ch roster cluster slot : Nat) (readbackOk : Bool) (s : State) : Host.Outcome State Fault Refusal :=
  guarded (chanOk s.blk ch) s (rosterRestore s.blk ch roster cluster slot readbackOk)

end Sys2Proof.Machine
end

