-- ==== Sys2Proof/Machine/Links.lean ====
section
/-! DEFINITION. Peer links (R289 to R308, R321): messages, flits, credits and retry, link states, routing by destination
and the protocol checker. -/

namespace Sys2Proof.Machine

/-! Messages (R300). -/

/-- The virtual channel of a message: 0 request, 1 response, 2 control (R298). -/
def vcOf (k : MKind) : Nat := match k with | .request | .writeLine => 0 | .response => 1 | .control => 2
/-- MAP codes of R296. -/
def mapCode (k : MKind) : Nat := match k with | .request => 1 | .writeLine => 2 | .response => 3 | .control => 4
def kindOfMap (c : Nat) : Option MKind :=
  if c = 1 then some .request else if c = 2 then some .writeLine else if c = 3 then some .response else if c = 4 then some .control else none

/-- Where HOPS lies in a header. -/
def hopsAt (k : MKind) : Nat := match k with | .request => 124 | .writeLine => 53 | .response => 72 | .control => 17
def Msg.hops (m : Msg) : Nat := fld m.hdr (hopsAt m.kind) 4
def Msg.ctype (m : Msg) : Nat := fld m.hdr 0 4
def Msg.bcast (m : Msg) : Bool := m.kind == .control && bit m.hdr 16
/-- SRC_INST and the destination instance (R304). -/
def Msg.src (m : Msg) : Nat :=
  match m.kind with | .request => fld m.hdr 112 6 | .writeLine => fld m.hdr 8 6 | .response => fld m.hdr 32 6 | .control => fld m.hdr 4 6
def Msg.dst (m : Msg) : Nat :=
  match m.kind with | .request => fld m.hdr 55 6 | .writeLine => fld m.hdr 20 6 | .response => fld m.hdr 26 6 | .control => fld m.hdr 10 6
/-- ORIG. -/
def Msg.orig (m : Msg) : Nat :=
  match m.kind with | .request => fld m.hdr 118 6 | .writeLine => fld m.hdr 14 6 | .response => fld m.hdr 38 6 | .control => 0

/-- A header with a field set. -/
def putHdr (h : BitVec 128) (lo len v : Nat) : BitVec 128 :=
  (h &&& ~~~(BitVec.ofNat 128 ((2 ^ len - 1) <<< lo))) ||| BitVec.ofNat 128 ((v % 2 ^ len) <<< lo)
def withHops (m : Msg) (h : Nat) : Msg := { m with hdr := putHdr m.hdr (hopsAt m.kind) 4 h }

/-- The chunks a header implies: byte enables and data. -/
def hasBe (k : MKind) (h : BitVec 128) : Bool := k == .writeLine && bit h 51
def hasData (k : MKind) (h : BitVec 128) : Bool :=
  match k with | .request => false | .writeLine => true | .response => bit h 71 | .control => fld h 0 4 == 3
def needOf (k : MKind) (h : BitVec 128) : Nat := 1 + (if hasBe k h then 1 else 0) + (if hasData k h then 8 else 0)
def Msg.len (m : Msg) : Nat := needOf m.kind m.hdr
def lineChunks (d : LineData) : List (BitVec 128) := (List.range 8).map (fun i => d.extractLsb' (128 * i) 128)
def Msg.chunks (m : Msg) : List (BitVec 128) :=
  (m.hdr :: (if hasBe m.kind m.hdr then [m.be.getD 0] else [])) ++ (if hasData m.kind m.hdr then lineChunks (m.data.getD 0) else [])

/-- A message from the chunks of its kind. -/
def msgOf (k : MKind) (cs : List (BitVec 128)) : Msg :=
  let h := cs.headD 0
  let rest := cs.drop 1
  let be := if hasBe k h then some (rest.headD 0) else none
  let ds := if hasBe k h then rest.drop 1 else rest
  let data := if hasData k h then some (BitVec.ofNat 1024 (ds.foldr (fun c a => a * 2 ^ 128 + c.toNat) 0)) else none
  { kind := k, hdr := h, be := be, data := data, since := 0, inp := 4, seq := 0, chunk := 0 }

/-- A control message of this instance (R301): CTYPE, destination, BCAST and the fields of its type. -/
def ctlMsg (b : Block) (ctype dst : Nat) (bcast : Bool) (fields : Nat) : Msg :=
  { kind := .control, hdr := BitVec.ofNat 128 (ctype % 16 + (b.cw.instNum % 64) * 16 + (dst % 64) * 1024
      + (if bcast then 65536 else 0) + fields), be := none, data := none, since := b.now, inp := 4, seq := 0, chunk := 0 }

/-- Bits of a header that are reserved for its kind and type, or a reserved code (R300, R301; checker code 6). -/
def fieldsOk (m : Msg) : Bool :=
  let zeroFrom (n : Nat) : Bool := m.hdr >>> n == 0
  match m.kind with
  | .request => true
  | .writeLine => zeroFrom 57
  | .response => zeroFrom 78 && decide (fld m.hdr 8 4 ≤ 11) && decide (fld m.hdr 76 2 ≤ 1)
  | .control =>
    match m.ctype with
    | 1 => zeroFrom 42 | 2 => zeroFrom 21 | 3 => zeroFrom 45 | 4 => zeroFrom 78 | 5 => zeroFrom 23 | 6 => zeroFrom 22
    | 7 => zeroFrom 75 | 8 => zeroFrom 43 | 9 => zeroFrom 21 | 10 => zeroFrom 21 | 11 => zeroFrom 22 | 12 => zeroFrom 21
    | _ => false

/-! Links. -/

/-- PEERn_STAT.STATE. -/
def LState.code (s : LState) : Nat :=
  match s with | .down => 0 | .training => 1 | .hello => 2 | .active => 3 | .retraining => 4 | .held => 5 | .disabled => 6

/-- The link is ACTIVE or RETRAINING, the HELLO at the end of retraining included (R293, R304). -/
def linkLive (l : Link) : Bool :=
  match l.state with | .active | .retraining => true | .hello => l.retr | _ => false

/-- Ports that are ACTIVE. -/
def activePorts (b : Block) : List Nat := (List.range b.build.peers).filter (fun n => (linkOf b n).state == .active)

/-- The receive buffers of R298. -/
def vcBuffer (vc : Nat) : Nat := if vc = 0 then 1024 else if vc = 1 then 2048 else 64
def getVc (t : Nat × Nat × Nat) (vc : Nat) : Nat := if vc = 0 then t.1 else if vc = 1 then t.2.1 else t.2.2
def addVc (t : Nat × Nat × Nat) (vc n : Nat) : Nat × Nat × Nat :=
  if vc = 0 then (t.1 + n, t.2) else if vc = 1 then (t.1, t.2.1 + n, t.2.2) else (t.1, t.2.1, t.2.2 + n)
def subVc (t : Nat × Nat × Nat) (vc n : Nat) : Nat × Nat × Nat :=
  if vc = 0 then (t.1 - n, t.2) else if vc = 1 then (t.1, t.2.1 - n, t.2.2) else (t.1, t.2.1, t.2.2 - n)

/-- A record of a link (R294). -/
def linkRecord (b : Block) (ty n : Nat) : Block :=
  let l := linkOf b n
  emit b ty none none (put 0 2 n ||| put 2 3 l.state.code ||| put 5 2 l.width ||| put 7 6 l.partner ||| putBit 13 l.partnerValid) l.failed

/-- Event code taps of the links (R444): P0 to P3 are ports 10 to 13. -/
def peerTap (b : Block) (ev n : Nat) : Block := count b ev { port := 10 + n } 1

/-! The checker (R321). -/

/-- The record of a ms that has ended. -/
def flushViolations (b : Block) (n : Nat) : Block :=
  match (linkOf b n).chkMs with
  | some (ms, code, k) =>
    if ms = b.time.ns.toNat / 1000000 then b
    else emit (setLink b n (fun l => { l with chkMs := none })) 0x44 none none (put 0 2 n ||| put 4 4 code ||| put 32 32 k)
  | none => b

/-- A violation: its counter, its log entry, which may overwrite the oldest one, and the record that is due (log 24). -/
def violate (b : Block) (n code : Nat) (head : BitVec 32) (chunk seq : Nat) : Block :=
  let b := flushViolations b n
  setLink b n (fun l =>
    { l with
      chk := tmod 0 l.chk code (fun v => satAdd cap48 v 1)
      log := tset l.log l.logNext { time := b.time.ns, head := head, chunk := chunk, seq := seq, code := code }
      logNext := (l.logNext + 1) % 64
      logWrap := l.logWrap || (l.log.any (fun e => e.1 == l.logNext))
      chkMs := match l.chkMs with
        | some (ms, c, k) => some (ms, c, satAdd (2 ^ 32 - 1) k 1)
        | none => some (b.time.ns.toNat / 1000000, code, 1) })

/-- A violation found in a message. -/
def violateMsg (b : Block) (n code : Nat) (m : Msg) : Block := violate b n code (m.hdr.extractLsb' 0 32) m.chunk m.seq

/-! Routing (R304, R305, R307). -/

/-- The enabled options of a ROUTEd entry, in order, as (option, port). -/
def routeOpts (v : Nat) : List (Nat × Nat) :=
  if (v >>> 15) % 2 = 0 then []
  else ([0, 1, 2] : List Nat).filterMap (fun o => if (v >>> (4 * o + 3)) % 2 = 1 then some (o, (v >>> (4 * o)) % 4) else none)

/-- The first live option of a destination. -/
def pickRoute (b : Block) (d : Nat) : Option (Nat × Nat) :=
  (routeOpts (tget 0 b.cw.route d)).find? (fun e => peerOk b e.2 && linkLive (linkOf b e.2))

/-- A message is placed in a port's queue with HOPS increased, or discarded at the hop limit (R304). -/
def hopLimit (b : Block) : Nat := max 1 (fld b.cw.ctl 0 4)
def queueTo (b : Block) (n : Nat) (m : Msg) : Block :=
  setLink b n (fun l => { l with tx := l.tx ++ [{ m with since := b.now }] })
def sendTo (b : Block) (n : Nat) (m : Msg) : Block :=
  if hopLimit b < m.hops + 1 then { b with cw := { b.cw with hopDropped := satAdd 65535 b.cw.hopDropped 1 } }
  else
    let b := if m.inp < 4 then count b 0x3C { port := 10 + n } 1 else b
    queueTo b n (withHops m (m.hops + 1))

/-- A unicast message to a destination with a live option: it takes it, or waits for a route change (R307). -/
def sendRouted (b : Block) (d port : Nat) (m : Msg) : Block :=
  if tget 0 b.cw.changing d ≠ 0 then { b with cw := { b.cw with held := b.cw.held ++ [(d, m.inp, m)] } }
  else sendTo b port m

/-- A message for another instance, and whether its destination had a live option. -/
def routeMsg (b : Block) (m : Msg) : Block × Bool :=
  match pickRoute b m.dst with
  | some (_, p) => (sendRouted b m.dst p m, true)
  | none => (b, false)

/-- A control message toward one instance is routed, or discarded (R305). -/
def routeCtl (b : Block) (m : Msg) : Block :=
  if m.dst = b.cw.instNum then { b with cw := { b.cw with local_ := b.cw.local_ ++ [m] } } else (routeMsg b m).1

/-- A message flooded on every ACTIVE port but `skip`. -/
def flood (b : Block) (skip : Option Nat) (m : Msg) : Block :=
  ((activePorts b).filter (fun n => some n != skip)).foldl (fun b n => sendTo b n m) b

/-- A message toward the pithead (R301): by the parent port before the routes are loaded, by ROUTEd afterwards. -/
def towardPithead (b : Block) (m : Msg) : Block :=
  if b.cw.routes ∨ b.cw.pitheadInst = b.cw.instNum then routeCtl b m
  else match b.cw.parent with
    | some n => if linkLive (linkOf b n) then sendTo b n m else b
    | none => b

/-- A queued message's destination, 64 for one that is not unicast. -/
def msgGoal (m : Msg) : Nat := if m.kind = .control ∧ (m.bcast = true ∨ m.ctype ≤ 2 ∨ m.ctype = 7 ∨ m.ctype = 12) then 64 else m.dst

/-- The flits or messages of a destination that a port still has to deliver, one whose rest has yet to go among them (R307). -/
def portBusy (l : Link) (d : Nat) : Bool :=
  l.state != .down && l.state != .disabled && (l.carried.any (fun e => e.2 == d) || l.txRest.any (fun e => e.1 == d))

/-- The options in use follow the links and the table; a destination whose port changes waits for the old one (R307). -/
def refreshRoute (b : Block) (d : Nat) : Block :=
  match pickRoute b d with
  | none => b
  | some (o, p) =>
    let old := tget 0 b.cw.usePort d
    let b := { b with cw := { b.cw with inUse := tset b.cw.inUse d o, usePort := tset b.cw.usePort d (p + 1) } }
    if old = 0 ∨ old = p + 1 then b
    else
      let l := linkOf b (old - 1)
      let moved := l.tx.filter (fun m => msgGoal m == d)
      let b := setLink b (old - 1) (fun l => { l with tx := l.tx.filter (fun m => msgGoal m != d) })
      let b := if portBusy l d then { b with cw := { b.cw with changing := tset b.cw.changing d old } } else b
      moved.foldl (fun b m => sendRouted b d p (withHops m (m.hops - 1))) b
def refreshRoutes (b : Block) : Block := (List.range 64).foldl refreshRoute b

/-- A ROUTEd entry written (R307, R322). -/
def writeRoute (b : Block) (d v : Nat) : Block :=
  refreshRoute { b with cw := { b.cw with route := tset b.cw.route d (v % 65536 &&& 0x8BBB) },
                        safety := { b.safety with routeCopy := tset b.safety.routeCopy d (v % 65536 &&& 0x8BBB) } } d

/-! Link states. -/

/-- The record a change of state writes (R294). The spec names four types for every change: DESIGN CHOICE (log 91), DOWN and DISABLED
write LINK_DOWN, HELD writes LINK_HELD, ACTIVE writes LINK_UP, and the states in between, like a change of width, write LINK_WIDTH. -/
def linkType (st : LState) : Nat :=
  match st with | .active => 0x40 | .down | .disabled => 0x41 | .training | .hello | .retraining => 0x42 | .held => 0x43

/-- A port enters a state (R294). -/
def enterLink (b : Block) (n : Nat) (st : LState) : Block :=
  linkRecord (setLink b n (fun l => { l with state := st, downUs := usNow b })) (linkType st) n

/-- A port enters DOWN, HELD or DISABLED: its unacknowledged flits are lost, its queued messages take another option if
their destination has one (R308). -/
def loseLink (b : Block) (n : Nat) (st : LState) : Block :=
  let l := linkOf b n
  let b := setLink b n (fun l => { l with
    state := st, downUs := usNow b, attempts := 0, retr := false, lostFlits := satAdd 65535 l.lostFlits l.replay.length
    width := if st = .held then l.width else 0
    replay := [], sentAt := [], replayPos := none, replayTries := 0, nakDue := false, nakSent := false, carried := [], txRest := none, tx := []
    partialKind := none, partialChunks := [], helloSent := false, helloGot := false, owed := (0, 0, 0) })
  let b := linkRecord b (linkType st) n
  let b := refreshRoutes b
  (l.tx.filter (fun m => msgGoal m != 64)).foldl (fun b m => (routeMsg b (withHops m (m.hops - 1))).1) b

/-- The PHY has trained (R291, R292): link layer state starts anew, and HELLO is exchanged. -/
def trained (b : Block) (n : Nat) (failed : BitVec 64) (width : Nat) : Block :=
  let b := setLink b n (fun l => { l with
    width := width, failed := failed, retr := false, helloSent := false, helloGot := false
    partnerValid := false, seqNext := 0, seqExp := 0, nakDue := false, nakSent := false, replay := [], sentAt := [], replayPos := none
    replayTries := 0, skip := false, beaconed := false, imaged := false, carried := [], txRest := none, partialKind := none, partialChunks := []
    credit := (vcBuffer 0, vcBuffer 1, vcBuffer 2), owed := (0, 0, 0) })
  enterLink b n .hello

/-- One more attempt, or DOWN after the fourth (R291). -/
def nextAttempt (b : Block) (n : Nat) : Block :=
  if (linkOf b n).attempts < 4 then setLink b n (fun l => { l with attempts := l.attempts + 1, downUs := usNow b })
  else loseLink b n .down

/-- The width that both ends of a link can reach, given the failed lanes of each (R290): WIDTH has a bit for each half. -/
def commonWidth (own partner : BitVec 64) : Nat := laneWidth own &&& laneWidth partner

/-- TRAINING_COMPLETE (R290, R291). -/
def trainingDone (b : Block) (n : Nat) (t : Trained) : Block :=
  if (linkOf b n).state ≠ .training then b
  else
    let failed := t.failed ||| fusedLanes b n
    let w := commonWidth failed t.partner
    if t.ok ∧ w ≠ 0 then trained b n failed w else nextAttempt (setLink b n (fun l => { l with failed := failed })) n

/-- TRAINING_ATTEMPT_TIMEOUT (R291): an attempt ends within 5 ms. -/
def trainingTimeout (b : Block) (n : Nat) : Block :=
  let l := linkOf b n
  if l.state = .training ∧ usDue b l.downUs 5000 = true then nextAttempt b n else b

/-- A new sequence of attempts begins (R291). -/
def startTraining (b : Block) (n : Nat) : Block := setLink (enterLink b n .training) n (fun l => { l with attempts := 1 })

/-- PARTNER_TRAINING (R291). -/
def partnerTrains (b : Block) (n : Nat) : Block := if (linkOf b n).state = .down then startTraining b n else b

/-- LINK_RETRY (R291): every LINK_RETRY seconds; the first sequence after causeway reset starts at once (log 25). -/
def linkRetry (b : Block) (n : Nat) : Block :=
  let l := linkOf b n
  let secs := fld b.cw.ctl 16 16
  let firstSeq := l.downUs == 0 && l.lostFlits == 0 && l.attempts == 0
  if l.state = .down ∧ (firstSeq = true ∨ (secs ≠ 0 ∧ usDue b l.downUs (secs * 1000000) = true)) then startTraining b n else b

/-- A trained port starts to retrain, one that exchanges HELLO too (R293). -/
def startRetrain (b : Block) (n : Nat) : Block :=
  let was := (linkOf b n).state
  if was = .active ∨ was = .hello then
    enterLink (setLink b n (fun l => { l with
      retrains := satAdd 65535 l.retrains 1, retr := l.retr || was == .active
      oldWidth := if was = .active then l.width else l.oldWidth })) n .retraining
  else b

/-- RETRAIN_END (R293): HELLO again with the width reached, or DOWN. -/
def retrainEnd (b : Block) (n : Nat) (t : Trained) : Block :=
  let l := linkOf b n
  if l.state ≠ .retraining then b
  else
    let failed := t.failed ||| fusedLanes b n
    let w := commonWidth failed t.partner
    if t.ok ∧ w ≠ 0 ∧ usDue b l.downUs 100 = false then
      enterLink (setLink b n (fun l => { l with
        failed := failed, helloSent := false, helloGot := false, replayTries := 0
        replayPos := if l.replay.isEmpty then none else some 0, width := w })) n .hello
    else loseLink (setLink b n (fun l => { l with failed := failed })) n .down

/-- The partner that CW_NBR expects at a port, once the routes are loaded (R292). -/
def expected (b : Block) (n : Nat) : Option Nat :=
  let v := fld b.cw.nbr (7 * n) 7
  if b.cw.routes = true ∧ 64 ≤ v then some (v % 64) else none

/-- The block is the pithead (R315, R316). -/
def isPithead (b : Block) : Bool := b.cw.pitheadSel && !b.cw.demoted

/-- The pithead's BEACON, as it sends it and as a worker passes it on, with the HOPS it came with (R304, R315). -/
def beaconMsg (b : Block) : Msg :=
  let m := ctlMsg b 2 0 true 0
  withHops { m with hdr := putHdr m.hdr 4 6 b.cw.pitheadInst } b.cw.beaconHops

/-- IMAGE and IMAGE_END messages of the image in the store (R301, R316, R327): the last is padded with zeros. -/
def imageMsgs (b : Block) (dst : Nat) (bcast : Bool) : List Msg :=
  let len := leNat ((b.bring.store.drop 8).take 4)
  let img := b.bring.store.take len
  (List.range ((len + 127) / 128)).map (fun k =>
      { ctlMsg b 3 dst bcast (128 * k * 2 ^ 21) with data := some (lineOfBytes ((img.drop (128 * k)).take 128)) })
    ++ [ctlMsg b 4 dst bcast (len * 2 ^ 21 + (crc32c img).toNat * 2 ^ 46)]

/-- Messages sent on one port. -/
def sendAll (b : Block) (n : Nat) (l : List Msg) : Block := l.foldl (fun b m => sendTo b n m) b

/-- The pithead is out of reset, and its boot has not failed (R315, R340). -/
def pitheadUp (b : Block) : Bool := isPithead b && !b.bring.inReset && b.bring.phase != 15

/-- The pithead's BEACON, and its image once it has one, each once on a port since its link trained (R315, R316). -/
def feedPort (b : Block) (n : Nat) : Block :=
  let l := linkOf b n
  let b := if l.beaconed then b else sendTo (setLink b n (fun l => { l with beaconed := true })) n (beaconMsg b)
  if l.imaged = true ∨ b.cw.imageReady = false then b
  else sendAll (setLink b n (fun l => { l with imaged := true })) n (imageMsgs b b.cw.instNum true)

/-- What an instance sends on a port that has become ACTIVE (R315 to R317): the pithead its BEACON, and the image once it has
one, an instance woken from Off its BOOT_REQ, a worker that waits for its START the BEACON it has received. -/
def onActive (b : Block) (n : Nat) : Block :=
  if isPithead b then
    (if pitheadUp b then feedPort b n else b)
  else if b.cw.asking then sendTo b n (ctlMsg b 12 0 true 0)
  else if b.cw.started then b
  else match b.cw.parent with
    | some p => if p = n then b else sendTo b n (beaconMsg b)
    | none => b

/-- Both ends have sent and received HELLO: the link is in service (R292, R294). -/
def tryActive (b : Block) (n : Nat) : Block :=
  let l := linkOf b n
  if l.state = .hello ∧ l.helloSent = true ∧ l.helloGot = true then
    let b := setLink b n (fun l => { l with state := .active, downUs := usNow b, retr := false, attempts := 0 })
    let b := refreshRoutes (linkRecord b (if l.retr && decide (l.oldWidth ≠ l.width) then 0x42 else linkType .active) n)
    if l.retr then b else onActive b n
  else b

end Sys2Proof.Machine
end

