-- ==== Sys2Proof/Machine/Flits.lean ====
section
/-! DEFINITION. Flits (R295 to R299, R306, R321): what a port does with a flit it receives, and the flit it sends. -/

namespace Sys2Proof.Machine

/-! Link control (R296). -/

def flitKind (f : Flit) : Nat := fld f.ctl 0 2
def flitSeq (f : Flit) : Nat := fld f.ctl 2 12
def flitAck (f : Flit) : Nat := fld f.ctl 14 12
def flitMap (f : Flit) (k : Nat) : Nat := fld f.ctl (3 * k + 23) 3
def flitChunk (f : Flit) (k : Nat) : BitVec 128 := f.body.extractLsb' (128 * (k - 1)) 128

/-- The CRC of bytes 0 to 11 and 16 to 255 (R297). -/
def flitCrc (ctl : BitVec 96) (body : BitVec 1920) : BitVec 32 := crc32c (leBytes 12 ctl.toNat ++ leBytes 240 body.toNat)

/-- A flit with its CRC. -/
def mkFlit (ctl : BitVec 96) (body : BitVec 1920) : Flit := { ctl := ctl, crc := flitCrc ctl body, body := body }

/-! Receive. -/

/-- Chunks of a virtual channel in a port's receive buffer. -/
def rxChunks (l : Link) (vc : Nat) : Nat := (l.rx.filter (fun m => vcOf m.kind == vc)).foldl (fun a m => a + m.len) 0

/-- SEQ of the flits that are sent and not acknowledged, oldest first. -/
def outSeqs (l : Link) : List Nat := l.replay.map flitSeq

/-- The last acknowledged SEQ. -/
def ackedSeq (l : Link) : Nat := (l.seqNext + 4096 - l.replay.length + 4095) % 4096

/-- An acknowledgement frees the flits it covers; one that names no outstanding flit is a violation and ignored (R299, R321). -/
def takeAck (b : Block) (n : Nat) (f : Flit) : Block :=
  let l := linkOf b n
  let a := flitAck f
  if a = ackedSeq l then b
  else match (outSeqs l).findIdx? (fun s => s == a) with
    | none => violate b n 3 (f.ctl.extractLsb' 0 32) 0 (flitSeq f)
    | some i =>
      let gone := (outSeqs l).take (i + 1)
      setLink b n (fun l => { l with
        replay := l.replay.drop (i + 1), carried := l.carried.filter (fun e => !gone.contains e.1), replayTries := 0, sentAt := l.sentAt.drop (i + 1)
        replayPos := match l.replayPos with
          | some p => if p ≤ i + 1 then (if l.replay.length ≤ i + 1 then none else some 0) else some (p - (i + 1))
          | none => none })

/-- Credits come back (R298), up to the partner's buffer. -/
def takeCredits (b : Block) (n : Nat) (f : Flit) : Block :=
  setLink b n (fun l => { l with credit :=
    (min 1024 (l.credit.1 + fld f.ctl 71 8), min 2048 (l.credit.2.1 + fld f.ctl 79 8), min 64 (l.credit.2.2 + fld f.ctl 87 4)) })

/-- A replay starts, or the port retrains once a flit has been replayed 4 times (R293, R299). -/
def startReplay (b : Block) (n : Nat) : Block :=
  let l := linkOf b n
  if l.replay.isEmpty then b
  else if 4 ≤ l.replayTries then startRetrain b n
  else setLink b n (fun l => { l with
    replayPos := some 0, replayTries := l.replayTries + 1, replays := satAdd 65535 l.replays 1 })

/-- HELLO takes no credits (log 27). -/
def isHello (m : Msg) : Bool := m.kind == .control && m.ctype == 1

/-- A port takes messages other than HELLO while it is in service, at the end of a retraining too, and behind the partner's HELLO, which
says that the partner is about to go into service (R291 to R293). -/
def takesMsgs (l : Link) : Bool :=
  match l.state with | .active => true | .hello => l.retr || l.helloGot || l.rx.any isHello | _ => false

/-- The violation of a message whose chunks exceed the credits: its log entry names the flit's link control (R321, R322). -/
def violateCredit (b : Block) (n : Nat) (f : Flit) : Block := violate b n 4 (f.ctl.extractLsb' 0 32) 0 (flitSeq f)

/-- A message is complete: its fields, hops and credits are checked, and it joins the receive buffer (R298, R321). -/
def messageIn (b : Block) (n : Nat) (f : Flit) (m : Msg) : Block :=
  let l := linkOf b n
  let vc := vcOf m.kind
  if fieldsOk m = false then violateMsg b n 6 m
  else if hopLimit b < m.hops then violateMsg b n 8 m
  else if isHello m = false ∧ vcBuffer vc < rxChunks l vc + getVc l.owed vc + m.len then violateCredit b n f
  else if takesMsgs l = false ∧ isHello m = false then b
  else setLink b n (fun l => { l with rx := l.rx ++ [{ m with since := b.now, inp := n }] })

/-- One chunk of a DATA flit. A chunk without an open message must be 0 with MAP 0; after a violation the chunks up to the next
header are discarded, over flits too (R321). -/
def chunkIn (n : Nat) (f : Flit) (b : Block) (k : Nat) : Block :=
  let l := linkOf b n
  let code := flitMap f k
  let c := flitChunk f k
  let seq := flitSeq f
  let close (b : Block) (skip : Bool) : Block := setLink b n (fun l => { l with partialKind := none, partialChunks := [], skip := skip })
  let bad (b : Block) : Block := close (violate b n 5 (c.extractLsb' 0 32) k seq) true
  let push (b : Block) (kd : MKind) (cs : List (BitVec 128)) : Block :=
    let m := msgOf kd cs
    if cs.length < m.len then setLink b n (fun l => { l with partialKind := some kd, partialChunks := cs, skip := false })
    else messageIn (close b false) n f { m with seq := seq, chunk := k + 1 - min k cs.length }
  match l.partialKind, kindOfMap code with
  | some kd, none => if code = 0 then push b kd (l.partialChunks ++ [c]) else bad b
  | some _, some kd => push (bad b) kd [c]
  | none, some kd => push b kd [c]
  | none, none => if code = 0 ∧ (l.skip = true ∨ c = 0) then b else bad b

/-- The chunks of a DATA flit in order. -/
def chunksIn (b : Block) (n : Nat) (f : Flit) : Block := (List.range 15).foldl (fun b i => chunkIn n f b (i + 1)) b

/-- A flit arrives at a port that exchanges flits (R296 to R299). -/
def flitIn (b : Block) (n : Nat) (f : Flit) : Block :=
  let l := linkOf b n
  let head := f.ctl.extractLsb' 0 32
  if l.state ≠ .hello ∧ l.state ≠ .active then b
  else if f.crc ≠ flitCrc f.ctl f.body then
    setLink (violate b n 1 head 0 (flitSeq f)) n (fun l => { l with crcErr := satAdd 65535 l.crcErr 1, nakDue := true, nakSent := true })
  else
    let b := peerTap b 0x39 n
    let b := if f.ctl >>> 91 = 0 then b else violate b n 6 head 0 (flitSeq f)
    if flitKind f = 3 then violate b n 5 head 0 (flitSeq f)
    else if flitKind f = 1 ∧ (flitSeq f) ≠ l.seqExp then
      setLink (violate b n 2 head 0 (flitSeq f)) n (fun l => { l with nakDue := l.nakDue || !l.nakSent, nakSent := true })
    else
      let b := takeCredits (takeAck b n f) n f
      if flitKind f = 2 then startReplay b n
      else if flitKind f = 0 then b
      else chunksIn (setLink b n (fun l => { l with seqExp := (l.seqExp + 1) % 4096, nakSent := false })) n f

/-- NAK (R299): a NAK flit arrives. -/
def nakIn (b : Block) (n : Nat) (f : Flit) : Block := if flitKind f = 2 then flitIn b n f else b

/-- REPLAY_TIMEOUT (R299): the oldest unacknowledged flit has waited 1 µs. -/
def replayTimeout (b : Block) (n : Nat) : Block :=
  let l := linkOf b n
  if (l.state = .active ∨ l.state = .hello) ∧ l.replay.isEmpty = false ∧ l.replayPos.isNone = true
      ∧ usDue b (usAt b (l.sentAt.headD 0)) 1 = true
  then startReplay b n else b

/-! Send. -/

/-- The class and QOS a waiting message of the request channel ranks with (R306): a write line has its request's. -/
def openKey (inp src orig : Nat) : Nat := (inp * 64 + src) * 64 + orig
def sendRank (b : Block) (m : Msg) : Nat :=
  let (c, q) := if m.kind = .request then (fld m.hdr 89 3, fld m.hdr 92 4) else tget (0, 0) b.cw.openCls (openKey m.inp m.src m.orig)
  if c = 0 then 0 else 16 - q

/-- The heads of the request channel by input, in queue order. -/
def reqHeads (tx : List Msg) : List Msg :=
  ([0, 1, 2, 3, 4] : List Nat).filterMap (fun i => tx.find? (fun m => vcOf m.kind == 0 && m.inp == i))

/-- The next message of a port (R306), for which the port holds credits: control, then responses, then requests. -/
def nextMsg (b : Block) (l : Link) : Option Msg :=
  let room (m : Msg) : Bool := decide (m.len ≤ getVc l.credit (vcOf m.kind))
  let head (vc : Nat) : Option Msg := (l.tx.find? (fun m => vcOf m.kind == vc)).filter room
  match head 2, head 1 with
  | some m, _ => some m
  | none, some m => some m
  | none, none =>
    let heads := (reqHeads l.tx).filter room
    let rr (m : Msg) : Nat := (m.inp + 4 - l.lastReq % 5) % 5
    match leastBy (fun m => m.since) (heads.filter (fun m => m.kind == .request && decide (m.since + 4096 ≤ b.now))) with
    | some m => some m
    | none => leastBy (fun m => sendRank b m * 8 + rr m) heads

/-- A message leaves the queue with its credits spent. -/
def takeNext (l : Link) (m : Msg) : Link :=
  { l with tx := l.tx.erase m, credit := subVc l.credit (vcOf m.kind) m.len, lastReq := if vcOf m.kind = 0 then m.inp else l.lastReq }

/-- Up to `room` chunks for a flit, with their MAP codes, and the destinations they carry. -/
def fillFlit (b : Block) : Nat → Link × List (Nat × BitVec 128) × List Nat → Link × List (Nat × BitVec 128) × List Nat
  | 0, r => r
  | room + 1, (l, cs, ds) =>
    match l.txRest with
    | some (d, c :: rest) =>
      fillFlit b room ({ l with txRest := if rest.isEmpty then none else some (d, rest) }, cs ++ [(0, c)], if ds.contains d then ds else ds ++ [d])
    | _ => match nextMsg b l with
      | none => (l, cs, ds)
      | some m =>
        let d := msgGoal m
        let rest := m.chunks.drop 1
        fillFlit b room ({ takeNext l m with txRest := if rest.isEmpty then none else some (d, rest) },
          cs ++ [(mapCode m.kind, m.hdr)], if ds.contains d then ds else ds ++ [d])

/-- Link control of a flit: the credits owed go with it. -/
def flitCtl (l : Link) (kind seq : Nat) (codes : List Nat) : BitVec 96 :=
  let map := codes.zipIdx.foldl (fun a e => a + (e.1 <<< (3 * e.2 + 26))) 0
  BitVec.ofNat 96 (kind + seq * 4 + ((l.seqExp + 4095) % 4096) * 2 ^ 14 + map + (min 255 l.owed.1) * 2 ^ 71
    + (min 255 l.owed.2.1) * 2 ^ 79 + (min 15 l.owed.2.2) * 2 ^ 87)

/-- The credits that have gone. -/
def creditsGone (l : Link) : Link := { l with owed := (l.owed.1 - 255, l.owed.2.1 - 255, l.owed.2.2 - 15) }

/-- A flit leaves the port. -/
def emitFlit (b : Block) (n : Nat) (f : Flit) : Block := peerTap (setLink b n (fun l => { l with lastFlit := some f })) 0x38 n

/-- A new DATA flit: it takes the next SEQ and joins the replay buffer. -/
def sendData (b : Block) (n : Nat) (l : Link) (cs : List (Nat × BitVec 128)) (ds : List Nat) : Block :=
  let seq := l.seqNext
  let f := mkFlit (flitCtl l 1 seq (cs.map (·.1))) (BitVec.ofNat 1920 (cs.foldr (fun c a => a * 2 ^ 128 + c.2.toNat) 0))
  let b := setLink b n (fun _ => { creditsGone l with
    seqNext := (seq + 1) % 4096, replay := l.replay ++ [f], sentAt := l.sentAt ++ [b.now]
    carried := l.carried ++ ds.map (fun d => (seq, d)) })
  peerTap (emitFlit b n f) 0x3A n

/-- The HELLO of a port (R301). -/
def helloMsg (b : Block) (n : Nat) : Msg :=
  ctlMsg b 1 0 false ((n % 4) * 2 ^ 21 + (if b.cw.pitheadSel then 2 ^ 23 else 0) + 3 * 2 ^ 24 + 2 * 2 ^ 32 + ((linkOf b n).width % 4) * 2 ^ 40)

/-- A flit of the replay goes again, with the ACK of now (log 26). -/
def resend (b : Block) (n i : Nat) (f : Flit) : Block :=
  let l := linkOf b n
  let ctl := (f.ctl &&& ~~~(BitVec.ofNat 96 (0xFFF <<< 14))) ||| BitVec.ofNat 96 (((l.seqExp + 4095) % 4096) <<< 14)
  let b := setLink b n (fun l => { l with
    replayPos := if i + 1 < l.replay.length then some (i + 1) else none, sentAt := l.sentAt.set i b.now })
  peerTap (peerTap (emitFlit b n (mkFlit ctl f.body)) 0x3A n) 0x3B n

/-- The rest of a message that was being sent when the port left ACTIVE goes before its HELLO (R293, log 92). -/
def helloFlit (b : Block) (n : Nat) : Block :=
  let l := linkOf b n
  match l.txRest with
  | some (d, cs) =>
    let rest := cs.drop 15
    let l := { l with txRest := if rest.isEmpty then none else some (d, rest) }
    let now := (cs.take 15).map (fun c => (0, c))
    if 15 ≤ cs.length then sendData b n l now [d]
    else tryActive (sendData b n { l with helloSent := true } (now ++ [(4, (helloMsg b n).hdr)]) [d, 64]) n
  | none => tryActive (sendData b n { l with helloSent := true } [(4, (helloMsg b n).hdr)] [64]) n

/-- FLIT_SEND (R295 to R299, R306): the port's next flit. -/
def flitOut (b : Block) (n : Nat) : Block :=
  let l := linkOf b n
  let plain (kind : Nat) : Block := emitFlit (setLink b n creditsGone) n (mkFlit (flitCtl l kind 0 []) 0)
  if l.state ≠ .hello ∧ l.state ≠ .active then b
  else if l.nakDue then
    emitFlit (setLink b n (fun l => { creditsGone l with nakDue := false })) n (mkFlit (flitCtl l 2 0 []) 0)
  else match l.replayPos with
    | some i => match l.replay[i]? with
      | some f => resend b n i f
      | none => setLink b n (fun l => { l with replayPos := none })
    | none =>
      if 128 ≤ l.replay.length then plain 0
      else if l.state = .hello then
        (if l.helloSent then plain 0 else helloFlit b n)
      else
        let (l, cs, ds) := fillFlit b 15 (l, [], [])
        if cs.isEmpty then plain 0 else sendData b n l cs ds

end Sys2Proof.Machine
end

