-- ==== Sys2Proof/Machine/RegVals.lean ====
section
/-! DEFINITION. The value of every register as G0 reads it (R466 to R480), by offset, with the conditions of the power
handshake (R356) that some of them show. -/

namespace Sys2Proof.Machine

/-! Conditions of a channel (R268, R356). -/

/-- The channel whose line a stalled request waits on (R268). -/
def stallChan (b : Block) (x : Txn) : Nat := (locOf b.build (seamOf b (seamNo b x.stallLine)) x.stallLine).ch

/-- A channel holds tallies (R268). -/
def holdsTallies (b : Block) (ch : Nat) : Bool :=
  b.tallies.any (fun e => e.state != .lost && e.ch == ch)
    || b.txns.any (fun x => x.stallUs.isSome && !x.op.isTally && stallChan b x == ch)

/-- A request is outstanding to a channel: it is decoded for it, is not held in its port, and its answer is not there yet. -/
def outstandingTo (b : Block) (ch : Nat) (x : Txn) : Bool :=
  let live := match x.phase with
    | .waiting .power | .waiting .freeze | .decodeHeld _ => false
    | .answered _ => decide (b.now < x.due)
    | _ => true
  live && targetOf b x == ch && x.op != .fence

/-- The conditions of R356 now true: tallies, merge buffer, class 0, other instance, other work, sparing. -/
structure Conds where
  tallies : Bool
  merge : Bool
  class0 : Bool
  peer : Bool
  work : Bool
  sparing : Bool
  deriving DecidableEq, Repr

def conds (b : Block) (ch : Nat) : Conds :=
  let c := chan b ch
  let reqs := b.txns.filter (outstandingTo b ch)
  let ops := b.ops.filter (fun op => op.ch == ch && op.kind != .drain && !bySequencer op.kind)
  let c0 (cls : Nat) (o : Origin) : Bool := cls == 0 && !isRemote o
  { tallies := holdsTallies b ch, merge := !c.merge.isEmpty,
    class0 := reqs.any (fun x => c0 x.req.cls.toNat x.org) || ops.any (fun op => c0 op.cls op.org),
    peer := reqs.any (fun x => isRemote x.org) || ops.any (fun op => isRemote op.org),
    work := reqs.any (fun x => !isRemote x.org && x.req.cls != 0) || ops.any (fun op => !isRemote op.org && op.cls != 0)
      || b.descs.any (fun d => d.ch == ch && d.stage != .issued)
      || b.txns.any (fun x => x.op == .fence && x.org.chan == ch && !isRemote x.org && (match x.phase with | .waiting _ => true | _ => false)),
    sparing := c.spare.phase != 0 }

/-- Whether any condition makes the channel delay. -/
def Conds.delays (c : Conds) : Bool := c.merge || c.class0 || c.peer || c.work || c.sparing

/-- The answer of R356: 0 AGREE, 1 DELAY, 2 REFUSE. -/
def answerOf (b : Block) (ch : Nat) : Nat :=
  let c := conds b ch
  if c.tallies then 2 else if c.delays then 1 else 0

/-! Kinds of state as registers show them. -/

def CState.code (s : CState) : Nat := match s with | .closed => 0 | .open => 1 | .resetting => 2 | .rejecting => 3
def PState.code (s : PState) : Nat := match s with | .run => 0 | .idle => 1 | .sleep => 2
def TrcState.code (s : TrcState) : Nat := match s with | .idle => 0 | .armed => 1 | .triggered => 2 | .stopped => 3
def TState.code (s : TState) : Nat := match s with | .waiting => 1 | .held => 2 | .lost => 3

/-- ABORT_QUIET, RECOV_WINDOW, REPLAY_LIMIT (R407). -/
def abortQuiet (b : Block) : Nat := max 100 (fld b.regs.recovCtl 48 16)
def recovWindow (b : Block) : Nat := max 1 (fld b.regs.recovCtl 16 16)
def replayLimit (b : Block) : Nat := max 1 (min 5 (fld b.regs.recovCtl 36 4))

/-- Remaining quiet time of a context in µs (R389). -/
def quietLeft (b : Block) (c : Ctx) : Nat :=
  match c.quietFrom with
  | none => 0
  | some f => if usDue b f (abortQuiet b) then 0 else max 1 (abortQuiet b - (usNow b - f))

/-- BOOT_STAT (R351). -/
def bootStat (b : Block) : Word :=
  put 32 8 b.bring.katFail.toNat ||| put 24 8 b.bring.cause ||| put 16 8 b.bring.bootMs ||| putBit 7 b.bring.warm ||| put 0 4 b.bring.phase

/-- PWR_STAT (R373). -/
def pwrStat (b : Block) : Word :=
  put 48 4 b.power.refuseReason ||| put 45 3 b.power.refuseCh ||| put 36 4 b.power.lastWake ||| putBit 32 b.power.hs.isSome
    ||| put 29 3 (match b.power.hs with | some h => h.target | none => 0) ||| put 16 2 (min 2 (coreState b))
    ||| (List.range b.build.channels).foldl (fun a n => a ||| put (2 * n) 2 (chPower b n).code) 0

/-- CTXc_W0 and CTXc_W1 (R407). -/
def ctxW0 (b : Block) (n : Nat) : Word :=
  let c := ctxOf b n
  put 62 2 c.state.code ||| putBit 61 c.faulted ||| putBit 60 c.suspect ||| put 48 8 c.shift.toNat ||| put 32 14 c.pkg.toNat ||| put 0 32 c.job.toNat
def ctxW1 (b : Block) (n : Nat) : Word :=
  let c := ctxOf b n
  put 40 24 c.dropped ||| put 16 16 c.resets ||| put 0 16 (quietLeft b c)

/-- SPARE_MAP (R248). -/
def spareMap (s : Sparing) : Word :=
  put 18 6 s.bank ||| put 16 2 s.phase ||| put 14 2 s.s1State ||| put 8 6 s.s1Bank ||| put 6 2 s.s0State ||| put 0 6 s.s0Bank

/-- The repaired lanes of a link (R290): failed lanes of a half that keeps at most 2. -/
def repairedLanes (failed : BitVec 64) : List Nat :=
  let half (lo : Nat) : List Nat :=
    let l := ((List.range 32).map (fun i => lo + i)).filter (fun i => bit failed i)
    if l.length ≤ 2 then l else []
  half 0 ++ half 32

/-- PEERn_STAT (R322). -/
def peerStat (b : Block) (n : Nat) : Word :=
  let l := linkOf b n
  let rep : List Nat := if l.width = 0 then [] else repairedLanes l.failed
  put 58 6 l.partner ||| put 56 2 l.partnerPort ||| putBit 55 l.partnerValid ||| put 53 2 l.width ||| putBit 14 l.logWrap
    ||| put 8 6 l.logNext ||| put 4 4 l.attempts ||| put 0 3 l.state.code
    ||| rep.zipIdx.foldl (fun a e => a ||| put (7 * e.2 + 21) 7 (64 + e.1)) 0

/-- VERSION and BUILD (R4, R5). -/
def versionReg : Word := 0x030200
def buildReg (b : Block) : Word := put 8 3 b.build.peers ||| put 4 4 b.build.channels ||| put 0 2 b.build.bankSize

/-- ROSTER_STAT (R210). -/
def rosterStat (b : Block) : Word :=
  put 16 32 b.arb.rotation ||| put 8 4 b.arb.admitted.toNat ||| putBit 5 b.arb.fallback ||| putBit 4 b.arb.pend.isSome
    ||| put 2 2 (b.arb.pend.getD 0) ||| put 0 2 b.arb.active
    ||| (List.range 4).foldl (fun a r => a ||| put (4 * r + 48) 4 (tget 15 b.arb.rule r) ||| putBit (12 + r) (b.arb.degraded.any (fun e => e.1 == r))) 0

/-! Records as doublewords (R423). -/

def recordDw (r : Record) (seq i : Nat) : Word :=
  match i with
  | 0 =>
    put 0 16 r.type ||| put 16 6 r.inst ||| putBit 22 r.logged ||| putBit 23 r.synced ||| put 24 3 (r.channel.getD 0)
      ||| putBit 27 r.channel.isSome ||| put 28 6 ((r.ctx.map (·.1)).getD 0) ||| putBit 34 r.ctx.isSome
      ||| put 35 8 ((r.ctx.map (fun c => c.2.toNat)).getD 0) ||| put 43 8 r.epoch ||| put 51 8 r.tgen
  | 1 => r.time
  | 2 => put 0 32 seq
  | 3 => r.p3 | 4 => r.p4 | 5 => r.p5 | 6 => r.p6
  | _ => 0

/-- Doubleword w of the retention log (R435). -/
def rlogDw (l : RLog) (w : Nat) : Word :=
  let e := w / 8
  let i := w % 8
  if e = 0 then (match i with | 0 => BitVec.ofNat 64 l.writeCount | 1 => BitVec.ofNat 64 l.overwritten | 2 => put 0 10 l.next | _ => 0)
  else if e < 4 then
    (List.range 4).foldl (fun a k => a ||| put (16 * k) 16 (l.retired.getD ((w - 8) * 4 + k) 0)) 0
  else match l.records.find? (fun r => r.1 == e) with
    | some (_, seq, r) => recordDw r seq i
    | none => 0

/-! The registers by offset. -/

/-- Global registers below 0x0300. -/
def globalReg (b : Block) (off : Nat) : Option Word :=
  let r := b.regs
  match off with
  | 0x0000 => some versionReg
  | 0x0008 => some (buildReg b)
  | 0x0100 => some r.hangCtl | 0x0108 => some r.conflictCtl
  | 0x0110 => some r.canaryFence | 0x0118 => some r.canaryFlag
  | 0x0120 => some r.arbCtl | 0x0128 => some (rosterStat b)
  | 0x0130 => some r.classLimitW | 0x0138 => some r.bgBudgetW
  | 0x0140 => some r.stepCtl | 0x0148 => some r.tallyCtl | 0x0150 => some r.dredgeCtl | 0x0158 => some r.ceCtl
  | 0x0160 =>
    let n (s : TState) : Nat := (b.tallies.filter (fun e => e.state == s)).length
    some (put 48 16 b.marksDropped ||| put 30 10 b.marks.length ||| put 20 10 (n .waiting) ||| put 10 10 (n .lost) ||| put 0 10 (n .held))
  | 0x0168 => some r.sumpCtl
  | 0x0170 => some (put 48 16 b.sump.invalidRd ||| put 32 16 b.sump.proto ||| put 16 16 b.sump.errors ||| put 0 11 b.sump.out.length)
  | 0x0180 => some (bootStat b)
  | 0x0188 =>
    some (put 16 16 b.bring.holdMs ||| putBit 11 (present b) ||| putBit 10 b.bring.tamper ||| putBit 9 b.bring.tampered
      ||| putBit 8 (debugOpen b) ||| putBit 2 b.bring.wiping ||| put 0 2 b.bring.lcState)
  | 0x0190 => some (put 0 8 b.bring.holdupMin)
  | 0x0198 =>
    some (put 48 16 b.bring.deferrals ||| put 40 8 b.bring.holdupLevel ||| put 32 4 b.bring.dumpSlots.toNat
      ||| putBit 31 b.bring.dumpPending ||| putBit 30 b.bring.nvmSeq.isSome ||| put 24 2 b.bring.nvmMode ||| put 16 8 b.bring.nvmDensity)
  | 0x01A0 => some r.pwrPolicy | 0x01A8 => some (pwrStat b)
  | 0x01B0 => some r.recovCtl
  | 0x01B8 =>
    let mask (p : Nat → Bool) : Nat := (List.range 8).foldl (fun a n => if p n then a + 2 ^ n else a) 0
    some (put 56 8 (mask (fun n => (chan b n).stopped)) ||| put 48 8 (mask (fun n => (chan b n).recov.isSome && chFrozen b n))
      ||| put 32 8 (min 255 b.recov.instResets) ||| put 16 16 b.recov.chRecoveries ||| put 0 4 b.recov.lastLevel)
  | 0x01C0 =>
    some (put 48 16 b.safety.heartbeatMs ||| put 32 16 b.safety.scrubMs ||| putBit 28 b.safety.lockstepReact ||| put 0 13 b.safety.rootMhz)
  | 0x01C8 => some (put 48 16 b.safety.cfgFixes ||| put 40 8 b.safety.faults ||| put 0 6 b.safety.flags.toNat)
  | 0x0200 => some b.ev.base | 0x0208 => some b.ev.ctl
  | 0x0210 => some (put 0 32 b.ev.head.toNat) | 0x0218 => some (put 0 32 b.ev.tail.toNat)
  | 0x0220 =>
    some (put 32 32 b.ev.lost ||| put 8 7 b.ev.queue.length ||| put 2 6 (b.ev.issued.filter (fun e => !e.2.1)).length
      ||| putBit 1 b.ev.badTail ||| putBit 0 b.ev.writeErr)
  | 0x0228 => some b.ev.dbAddr | 0x0230 => some b.ev.dbCtl
  | 0x0238 => some (put 0 13 b.rlog.addr) | 0x0240 => some (rlogDw b.rlog b.rlog.addr)
  | 0x0248 => some b.time.ns | 0x0250 => some 0
  | 0x0258 => some (putBit 48 b.time.syncEn ||| put 32 16 b.time.syncWait ||| put 0 32 b.time.tol)
  | 0x0260 =>
    some (put 48 16 b.time.badFrames ||| put 16 32 b.time.frames ||| putBit 9 b.time.frozen ||| putBit 8 b.time.synced ||| put 0 8 b.time.tgen)
  | _ => none

/-- The queue takes commands (R480). -/
def queueOpen (b : Block) : Bool := isReady b

/-- Command queue registers and tables of the global block (R473, R480). -/
def queueReg (b : Block) (off : Nat) : Option Word :=
  let q := b.cmdq
  if off = 0x300 then some (put 0 32 q.tail.toNat)
  else if off = 0x308 then some (put 0 32 q.head.toNat)
  else if off = 0x310 then some (put 0 32 q.cplHead.toNat)
  else if off = 0x318 then some (put 0 32 q.cplTail.toNat)
  else if off = 0x320 then
    some (put 16 8 (match q.running with | t :: _ => t.opc | [] => 0) ||| put 8 8 q.running.length ||| putBit 2 (queueOpen b)
      ||| putBit 1 q.badCpl ||| putBit 0 q.badTail)
  else if 0x800 ≤ off ∧ off < 0x1000 then some (tget 0 q.slots ((off - 0x800) / 8))
  else if 0x1000 ≤ off ∧ off < 0x1400 then
    let e := tget (0, 0) q.cpl ((off - 0x1000) / 16)
    some (if off % 16 = 0 then e.1 else e.2)
  else none

/-- SEAMn_W0 to W3 (R51). -/
def seamReg (s : Seam) (j : Nat) : Word :=
  match j with
  | 0 => putBit 63 s.valid ||| put 32 26 s.size ||| put 0 26 s.base
  | 1 =>
    putBit 28 s.keep ||| putBit 27 s.sump ||| putBit 26 s.secure ||| putBit 25 s.zmap ||| putBit 24 s.watch ||| put 16 8 s.format
      ||| putBit 14 s.ilv ||| put 12 2 s.hash ||| put 0 12 s.seed
  | 2 => s.owners
  | _ => putBit 1 s.sumpInvalid ||| putBit 0 s.clearing

/-- The tables of the global block (R473). -/
def tableReg (b : Block) (off : Nat) : Option Word :=
  if 0x4000 ≤ off ∧ off < 0x6000 then some (seamReg (seamOf b ((off - 0x4000) / 32)) (off / 8 % 4))
  else if 0x6000 ≤ off ∧ off < 0x6200 then some (ctxOf b ((off - 0x6000) / 8)).rng
  else if 0x6200 ≤ off ∧ off < 0x6400 then some (ctxOf b ((off - 0x6200) / 8)).site
  else if 0x7000 ≤ off ∧ off < 0x7400 then
    (if off % 16 = 0 then some (ctxW0 b ((off - 0x7000) / 16)) else some (ctxW1 b ((off - 0x7000) / 16)))
  else if 0x8000 ≤ off ∧ off < 0xA000 then
    match tallyAt b ((off - 0x8000) / 16) with
    | none => some 0
    | some e =>
      if off % 16 = 0 then some (put 62 2 e.state.code ||| put 56 6 e.ctx ||| put 48 8 e.shift.toNat ||| put 42 4 (e.span - 1) ||| put 7 35 e.line)
      else some (put 16 16 (if e.state = .held then e.lease - (usNow b - e.leaseUs) else 0) ||| put 0 16 e.lease)
  else if 0xA000 ≤ off ∧ off < 0xB000 then
    match b.marks.find? (fun m => m.idx == (off - 0xA000) / 8) with
    | none => some 0
    | some m => some (putBit 63 true ||| put 42 4 (m.span - 1) ||| put 7 35 m.line)
  else if 0xB000 ≤ off ∧ off < 0xB800 then some (put 0 42 (seamOf b ((off - 0xB000) / 8)).fill)
  else none

/-- The registers of a channel block (R474). -/
def chanReg (b : Block) (n off : Nat) : Option Word :=
  let c := chan b n
  if 0x800 ≤ off ∧ off < 0x848 then some (put 0 48 (tget 0 c.conf ((off - 0x800) / 8)))
  else if off = 0x848 then some 0
  else if off = 0x850 then some (put 0 9 c.starved.toNat)
  else if off = 0x900 then some (put 48 16 c.tagUe ||| put 32 16 c.tagCe ||| put 16 16 c.poisonRd)
  else if off = 0x908 then some (put 32 16 c.mbFullWaits ||| put 16 16 c.mbRejected ||| put 0 6 c.merge.length)
  else if off = 0x910 then some (put 32 32 c.dredge.passes ||| put 0 13 c.dredge.row)
  else if off = 0x918 then some (putBit 0 c.dmaHalt)
  else if off = 0x920 then some (spareMap c.spare)
  else if off = 0x940 then some (putBit 63 c.ecc.busy ||| putBit 62 c.ecc.err)
  else if off = 0x948 then some c.ecc.addr
  else if off = 0x950 then some c.ecc.data
  else if off = 0x958 then some c.ecc.check
  else if off = 0x960 then
    let k := conds b n
    let held := (b.txns.filter (fun x => x.phase == .waiting .power && !x.autoWake && targetOf b x == n)).length
    some (put 32 12 (min 4095 held) ||| putBit 8 k.tallies ||| putBit 9 k.merge ||| putBit 10 k.class0 ||| putBit 11 k.peer
      ||| putBit 12 k.work ||| putBit 13 k.sparing ||| put 0 2 (if (hsOver b n).isSome then answerOf b n else 3))
  else if 0x2000 ≤ off ∧ off < 0x4000 then
    let r := (off - 0x2000) / 0x800
    let k := (off - 0x2000) / 0x100 % 8
    let j := (off - 0x2000) / 8 % 32
    some ((List.range 8).foldl (fun a i => a ||| put (8 * i) 8 (slotEntry c r k (8 * j + i))) 0)
  else if 0x4000 ≤ off ∧ off < 0x4210 then
    let k := (off - 0x4000) / 8
    some (put 32 16 (tget 0 c.ue k) ||| put 0 32 (tget 0 c.ce k))
  else if 0x5000 ≤ off ∧ off < 0x5240 then some (put 0 48 (tget 0 c.slotCnt ((off - 0x5000) / 8)))
  else if 0x5400 ≤ off ∧ off < 0x5640 then some (put 0 48 (tget 0 c.zhitCnt ((off - 0x5400) / 8)))
  else if 0x5800 ≤ off ∧ off < 0x5848 then some (put 0 48 (tget 0 c.unownCnt ((off - 0x5800) / 8)))
  else if 0x5900 ≤ off ∧ off < 0x5940 then some (put 0 48 (tget 0 c.ownedCnt ((off - 0x5900) / 8)))
  else if 0x5940 ≤ off ∧ off < 0x5980 then some (put 0 48 (tget 0 c.passedCnt ((off - 0x5940) / 8)))
  else none

/-- The causeway registers (R322). -/
def cwReg (b : Block) (off : Nat) : Option Word :=
  let w := b.cw
  if off = 0 then
    some (put 24 6 w.pitheadInst ||| put 22 2 (w.parent.getD 0) ||| putBit 21 w.parent.isSome ||| putBit 20 w.routes ||| putBit 19 w.demoted
      ||| putBit 18 w.pitheadSel ||| put 0 6 w.instNum)
  else if off = 8 then some w.ctl
  else if off = 0x10 then some w.nbr
  else if off = 0x18 then some (put 48 16 w.noroute ||| put 32 16 w.rspDropped ||| put 16 16 w.hopDropped ||| put 0 16 w.aborts)
  else if 0x400 ≤ off ∧ off < 0x600 then
    let d := (off - 0x400) / 8
    let v := tget 0 w.route d
    some (put 0 16 v ||| put 16 2 (tget 0 w.inUse d) ||| putBit 18 (decide (32768 ≤ v) && (pickRoute b d).isNone))
  else if 0x800 ≤ off ∧ off < 0xA00 then
    match w.jobs.find? (fun e => e.1 == (off - 0x800) / 8) with
    | some (_, pkg, job) => some (putBit 63 true ||| put 32 14 pkg.toNat ||| put 0 32 job.toNat)
    | none => some 0
  else none

/-- The registers of a peer block (R322). -/
def peerReg (b : Block) (n off : Nat) : Option Word :=
  let l := linkOf b n
  if off = 0 then some (peerStat b n)
  else if off = 8 then some (putBit 2 l.disable)
  else if off = 0x10 then some l.failed
  else if off = 0x18 then some (put 48 16 l.crcErr ||| put 32 16 l.replays ||| put 16 16 l.retrains ||| put 0 16 l.lostFlits)
  else if 0x108 ≤ off ∧ off < 0x160 then some (put 0 48 (tget 0 l.chk ((off - 0x100) / 8)))
  else if 0x800 ≤ off ∧ off < 0xC00 then
    match l.log.find? (fun e => e.1 == (off - 0x800) / 16) with
    | some (_, e) => if off % 16 = 0 then some e.time
        else some (put 32 32 e.head.toNat ||| put 16 4 e.chunk ||| put 4 12 e.seq ||| put 0 4 e.code)
    | none => some 0
  else none

/-- The doubleword of the trace buffer that TRC_RADDR names (R457, R459). -/
def trcWord (o : Observe) : Word :=
  if o.trcState = .armed ∨ o.trcState = .triggered then 0
  else match o.buffer[(o.trcRaddr / 2 + 16384 - o.oldest) % 16384]? with
    | some r => if o.trcRaddr % 2 = 0 then r.w0 else r.w1
    | none => 0

/-- The observation registers (R476). -/
def obsReg (b : Block) (off : Nat) : Option Word :=
  let o := b.obs
  if off < 0x1000 then some (put 0 48 (tget 0 o.ocnt (off / 8)))
  else if off < 0x2000 then some (tget oselInit o.osel ((off - 0x1000) / 8))
  else if off = 0x2000 then some (putBit 2 o.trigFrozen ||| putBit 1 o.pinEn ||| putBit 0 o.freeze)
  else if off = 0x2008 then some (put 32 32 o.freezes ||| putBit 1 o.pin ||| putBit 0 (obsFrozen o))
  else if off = 0x2100 then some o.trcCtl
  else if off = 0x2108 then some o.trcTrig
  else if off = 0x2110 then some o.trcAlo
  else if off = 0x2118 then some o.trcAhi
  else if off = 0x2120 then some o.trcThresh
  else if off = 0x2128 then some o.trcFilt
  else if off = 0x2130 then some (put 32 32 o.dropped ||| put 17 15 o.oldest ||| put 2 15 o.buffer.length ||| put 0 2 o.trcState.code)
  else if off = 0x2138 then some (put 0 15 o.trcRaddr)
  else if off = 0x2140 then some (trcWord o)
  else if off = 0x2200 then some (put 8 8 o.sndOver ||| put 2 2 o.sndCause ||| putBit 1 o.sndHeld ||| putBit 0 o.sndBusy)
  else if 0x8000 ≤ off ∧ off < 0x10000 then some (if o.sndBusy then 0 else tget 0 o.snapshot ((off - 0x8000) / 8))
  else none

/-- The core register or memory doubleword that DBG_ADDR names (R478). -/
def dbgWord (d : Debug) : Word :=
  let w := fld d.addr 3 18
  match fld d.addr 62 2 with
  | 0 => tget 0 d.code w
  | 1 => if w < 65536 then tget 0 d.data w else 0
  | 2 => if w < 34 then tget 0 d.regs w else 0
  | _ => 0

/-- The debug registers (R478). -/
def dbgReg (b : Block) (off : Nat) : Option Word :=
  if off = 0 then some (putBit 0 b.dbg.halt)
  else if off = 8 then some (put 32 32 (if b.dbg.halt then (tget 0 b.dbg.regs 32).toNat else 0) ||| putBit 1 (debugOpen b) ||| putBit 0 b.dbg.halt)
  else if off = 0x10 then some b.dbg.addr
  else if off = 0x18 then some (dbgWord b.dbg)
  else none

/-- The register at a G0 offset, none where it is unmapped (R466, R467). -/
def regAt (b : Block) (off : Nat) : Option Word :=
  if off < 0x10000 then (if off < 0x300 then globalReg b off else if off < 0x4000 then queueReg b off else tableReg b off)
  else if off < 0x90000 then
    (if (off - 0x10000) / 0x10000 < b.build.channels then chanReg b ((off - 0x10000) / 0x10000) (off % 0x10000) else none)
  else if off < 0x91000 then cwReg b (off - 0x90000)
  else if off < 0x95000 then (if (off - 0x91000) / 0x1000 < b.build.peers then peerReg b ((off - 0x91000) / 0x1000) (off % 0x1000) else none)
  else if off < 0xA0000 then none
  else if off < 0xB0000 then obsReg b (off - 0xA0000)
  else if off < 0xC0000 then none
  else dbgReg b (off - 0xC0000)

end Sys2Proof.Machine
end

