-- ==== Sys2Proof/Machine/Observe.lean ====
section
/-! DEFINITION. The observation unit (R441 to R465): freezes, the trace's states and triggers, counter samples, T0, and the
snapshot of a sounding. -/

namespace Sys2Proof.Machine

/-! Freeze (R446 to R448). -/

/-- A change of what freezes the counters; a freeze edge counts in FREEZES. -/
def withFreeze (b : Block) (f : Observe → Observe) : Block :=
  let was := obsFrozen b.obs
  let o := f b.obs
  { b with obs := { o with freezes := if !was && obsFrozen o then (o.freezes + 1) % 2 ^ 32 else o.freezes } }

/-- FREEZE (R446, R455): the synchronised level changes; its rising edge is trigger source 1. -/
def freezePin (b : Block) (high : Bool) : Block :=
  let rise := high && !b.obs.pin
  let b := withFreeze b (fun o => { o with pin := high })
  let due := rise && b.obs.trcState == .armed && fld b.obs.trcTrig 60 3 == 1
  { b with obs := { b.obs with trigDue := b.obs.trigDue || due } }

/-- The fixed counters of a channel return to 0 (R448). -/
def clearFixed (c : Channel) : Channel :=
  { c with slotCnt := [], zhitCnt := [], unownCnt := [], ownedCnt := [], passedCnt := [] }

/-- OBS_CTL written (R448): CLEAR, TRIG_FROZEN cleared by a 1, PIN_EN and FREEZE. -/
def writeObsCtl (b : Block) (v : Word) : Block :=
  let b := if bit v 3 then { b with obs := { b.obs with ocnt := [] }, chans := b.chans.map (fun e => (e.1, clearFixed e.2)) } else b
  withFreeze b (fun o => { o with trigFrozen := o.trigFrozen && !bit v 2, pinEn := bit v 1, freeze := bit v 0 })

/-! The trace's states (R454, R455, R457). -/

/-- PRE and POST as ARM latches them (R454). -/
def clampPre (o : Observe) : Nat := min 16367 (fld o.trcCtl 18 14)
def clampPost (o : Observe) : Nat := min (fld o.trcCtl 4 14) (16367 - clampPre o)

/-- ARM (R452, R454, R459): the fields are latched, held records lose their protection, SYNC and START enter. -/
def armTrace (b : Block) : Block :=
  let o := b.obs
  let b := { b with obs := { o with
    trcState := .armed, stream := bit o.trcCtl 32, pre := clampPre o, post := clampPost o, postLeft := 0, dropped := 0
    written := 0, trigDue := false, sampleFrom := o.stamp, buffer := o.buffer.map (fun r => { r with inWindow := false }) } }
  traceSys (traceSync b) 3 0 (put 0 3 (fld o.trcTrig 60 3))

/-- The last `n` records of the buffer are protected. -/
def protectLast (n : Nat) (l : List TraceRec) : List TraceRec :=
  l.take (l.length - n) ++ (l.drop (l.length - n)).map (fun r => { r with inWindow := true })

/-- The trigger (R455): a TRIGGER record, the window, and the counters frozen if TRC_TRIG asks. -/
def triggerTrace (b : Block) : Block :=
  if b.obs.trcState = .armed then
    let src := fld b.obs.trcTrig 60 3
    let b := { b with obs := { b.obs with buffer := protectLast b.obs.pre b.obs.buffer, trigDue := false } }
    let b := trcPut b 7 2 0 true true (put 0 3 src)
    let b := { b with obs := { b.obs with trcState := .triggered, postLeft := b.obs.post } }
    if bit b.obs.trcTrig 63 then withFreeze b (fun o => { o with trigFrozen := true }) else b
  else b

/-- The trace stops with a STOP record (R451, R454). -/
def endTrace (b : Block) (st : TrcState) : Block :=
  let b := trcPut b 7 4 0 false false (put 0 3 (fld b.obs.trcTrig 60 3) ||| put 32 32 b.obs.written)
  { b with obs := { b.obs with trcState := st, trigDue := false } }

/-- STOP (R454, R459). -/
def stopTrace (b : Block) : Block :=
  match b.obs.trcState with
  | .armed => endTrace b .idle
  | .triggered => endTrace b .stopped
  | _ => b

/-- TRC_CTL written: the fields, then STOP, ARM and FORCE in this order. -/
def writeTrcCtl (b : Block) (v : Word) : Block :=
  let b := { b with obs := { b.obs with trcCtl := v &&& 0xFFFFFF01FFFFFFF0#64 } }
  let b := if bit v 2 then stopTrace b else b
  let b := if bit v 1 then armTrace b else b
  if bit v 3 then triggerTrace b else b

/-- TRACE_TRIGGER (R455): the condition of source `src` has come true. -/
def traceTrigger (b : Block) (src : Nat) : Block :=
  if b.obs.trigDue = true ∧ fld b.obs.trcTrig 60 3 = src then triggerTrace b else b

/-- TRACE_POST_DONE (R454): POST records after the trigger have entered. -/
def tracePostDone (b : Block) : Block :=
  if b.obs.trcState = .triggered ∧ b.obs.postLeft = 0 then endTrace b .stopped else b

/-- CLK_TRC cycles from stamp `f` to now. -/
def stampSince (o : Observe) (f : Nat) : Nat := (o.stamp + 2 ^ 32 - f) % 2 ^ 32

/-- TRACE_SYNC (R452): every 2^20 CLK_TRC cycles. -/
def syncDue (b : Block) : Block := if trcRuns b && decide (2 ^ 20 ≤ stampSince b.obs b.obs.syncAt) then traceSync b else b

/-- COUNTER_SAMPLE (R449, R459): a record of class 0 for each counter with TRACE, every CNT_PERIOD. -/
def counterSample (b : Block) : Block :=
  let p := fld b.obs.trcCtl 48 16 * 1024
  if clsOn b.obs 0 && decide (p ≠ 0) && trcRuns b && trcLive b.obs && decide (p ≤ stampSince b.obs b.obs.sampleFrom) then
    let b := { b with obs := { b.obs with sampleFrom := (b.obs.sampleFrom + p) % 2 ^ 32 } }
    ((List.range 512).filter (fun n => bit (tget oselInit b.obs.osel n) 62)).foldl (fun b n =>
      if trcLive b.obs then
        let win := b.obs.trcState == .triggered
        let b := trcPut b 0 0 n false win (put 0 48 (tget 0 b.obs.ocnt n))
        if win then { b with obs := { b.obs with postLeft := b.obs.postLeft - 1 } } else b
      else b) b
  else b

/-- T0_RECORD_SEND (R454, R458): in STREAM mode the oldest record leaves, one in 2 CLK_TRC cycles. -/
def t0Send (b : Block) : Block :=
  let o := b.obs
  match o.buffer with
  | [] => b
  | r :: rest =>
    if o.stream && trcRuns b && (o.t0.isNone || decide (o.t0At + 16 ≤ b.now)) then
      { b with obs := { o with buffer := rest, oldest := (o.oldest + 1) % 16384, t0 := some (r.w0, r.w1), t0At := b.now } }
    else b

/-- A read of TRC_RDATA steps TRC_RADDR (R459). -/
def stepTrcRdata (b : Block) : Block := { b with obs := { b.obs with trcRaddr := (b.obs.trcRaddr + 1) % 32768 } }

/-! Where a request waits (R463). -/

/-- The line operations of a request, wherever they stand. -/
def opsOf (b : Block) (uid : Nat) : List LineOp := b.ops.filter (fun o => o.uid == uid && o.kind != .drain && !bySequencer o.kind)

/-- The transfers of a request. -/
def xferOf (x : Xfer) (uid : Nat) : Bool :=
  match x.payload with
  | .lines ops => ops.any (fun o => o.uid == uid)
  | .sump u | .inst u | .desc u | .tally u => u == uid
  | _ => false
def xfersOf (b : Block) (uid : Nat) : List Xfer := b.xfers.filter (fun x => xferOf x uid)

/-- A read response is on offer at a port. -/
def offered (b : Block) (p : PortId) : Bool := (outOf b p).rdatHeld.isSome || (offers b p (fun _ => true)).isSome

/-- The WAIT code of an outstanding request (R463). -/
def waitCode (b : Block) (x : Txn) : Nat :=
  match x.phase with
  | .decodeHeld _ => 1
  | .waiting .classLimit => 2
  | .waiting .power => 3
  | .waiting .tally => 4
  | .waiting .fence => 5
  | .waiting .freeze => 13
  | .waiting .sameBlock => 8
  | .waiting .none | .waiting .decode => 7
  | .answered _ | .swept => 0
  | .active =>
    let ops := opsOf b x.uid
    if presented b x then 0
    else if x.stallUs.isSome then 4
    else if !(xfersOf b x.uid).isEmpty then 7
    else if ops.any (fun o => sparedNow (chan b o.ch) o.bank) then 9
    else if ops.any (fun o => o.stage == .merge) then 10
    else if !ops.isEmpty then 8
    else if (descOf b x.uid).isSome then 11
    else if 8 ≤ targetOf b x then 12
    else if x.op = .rd ∧ x.issuedLines < x.total then 6
    else 0

/-- The wait count of a request: the greatest of its operations and transfers (R202). -/
def waitCount (b : Block) (x : Txn) : Nat :=
  (opsOf b x.uid).foldl (fun m o => max m (opWait b o)) ((xfersOf b x.uid).foldl (fun m t => max m (xferWait b t)) 0)

/-! The snapshot (R462 to R464). -/

/-- A request payload in the layout of R81. -/
def reqPayload (x : Txn) : BitVec 112 :=
  let r := x.req
  BitVec.ofNat 112 (r.id.toNat + (match x.req.rsv with | some c => c.toNat | none => x.op.code) * 2 ^ 8 + r.addr.toNat * 2 ^ 13 + r.len.toNat * 2 ^ 61 + r.aux.toNat * 2 ^ 73
    + r.cls.toNat * 2 ^ 89 + r.qos.toNat * 2 ^ 92 + r.ctx.toNat * 2 ^ 96 + r.shift.toNat * 2 ^ 102
    + (if r.ff then 2 ^ 110 else 0) + (if r.wake then 2 ^ 111 else 0))

/-- Doublewords from index `i` on. -/
def snapAt (i : Nat) (l : List Word) : Tbl Word := (l.zipIdx.filter (fun e => e.1 != 0)).map (fun e => (i + e.2, e.1))

/-- The header. -/
def snapHead (b : Block) (cause ch : Nat) : Tbl Word :=
  snapAt 0 [b.time.ns, put 0 8 b.time.tgen ||| put 8 2 cause ||| put 10 3 ch, versionReg, put 0 32 b.obs.stamp,
    put 0 32 b.ev.nextSeq.toNat, pwrStat b]

/-- Contexts. -/
def snapCtx (b : Block) : Tbl Word :=
  (List.range 64).flatMap (fun c => snapAt (128 + 2 * c)
    [ctxW0 b c, put 0 16 (b.txns.filter (fun x => x.req.ctx.toNat == c)).length ||| put 16 4 (b.tallies.filter (fun t => t.ctx == c)).length])

/-- The request a transfer serves. -/
def xferTxn (b : Block) (x : Xfer) : Option Txn :=
  match x.payload with
  | .lines (op :: _) => txnOf b op.uid
  | .sump u | .inst u | .desc u | .tally u => txnOf b u
  | _ => none

/-- Bridge outputs and S0. -/
def snapBridge (b : Block) : Tbl Word :=
  let outs := (List.range 8).map PathId.brX0 ++ [PathId.brS0, .brCw]
  let one (e : PathId × Nat) : Tbl Word :=
    let l := pathXfers b e.1
    let pay : BitVec 112 := match l with | x :: _ => ((xferTxn b x).map reqPayload).getD 0 | [] => 0
    let st := pathOf b e.1
    snapAt (256 + 4 * e.2) [put 0 10 l.length ||| putBit 10 (decide (b.now < st.freeAt)) ||| put 11 4 (st.last.getD 0),
      pay.extractLsb' 0 64, pay.extractLsb' 64 48 |>.setWidth 64]
  outs.zipIdx.flatMap one ++ snapAt 320
    [put 0 32 b.sump.out.length,
     (match b.sump.out with | r :: _ => put 0 8 r.id.toNat ||| put 32 32 ((b.now - r.since) * 2 / 5) | [] => 0),
     put 0 32 ((262144 - s0Reserved b) / 1024)]

/-- Peer ports. -/
def snapPeer (b : Block) (n : Nat) : Tbl Word :=
  let l := linkOf b n
  let queued (vc : Nat) : Nat := (l.tx.filter (fun m => vcOf m.kind == vc)).foldl (fun a m => a + m.len) 0
  let head (vc : Nat) : BitVec 128 := match l.tx.find? (fun m => vcOf m.kind == vc) with | some m => m.hdr | none => 0
  snapAt (512 + 128 * n)
    ([peerStat b n, put 0 16 l.credit.1 ||| put 16 16 l.credit.2.1 ||| put 32 8 l.credit.2.2,
      put 0 8 l.replay.length ||| put 8 12 (match outSeqs l with | s :: _ => s | [] => 0)
        ||| put 20 32 (if l.replay.isEmpty then 0 else (b.now - l.sentAt.headD 0) * 2 / 5),
      put 0 16 (queued 0) ||| put 16 16 (queued 1) ||| put 32 16 (queued 2)]
     ++ ([0, 1, 2] : List Nat).flatMap (fun vc => [(head vc).extractLsb' 0 64, (head vc).extractLsb' 64 64]))

/-- A head request of a port entry. -/
def snapReq (b : Block) (x : Option Txn) : List Word :=
  match x with
  | none => [0, 0, 0, 0]
  | some x => [(reqPayload x).extractLsb' 0 64, ((reqPayload x).extractLsb' 64 48).setWidth 64,
      put 0 32 x.age ||| put 32 4 (waitCode b x), put 0 32 (waitCount b x)]

/-- A port entry (R463). -/
def snapPort (b : Block) (p : PortId) : List Word :=
  let l := portTxns b p
  let o := outOf b p
  let n (f : Txn → Bool) : Nat := (l.filter f).length
  let owed := (l.filter (fun x => x.op.hasData && !x.gotLast)).foldl (fun a x => a + match beatsDue x with
    | some k => k - x.wbeats.length | none => 1) 0
  let ready := isReady b && decide (p.port ≠ .X0)
  [put 0 9 l.length ||| put 9 9 (n (fun x => x.phase == .waiting .classLimit))
      ||| put 18 9 (n (fun x => x.phase == .waiting .power || x.phase == .waiting .freeze)) ||| put 27 9 (n (fun x => x.stallUs.isSome))
      ||| put 36 9 (n (fun x => waitCode b x == 1)) ||| putBit 45 (canAccept b p && decide (p.port ≠ .X0)) ||| putBit 46 ready
      ||| putBit 47 (offered b p) ||| putBit 48 (o.rdat.isSome && o.rdatAt == b.now) ||| putBit 49 (l.any (fun x => (wrspReady b x).isSome))
      ||| putBit 50 (o.wrsp.isSome && o.wrspAt == b.now) ||| putBit 51 (decide (p.port = .D0) && (chan b p.ch).dmaHalt),
    put 0 8 (if p.port = .X0 then bridgeRoom b p.ch else portRoom b p) ||| put 16 16 owed ||| put 32 32 o.rdatStall,
    put 0 32 o.wrspStall,
    (List.range 8).foldl (fun a c => a ||| put (8 * c) 8 (min 255 (n (fun x => x.req.cls.toNat == c)))) 0]
    ++ snapReq b l.head? ++ snapReq b (l.find? (fun x => !presented b x))

/-- The source code of a bank's oldest waiter (R464). -/
def snapBank (b : Block) (ch bank : Nat) : Word :=
  let c := chan b ch
  let l := (bankWaiters b ch).filter (fun o => o.bank == bank)
  let bs := bankOf c bank
  let old := leastBy (fun o : LineOp => o.readyAt - o.waited) l
  let dr := c.dredge.reads.contains bank || c.dredge.turns.contains bank
  put 0 8 l.length ||| put 8 4 (match old with | some o => min 9 (LineOp.src o) | none => if dr then 10 else 0)
    ||| putBit 12 (match old with | some o => opOwned b o | none => false)
    ||| put 16 13 (match old with | some o => min 8191 (opWait b o) | none => 0)
    ||| put 29 8 ((bs.lastSlot.getD 0) % 256) ||| putBit 37 (sparedNow c bank)
    ||| put 40 16 (min 65535 (b.now - bs.lastAt))

/-- The descriptor a tile lane works on, coded as R464 has it. -/
def snapLane (b : Block) (ch lane : Nat) : Word :=
  let l := b.descs.filter (fun d => d.ch == ch && d.lane == lane && d.stage != .issued)
  match l with
  | [] => 0
  | d :: _ => match txnOf b d.uid with
    | none => 0
    | some x =>
      let st := if x.stallUs.isSome then 3 else match d.stage with | .expanding => 2 | _ => 1
      put 0 2 st ||| put 2 6 x.req.ctx.toNat ||| put 8 8 x.req.shift.toNat ||| put 16 8 (l.filter (fun d => d.stage == .queued)).length

/-- The unit entry of a channel (R464). -/
def snapUnits (b : Block) (ch : Nat) : List Word :=
  let c := chan b ch
  let g := b.descs.filter (fun d => d.ch == ch && d.lane == 8 && d.stage != .issued)
  let held := g.foldl (fun a d => a + (d.indexNext - ((gatherOf d.desc).ibase % 128 + 4 * d.rowNext) / 128)) 0
  let stalled := (g.filter (fun d => match txnOf b d.uid with | some x => x.stallUs.isSome | none => false)).length
  let seq := if c.recov.isSome then 2 else if c.spare.phase ≠ 0 then 4
    else if b.ctxs.any (fun e => e.2.sweep.isSome) then 3 else if c.stopped then 1 else 0
  (List.range 8).map (snapLane b ch) ++
    [put 0 5 g.length ||| put 5 5 held ||| put 10 10 stalled,
     put 0 6 c.merge.length ||| put 8 8 (match c.merge with | e :: _ => min 255 (b.now - e.alloc) | [] => 0),
     put 0 4 c.repair.length ||| put 4 13 c.dredge.row, put 0 3 seq ||| put 16 24 (spareMap c.spare).toNat]

/-- A channel entry. -/
def snapChan (b : Block) (n : Nat) : Tbl Word :=
  let base := 1024 + 384 * n
  let ports : List Port := [.M0, .M1, .M2, .M3, .V0, .V1, .D0, .I0, .X0]
  ports.zipIdx.flatMap (fun e => snapAt (base + 32 * e.2) (snapPort b { ch := n, port := e.1 }))
    ++ (List.range 8).flatMap (fun k => snapAt (base + 288 + 8 * k) ((List.range 8).map (fun j => snapBank b n (8 * k + j))))
    ++ snapAt (base + 352) (snapUnits b n)

/-- Everything a capture copies. -/
def snapshotOf (b : Block) (cause ch : Nat) : Tbl Word :=
  snapHead b cause ch ++ snapCtx b ++ snapBridge b ++ (List.range b.build.peers).flatMap (snapPeer b)
    ++ (List.range b.build.channels).flatMap (snapChan b)

/-- A capture at its edge C (R460). -/
def capture (b : Block) (cause ch : Nat) (cmd : Option Nat) : Block :=
  { b with obs := { b.obs with sndBusy := true, sndCause := cause, sndCmd := cmd, snapshot := snapshotOf b cause ch } }

/-- A SOUNDING command (R460, R461). -/
def soundingCmd (b : Block) (idx : Nat) (force : Bool) : Block :=
  if b.obs.sndBusy then complete b idx cRefused rBusy
  else if b.obs.sndHeld ∧ force = false then complete b idx cRefused rState
  else capture b 1 0 (some idx)

/-- The capture of a channel recovery always proceeds (R461); a copy it cuts short completes REFUSED. -/
def soundingRecovery (b : Block) (ch : Nat) : Block :=
  let b := if b.obs.sndBusy then completeIf b b.obs.sndCmd cRefused rBusy else b
  let b := { b with obs := { b.obs with sndOver := if b.obs.sndHeld then satAdd 255 b.obs.sndOver 1 else b.obs.sndOver, sndHeld := true } }
  capture b 2 ch none

/-- SOUNDING_COPY_DONE (R460, R465). -/
def soundingDone (b : Block) : Block :=
  if b.obs.sndBusy then
    let cmd := b.obs.sndCmd
    completeIf { b with obs := { b.obs with sndBusy := false, sndHeld := true, sndCmd := none } } cmd cOkay 0
  else b

/-! The commands. -/

/-- FREEZE (R446): the level on the FREEZE input. -/
def execFreeze (high : Bool) (s : State) : Host.Outcome State Fault Refusal := done s (freezePin s.blk high)

/-- TRACE_TRIGGER (R455). -/
def execTraceTrigger (src : Nat) (s : State) : Host.Outcome State Fault Refusal := done s (traceTrigger s.blk src)

/-- TRACE_POST_DONE (R454). -/
def execTracePostDone (s : State) : Host.Outcome State Fault Refusal := done s (tracePostDone s.blk)

/-- TRACE_SYNC (R452). -/
def execTraceSync (s : State) : Host.Outcome State Fault Refusal := done s (syncDue s.blk)

/-- COUNTER_SAMPLE (R449). -/
def execCounterSample (s : State) : Host.Outcome State Fault Refusal := done s (counterSample s.blk)

/-- T0_RECORD_SEND (R458). -/
def execT0RecordSend (s : State) : Host.Outcome State Fault Refusal := done s (t0Send s.blk)

/-- SOUNDING_COPY_DONE (R460). -/
def execSoundingCopyDone (s : State) : Host.Outcome State Fault Refusal := done s (soundingDone s.blk)

end Sys2Proof.Machine
end

