-- ==== Sys2Proof/Machine/Recovery.lean ====
section
/-! DEFINITION. Contexts and recovery (R72 to R74, R374 to R400): shifts, sweeps, fabric aborts, hangs, channel recoveries
and the start of an instance reset or a power cycle. -/

namespace Sys2Proof.Machine

/-! Context state. -/

/-- A record of class 4 for a context (R449, R451). -/
def traceCtx (b : Block) (kind c : Nat) : Block :=
  trace b 4 kind { ch := 0, port := 0, ctx := c } none (put 0 8 (ctxOf b c).shift.toNat ||| put 8 2 (ctxOf b c).state.code)

/-- The limit of the timer between two bumps of a context, in µs: ABORT_QUIET ÷ 256, rounded up (R39, R379, log 94). -/
def bumpGap (b : Block) : Nat := (abortQuiet b + 255) / 256
def bumpReady (b : Block) (c : Nat) : Bool :=
  match (ctxOf b c).lastBump with
  | none => true
  | some t => usDue b t (bumpGap b)

/-- A shift advances by 1 modulo 256 (R378). -/
def bump (b : Block) (c : Nat) : Block := setCtx b c (fun x => { x with shift := x.shift + 1, lastBump := some (usNow b) })

/-- Quiet time remains (R389). -/
def inQuiet (b : Block) (c : Nat) : Bool := decide (0 < quietLeft b (ctxOf b c))

/-- The result of a context command (R484). -/
def shiftResult (b : Block) (c : Nat) : Word := put 0 8 (ctxOf b c).shift.toNat

/-! What a sweep removes (R382). -/

/-- A request of context c: its own, or one of another instance that names it (R381, R382). -/
def ofCtx (c : Nat) (x : Txn) : Bool := x.req.ctx.toNat == c

/-- A request that has not been answered is removed: its data is discarded, and it waits for its answer (R384). One that is held after a
decode failure stays held until then (R73, R385). -/
def sweepTxn (x : Txn) : Txn :=
  match x.phase with
  | .answered _ | .decodeHeld _ => x
  | _ => { x with phase := .swept, results := [], stallUs := none, autoWake := false }

/-- A line operation before its point of no return. -/
def beforeCommit (o : LineOp) : Bool :=
  o.kind != .drain && !bySequencer o.kind && o.stage != .store && o.stage != .line

/-- Zero lines that a removed write had claimed and nothing writes any more read by their tags again (R182). -/
def dropClaims (b : Block) : Block :=
  let wanted (k : Nat) : Bool := b.ops.any (fun o => !isReadKind o.kind && lineKey o.ch o.bank o.row == k)
    || b.chans.any (fun e => e.2.merge.any (fun m => lineKey e.1 m.bank m.row == k))
    || b.xfers.any (fun x => x.ops.any (fun o => !isReadKind o.kind && lineKey o.ch o.bank o.row == k))
  { b with zeroLines := b.zeroLines.filter wanted }

/-- A transfer of a context; the block's own record and doorbell writes are of none (R376). -/
def xferCtx (c : Nat) (x : Xfer) : Bool :=
  match x.payload with | .record _ | .doorbell => false | _ => x.ctx == c

/-- Step 2 of a sweep: every unit removes the context's work; its merge entries drain. -/
def sweepWork (a : Arrays) (b : Block) (c : Nat) : Block :=
  let gone := (b.txns.filter (ofCtx c)).map (fun x => x.uid)
  let b := { b with
    ops := b.ops.filter (fun o => !(o.ctx == c && beforeCommit o))
    xfers := b.xfers.filter (fun x => !xferCtx c x)
    descs := b.descs.filter (fun d => !gone.contains d.uid)
    sump := { b.sump with queue := b.sump.queue.filter (fun r => match r.who with | .data _ => r.ctx != c | _ => true) }
    txns := b.txns.map (fun x => if ofCtx c x then sweepTxn x else x) }
  let b := dropClaims ((List.range b.build.channels).foldl (fun b n => drainWhere a b n (fun e => e.ctx == c)) b)
  (List.range b.build.channels).foldl (fun b n => (List.range 9).foldl (fun b lane => laneFetch b n lane) b) b

/-- Work of the context past its point of no return is still on its way (R383 step 3). -/
def sweepBusy (b : Block) (c : Nat) : Bool :=
  b.ops.any (fun o => o.ctx == c && !bySequencer o.kind) || b.chans.any (fun e => e.2.merge.any (fun m => m.ctx == c))
    || b.xfers.any (xferCtx c)

/-! Fabric aborts (R387 to R390, R318 to R320). -/

/-- A sweep starts (R383 steps 1 and 2). A context that is RESETTING has its CW_CTXJOB entry (R377). -/
def startSweep (a : Arrays) (b : Block) (c : Nat) (abortOnly abort : Bool) (final : CState) (cmds : List Nat) : Block :=
  let b := if abortOnly then b else bump b c
  let b := setCtx b c (fun x => { x with
    state := .resetting, resets := satAdd 65535 x.resets 1
    sweep := some { abortOnly := abortOnly, abort := abort, final := final, startAt := b.now, limitUs := usNow b, escalated := false,
                    cmds := cmds } })
  let x := ctxOf b c
  let b := { b with recov := { b.recov with lastLevel := 1 }, cw := { b.cw with jobs := tset b.cw.jobs c (x.pkg, x.job) } }
  let b := breakTallies a (traceCtx b 1 c) (fun t => t.ctx == c) false (fun _ => false)
  sweepWork a b c

/-- The context takes part in an abort (R389). -/
def abortCtx (a : Arrays) (b : Block) (c : Nat) : Block :=
  let b := setCtx b c (fun x => { x with quietFrom := some (usNow b) })
  let b := traceCtx b 3 c
  match (ctxOf b c).state with
  | .open => startSweep a b c true false .rejecting []
  | .resetting => setCtx b c (fun x => { x with sweep := x.sweep.map (fun s =>
      { s with final := if s.final = .closed then .closed else .rejecting }) })
  | _ => b

/-- An abort reaches the core while it can act (R389): one ABORT_RECV record if a context matches. -/
def abortNow (a : Arrays) (b : Block) (job : BitVec 32) (pkg : BitVec 14) (src aseq : Nat) : Block :=
  let hit := (List.range 64).filter (fun c => (ctxOf b c).state != .closed && (ctxOf b c).job == job)
  if hit.isEmpty then b
  else
    let b := emit b 0x61 none none (put 0 32 job.toNat ||| put 32 14 pkg.toNat ||| put 48 6 src ||| put 56 8 aseq)
    hit.foldl (fun b c => abortCtx a b c) b

/-- Delivery of an abort (R320): at once in Run and Idle, latched in Sleep and Deep sleep if a job matches, else discarded.
A JOB_ABORT command completes with its delivery. -/
def deliverAbort (a : Arrays) (b : Block) (job : BitVec 32) (pkg : BitVec 14) (src aseq : Nat) (cmd : Option Nat) : Block :=
  if isReady b = false then b
  else if coreState b ≤ 1 then completeIf (abortNow a b job pkg src aseq) cmd cOkay 0
  else if b.cw.jobs.any (fun e => e.2.2 == job) then
    { b with cw := { b.cw with latched := b.cw.latched ++ [(job, pkg, src, aseq, cmd)] } }
  else completeIf b cmd cOkay 0

/-- Latched aborts are delivered when the core has woken (R320). -/
def deliverLatched (a : Arrays) (b : Block) : Block :=
  if isReady b && decide (coreState b ≤ 1) && !b.cw.latched.isEmpty then
    let l := b.cw.latched
    l.foldl (fun b (job, pkg, src, aseq, cmd) => completeIf (abortNow a b job pkg src aseq) cmd cOkay 0)
      { b with cw := { b.cw with latched := [] } }
  else b

/-- The ASEQ values of a source remembered: the last 32 (R319). -/
def noteSeen (b : Block) (src aseq : Nat) : Block :=
  let l := tget [] b.cw.seen src
  { b with cw := { b.cw with seen := tset b.cw.seen src ((aseq :: l).take 32) } }

/-- The ABORT message of a pair (R301). -/
def abortMsg (b : Block) (job : BitVec 32) (pkg : BitVec 14) (aseq : Nat) : Msg :=
  ctlMsg b 7 0 true (job.toNat * 2 ^ 21 + pkg.toNat * 2 ^ 53 + aseq * 2 ^ 67)

/-- One pair: its ABORT flits, and the delivery to this core (R318, R387). -/
def startPair (a : Arrays) (b : Block) (p : BitVec 32 × BitVec 14) (cmd : Option Nat) : Block :=
  let seq := b.cw.aseq
  let b := noteSeen { b with cw := { b.cw with aseq := (seq + 1) % 256 } } b.cw.instNum seq
  deliverAbort a (flood b none (abortMsg b p.1 p.2 seq)) p.1 p.2 b.cw.instNum seq cmd

/-- The pairs of one event: a burst on the abort outputs, after a period of low if another burst precedes (R388). -/
def startAborts (a : Arrays) (b : Block) (pairs : List (BitVec 32 × BitVec 14)) (cmd : Option Nat) : Block :=
  if pairs.isEmpty then b
  else
    let gap : List (Option (BitVec 32 × BitVec 14)) := if b.recov.abortOut.isEmpty && b.recov.abortNow.isNone then [] else [none]
    let b := { b with recov := { b.recov with abortOut := b.recov.abortOut ++ gap ++ pairs.map some } }
    pairs.foldl (fun b p => startPair a b p cmd) b

/-- The outputs of the next REF_AON period (R388). -/
def abortPeriod (b : Block) : Block :=
  match b.recov.abortOut with
  | [] => { b with recov := { b.recov with abortNow := none } }
  | p :: rest => { b with recov := { b.recov with abortNow := p, abortOut := rest } }

/-! Context resets (R376, R379, R385). -/

/-- A context opens (R376, R377, R167). -/
def openCtx (b : Block) (cmd c : Nat) (job : BitVec 32) (pkg : BitVec 14) : Block :=
  let b := { b with regs := { b.regs with canaryFlag := b.regs.canaryFlag &&& ~~~(1#64 <<< c) },
                    cw := { b.cw with jobs := tset b.cw.jobs c (pkg, job) } }
  let b := setCtx b c (fun x => { x with
    state := .open, faulted := false, job := job, pkg := pkg, site := x.site &&& ~~~(1#64 <<< 63), trip := [] })
  complete (traceCtx b 0 c) cmd cOkay 0 (shiftResult b c)

/-- A waiter joins the context's list. -/
def waitCtx (b : Block) (c : Nat) (w : CtxWait) : Block := setCtx b c (fun x => { x with wait := x.wait ++ [w] })

/-- A running context reset is joined: no second bump (R376, R385). -/
def joinSweep (b : Block) (c : Nat) (close : Bool) (cmd : Option Nat) (f : Sweep → Sweep) : Block :=
  setCtx b c (fun x => { x with sweep := x.sweep.map (fun s =>
    let s := f { s with cmds := s.cmds ++ cmd.toList }
    if close then { s with final := .closed } else s) })

/-- A CTX_RESET or CTX_CLOSE whose quiet wait is over: it starts its sweep, joins the running one, or waits for the
spacing of bumps (R376, R379, R385). The ABORT bit of a joining command has no effect of its own. -/
def ctxResetGo (a : Arrays) (b : Block) (c : Nat) (abort close : Bool) (cmd : Option Nat) : Block :=
  let x := ctxOf b c
  let hold (b : Block) : Block := waitCtx b c (.bump (cmd.getD (2 ^ 32)) abort close)
  match x.sweep with
  | some s =>
    if s.abortOnly = false then joinSweep b c close cmd id
    else if bumpReady b c then
      joinSweep (bump b c) c close cmd (fun s => { s with abortOnly := false, final := .rejecting })
    else hold b
  | none =>
    if x.state = .closed then completeIf b cmd cRefused rState
    else if bumpReady b c = false then hold b
    else
      let pair := (x.job, x.pkg)
      let b := startSweep a b c false abort (if close then .closed else if abort then .rejecting else .open) cmd.toList
      if abort then startAborts a b [pair] none else b

/-- CTX_RESET and CTX_CLOSE, by command or by the sequencer (R376, R487). -/
def ctxReset (a : Arrays) (b : Block) (c : Nat) (abort close : Bool) (cmd : Option Nat) : Block :=
  let x := ctxOf b c
  if x.wait.any (fun w => match w with | .openQuiet _ _ _ => true | _ => false) then completeIf b cmd cRefused rBusy
  else if x.state = .closed then completeIf b cmd cRefused rState
  else if x.state = .rejecting ∧ close = false ∧ inQuiet b c = true then waitCtx b c (.resetQuiet (cmd.getD (2 ^ 32)) abort)
  else ctxResetGo a b c abort close cmd

/-- CTX_OPEN (R376). -/
def ctxOpenCmd (b : Block) (cmd c : Nat) (job : BitVec 32) (pkg : BitVec 14) : Block :=
  let x := ctxOf b c
  if x.wait.any (fun w => match w with | .openQuiet _ _ _ => true | _ => false) then complete b cmd cRefused rBusy
  else if x.state ≠ .closed then complete b cmd cRefused rState
  else if inQuiet b c then waitCtx b c (.openQuiet cmd job pkg)
  else openCtx b cmd c job pkg

/-- A waiter whose time has come. -/
def resumeWait (a : Arrays) (c : Nat) (b : Block) (w : CtxWait) : Block :=
  let idx (n : Nat) : Option Nat := if n < 2 ^ 32 then some n else none
  match w with
  | .openQuiet cmd job pkg => if (ctxOf b c).state = .closed then openCtx b cmd c job pkg else complete b cmd cRefused rState
  | .resetQuiet cmd abort => ctxResetGo a b c abort false (idx cmd)
  | .bump cmd abort close => ctxResetGo a b c abort close (idx cmd)

/-- QUIET_TIME_END (R376, R389). -/
def quietEnd (a : Arrays) (b : Block) (c : Nat) : Block :=
  if inQuiet b c then b
  else
    let isQ (w : CtxWait) : Bool := match w with | .bump _ _ _ => false | _ => true
    let l := (ctxOf b c).wait
    (l.filter isQ).foldl (resumeWait a c) (setCtx b c (fun x => { x with wait := l.filter (fun w => !isQ w) }))

/-- BUMP_SPACING_END (R379). -/
def bumpEnd (a : Arrays) (b : Block) (c : Nat) : Block :=
  if bumpReady b c = false then b
  else
    let isB (w : CtxWait) : Bool := match w with | .bump _ _ _ => true | _ => false
    let l := (ctxOf b c).wait
    (l.filter isB).foldl (resumeWait a c) (setCtx b c (fun x => { x with wait := l.filter (fun w => !isB w) }))

/-- A removed request, or one held after a decode failure, is answered ABORTED (R73, R384). -/
def answerSwept (b : Block) (p : Txn → Bool) : Block :=
  let waits (x : Txn) : Bool := match x.phase with | .swept | .decodeHeld _ => true | _ => false
  { b with txns := b.txns.map (fun x => if waits x && p x then { x with phase := .answered .aborted, due := b.now + 1 } else x) }

/-- Step 5 of R383. -/
def finishSweep (b : Block) (c : Nat) (s : Sweep) : Block :=
  let b := setCtx b c (fun x => { x with state := s.final, faulted := x.faulted && s.abortOnly, sweep := none })
  let b := if s.abortOnly then b else { b with tallies := b.tallies.filter (fun t => !(t.ctx == c && t.state == .lost)) }
  let b := if s.final = .open then b else { b with cw := { b.cw with jobs := b.cw.jobs.filter (fun e => e.1 != c) } }
  let b := emit b 0x60 none (ctxField b c)
    (put 0 2 s.final.code ||| putBit 2 s.abort ||| putBit 3 s.abortOnly) (BitVec.ofNat 64 ((b.now - s.startAt) * 2 / 5))
  s.cmds.foldl (fun b i => complete b i cOkay 0 (shiftResult b c)) (traceCtx b 2 c)

/-- A context reset has joined the abort sweep and waits for the spacing of bumps: it is part of the sweep (R376, R385). -/
def bumpAwaited (b : Block) (c : Nat) : Bool :=
  (ctxOf b c).wait.any (fun w => match w with | .bump _ _ _ => true | _ => false)

/-- SWEEP_END (R383): once the committed work has finished, every removed request is answered; once all are gone, the
sweep ends. -/
def sweepEnd (b : Block) (c : Nat) : Block :=
  match (ctxOf b c).sweep with
  | none => b
  | some s =>
    if sweepBusy b c then b
    else
      let b := answerSwept b (ofCtx c)
      if b.txns.any (ofCtx c) || bumpAwaited b c then b else finishSweep b c s

/-! Instance reset and power cycle (R397 to R400). -/

/-- The pithead's device has a dump area, by its last discovery (R326). -/
def hasDumpArea (b : Block) : Bool := isPithead b && b.bring.dumpArea

/-- PWR_CYCLE_REQ is called for (R399, R400): the pithead first tries to write its crash dump. -/
def powerCycle (b : Block) : Block :=
  let b := { b with recov := { b.recov with lastLevel := 4 } }
  if hasDumpArea b then
    { b with bring := { b.bring with dumpPending := true }, recov := { b.recov with dumpWait := some (usNow b) } }
  else { b with recov := { b.recov with pwrCycleReq := true } }

/-- Boot failure, or a third instance reset within RECOV_WINDOW, asks for a power cycle if AUTO_PWR = 1 (R397). -/
def escalatePower (b : Block) : Block := if bit b.regs.recovCtl 3 then powerCycle b else b

/-- The jobs of R318, in ascending context. -/
def jobPairs (b : Block) : List (BitVec 32 × BitVec 14) :=
  (List.range 64).filterMap (fun c => (b.cw.jobs.find? (fun e => e.1 == c)).map (fun e => (e.2.2, e.2.1)))

/-- Steps 1 to 3 of R398; a second cause joins the reset that runs. -/
def startInstReset (a : Arrays) (b : Block) (cause : Nat) (retrain : Bool) : Block :=
  if b.recov.draining.isSome ∨ b.bring.inReset = true then b
  else
    let b := startAborts a b (jobPairs b) none
    let b := { b with cw := { b.cw with jobs := [] } }
    let b := emit b 0x64 none none (put 0 4 cause ||| putBit 4 retrain)
    { b with
      bring := { b.bring with dumpPending := b.bring.dumpPending || isPithead b }
      recov := { b.recov with draining := some (usNow b), cause := cause, retrain := retrain, resetUs := usNow b } }

/-- Escalation from a channel (R397). -/
def escalateInst (a : Arrays) (b : Block) : Block := if bit b.regs.recovCtl 2 then startInstReset a b 2 false else b

/-! Channel recovery (R391 to R395). -/

/-- Work of a request lies in channel n (R392): it waits in a port of the channel, or has operations, transfers, lanes or
unissued lines there. -/
def workIn (b : Block) (n : Nat) (x : Txn) : Bool :=
  let here := !isRemote x.org && x.org.chan == n
  let inPath (t : Xfer) : Bool := xferOf t x.uid && match t.path with | .spine c _ => c == n | .x0e c => c == n | _ => false
  match x.phase with
  | .answered _ | .swept | .decodeHeld _ => false
  | .waiting .freeze | .waiting .power => false
  | .waiting _ => here
  | .active =>
    (opsOf b x.uid).any (fun o => o.ch == n && beforeCommit o) || b.xfers.any inPath || b.descs.any (fun d => d.uid == x.uid && d.ch == n)
      || (here && x.op.isRange && decide (x.issuedLines < x.total)) || (here && decide (x.total = 0))

/-- The contexts whose work lies in the channel, ascending. -/
def suspectsOf (b : Block) (n : Nat) : List Nat :=
  (List.range 64).filter (fun c => b.txns.any (fun x => ofCtx c x && workIn b n x))

def markSuspects (b : Block) (l : List Nat) (v : Bool) : Block := l.foldl (fun b c => setCtx b c (fun x => { x with suspect := v })) b

/-- Step 2 of R392: freeze, suspects, sounding. A handshake that concerns the channel is abandoned (R364). -/
def freezeChan (b : Block) (n : Nat) (r : Recov) : Block :=
  let concerned := match b.power.hs with | some h => hsOpen h && (hsOver b n).isSome | none => false
  let b := if concerned then abandonHs b 9 n else b
  let s := suspectsOf b n
  let b := markSuspects (setChan b n (fun c => { c with recov := some { r with phase := .reset, suspects := s } })) s true
  let b := { b with recov := { b.recov with chRecoveries := satAdd 65535 b.recov.chRecoveries 1, lastLevel := 2 } }
  soundingRecovery b n

/-- A recovery before its check. -/
def newRecov (b : Block) (n ctx : Nat) (replay abort : Bool) (cmd : Option Nat) : Recov :=
  { phase := .check, startAt := b.now, fromUs := usNow b, grants0 := (chan b n).grants, replay := replay, abort := abort, cmd := cmd,
    ctx := ctx, suspects := [], left := [], guilty := [], last := [], removed := [], replayUs := 0, late := false }

/-- A RECOVERY record: the level that would have been taken (R391). -/
def recoveryRecord (b : Block) (ch : Option Nat) (c level : Nat) : Block := emit b 0x62 ch (ctxField b c) (put 0 2 level)

/-- The sequencer resets a hung context, if it may and the context still stands open (R391). -/
def autoReset (a : Arrays) (b : Block) (c : Nat) : Block :=
  if (ctxOf b c).state ≠ .open then b
  else if bit b.regs.recovCtl 0 then ctxReset a b c false false none
  else recoveryRecord b none c 1

/-- CHANNEL_STALL_CHECK (R391, R392): 2 µs after the hand-off the channel recovers if it is stalled; else the context is reset. -/
def stallCheck (a : Arrays) (b : Block) (n : Nat) : Block :=
  match (chan b n).recov with
  | none => b
  | some r =>
    if r.phase ≠ .check ∨ usDue b r.fromUs 2 = false then b
    else
      let waits := (bankWaiters b n).any (fun o => decide (o.readyAt ≤ r.startAt))
      if waits ∧ (chan b n).grants = r.grants0 then
        (if bit b.regs.recovCtl 1 then freezeChan b n r
         else recoveryRecord (setChan b n (fun c => { c with recov := none })) (some n) r.ctx 2)
      else autoReset a (setChan b n (fun c => { c with recov := none })) r.ctx

/-- Step 3 of R392: every unit of the channel is cleared. -/
def clearChan (a : Arrays) (b : Block) (n : Nat) : Block × List Nat :=
  let acq := (b.tallies.filter (fun t => t.state == .waiting && t.ch == n)).map (fun t => t.uid)
  let gone := ((b.txns.filter (fun x => workIn b n x || acq.contains x.uid)).map (fun x => x.uid))
  let inPath (t : Xfer) : Bool :=
    (match t.path with | .spine c _ => c == n | .x0e c => c == n | _ => false)
      && (match t.payload with | .record _ | .doorbell => false | _ => true)
  let b := { b with
    ops := b.ops.filter (fun o => !(o.ch == n && beforeCommit o))
    xfers := b.xfers.filter (fun t => !inPath t)
    descs := b.descs.filter (fun d => !(d.ch == n || gone.contains d.uid))
    txns := b.txns.map (fun x => if gone.contains x.uid then sweepTxn x else x) }
  (dropClaims (drainWhere a b n (fun _ => true)), gone)

/-- The last operation of a context among removed requests (R392 step 3). -/
def lastOf (b : Block) (gone : List Nat) (c : Nat) : Option Nat :=
  ((b.txns.filter (fun x => gone.contains x.uid && ofCtx c x)).getLast?).map (fun x => x.uid)

/-- Contexts are reset with ABORT = 1, all started together (R394): every sweep starts, then each of their pairs is aborted once (R318,
R387). One whose shift may not advance yet waits, and aborts its pair when it starts (R379). -/
def resetTogether (a : Arrays) (b : Block) (l : List Nat) : Block :=
  let open_ := l.filter (fun c => (ctxOf b c).state == .open)
  let (go, wait) := open_.partition (bumpReady b)
  let pairs := (go.map (fun c => ((ctxOf b c).job, (ctxOf b c).pkg))).eraseDups
  let b := go.foldl (fun b c => startSweep a b c false true .rejecting []) b
  startAborts a (wait.foldl (fun b c => ctxReset a b c true false none) b) pairs none

/-- Verdict and resume (R394, steps 5 and 6 of R392). -/
def verdict (a : Arrays) (b : Block) (n : Nat) (r : Recov) : Block :=
  let none_ := r.replay && r.guilty.isEmpty
  let guilty := if none_ || (!r.replay && r.abort) then r.suspects else r.guilty
  let again := none_ && match (chan b n).noneGuiltyUs with
    | some t => decide (usNow b ≤ t + recovWindow b * 1000000)
    | none => false
  let b := setChan b n (fun c => { c with recov := none, noneGuiltyUs := if none_ then some (usNow b) else c.noneGuiltyUs })
  let b := answerSwept b (fun x => r.removed.contains x.uid && !guilty.contains x.req.ctx.toNat)
  let b := markSuspects (resetTogether a b guilty) r.suspects false
  let b := { b with recov := { b.recov with lastLevel := 2 } }
  let mask (l : List Nat) : Word := l.foldl (fun w c => w ||| (1#64 <<< c)) 0
  let b := emit b 0x63 (some n) none (mask r.suspects) (mask guilty) (BitVec.ofNat 64 ((b.now - r.startAt) * 2 / 5))
  let b := completeIf b r.cmd cOkay 0 (mask r.suspects)
  let b := { b with ctxs := b.ctxs.map (fun e => (e.1, { e.2 with sweep := e.2.sweep.map (fun s => { s with limitUs := usNow b }) })) }
  if again then escalateInst a b else b

/-- The words of a line as a read would return them now. -/
def lineNow (a : Arrays) (b : Block) (line : Nat) : LineData × WordMask :=
  let l := locOf b.build (seamOf b (seamNo b line)) line
  let key := lineKey l.ch l.bank l.row
  let zero := b.zeroLines.contains key || ((seamOf b (seamNo b line)).zmap && tagged a l.ch l.bank l.row)
  let ds := if zero then List.replicate 16 cleanZero else rawLine a.mem (servedKey b l.ch l.bank l.row)
  withMerge b l.ch line (lineData ds) (badWords ds)

/-- The lines that a suspect's last operation would touch, its descriptor and index lines among them (R393). -/
def replayLines (a : Arrays) (b : Block) (x : Txn) : List Nat :=
  let ptr := localOf x.req.addr
  if x.op.isRange then reqLines x.req
  else if x.op.isDesc then
    let desc := (lineNow a b (ptr / 128)).1.extractLsb' (ptr / 64 % 2 * 512) 512
    if x.op.isGather then
      let g := gatherOf desc
      let idx := (List.range (indexLines g)).map (fun k => g.ibase / 128 + k)
      let val (j : Nat) : Nat := let p := g.ibase % 128 + 4 * j; fld (lineNow a b (g.ibase / 128 + p / 128)).1 (p % 128 * 8) 32
      let rows := ((List.range g.count).map val).filter (fun v => decide (v < g.limit))
      (ptr / 128 :: idx) ++ rows.flatMap (fun v => tableLines g v)
    else (ptr / 128) :: (tilePlan x.op (reqWidth x) (tileOf desc)).map (fun p => p.line)
  else []

/-- The line operations of a replay bid for their slots (R31, R393): each line that the operation would touch takes one read slot. -/
def postReplay (a : Arrays) (b : Block) (n : Nat) (x : Txn) : Block :=
  (replayLines a b x).foldl (fun b line =>
    let k := seamNo b line
    let op := mkOp b x (portIssuer x.org) .replay k (seamOf b k).format line n 0 0 0 (b.serial + 1)
    postOp b { op with readyAt := b.now + 1 }) b

/-- The replay of the next suspect's last operation begins, or the verdict falls. -/
def nextSuspect (a : Arrays) (b : Block) (n : Nat) (r : Recov) : Block :=
  match r.left with
  | [] => verdict a b n r
  | c :: _ =>
    let b := setChan b n (fun k => { k with recov := some { r with replayUs := usNow b } })
    match (r.last.find? (fun e => e.1 == c)).bind (fun e => txnOf b e.2) with
    | some x => postReplay a b n x
    | none => b

/-- CHANNEL_RESET_DONE (R392 step 3, R395). -/
def channelResetDone (a : Arrays) (b : Block) (n : Nat) : Block :=
  match (chan b n).recov with
  | none => b
  | some r =>
    if r.phase ≠ .reset then b
    else
      let (b, gone) := clearChan a b n
      let last := r.suspects.filterMap (fun c => (lastOf b gone c).map (fun u => (c, u)))
      let r := { r with phase := .replay, last := last, removed := gone, left := if r.replay then r.suspects else [], replayUs := usNow b }
      let b := breakTallies a b (fun t => t.ch == n) true (fun _ => false)
      let b := if (chan b n).spare.phase = 0 then b else failSparing a b n 3 id
      let b := setChan b n (fun c => { c with recov := some r, dmaHalt := false })
      nextSuspect a b n r

/-- REPLAY_COMPLETE (R393): every line of the replay has been read, and its suspect is innocent. -/
def replayComplete (a : Arrays) (b : Block) (n : Nat) : Block :=
  match (chan b n).recov with
  | none => b
  | some r =>
    match r.phase, r.left with
    | .replay, _ :: rest => if b.ops.any (fun o => o.kind == .replay && o.no == n) then b else nextSuspect a b n { r with left := rest }
    | _, _ => b

/-- REPLAY_LIMIT (R393): the suspect that replays is guilty. -/
def replayLimitRow (a : Arrays) (b : Block) (n : Nat) : Block :=
  match (chan b n).recov with
  | none => b
  | some r =>
    match r.phase, r.left with
    | .replay, c :: rest =>
      if usDue b r.replayUs (replayLimit b) then
        nextSuspect a { b with ops := b.ops.filter (fun o => o.kind != .replay || o.no != n) } n { r with left := rest, guilty := r.guilty ++ [c] }
      else b
    | _, _ => b

/-- RECOVERY_TIMEOUT (R397): a recovery exceeds 500 µs. -/
def recoveryTimeout (a : Arrays) (b : Block) (n : Nat) : Block :=
  match (chan b n).recov with
  | none => b
  | some r =>
    if r.phase ≠ .check ∧ r.late = false ∧ usDue b r.fromUs 500 = true then
      escalateInst a (setChan b n (fun c => { c with recov := some { r with late := true } }))
    else b

/-- The channel that holds work of a context's sweep. -/
def sweepChan (b : Block) (c : Nat) : Option Nat :=
  match b.ops.find? (fun o => o.ctx == c && !bySequencer o.kind) with
  | some o => some o.ch
  | none => match b.chans.find? (fun e => e.2.merge.any (fun m => m.ctx == c)) with
    | some e => some e.1
    | none => none

/-- SWEEP_ESCALATION (R397): a sweep 50 µs old whose work stands in a channel takes a recovery of that channel. -/
def sweepEscalation (b : Block) (c : Nat) : Block :=
  match (ctxOf b c).sweep with
  | none => b
  | some s =>
    if s.escalated = true ∨ usDue b s.limitUs 50 = false ∨ b.chans.any (fun e => e.2.recov.isSome) = true then b
    else match sweepChan b c with
      | none => b
      | some n =>
        let b := setCtx b c (fun x => { x with sweep := some { s with escalated := true } })
        if bit b.regs.recovCtl 1 then freezeChan b n (newRecov b n c true false none)
        else recoveryRecord b (some n) c 2

/-- CH_RESET (R395, R487). -/
def chResetCmd (b : Block) (cmd n : Nat) (abort : Bool) : Block :=
  if chFrozen b n then complete b cmd cRefused rBusy
  else freezeChan b n (newRecov b n 0 false abort (some cmd))

/-! Hangs (R70 to R74, R391). -/

/-- HANG_LIMIT (R71). -/
def hangLimit (b : Block) : Nat := max 100 (fld b.regs.hangCtl 0 24)

/-- The channel a hung request waits in. -/
def hangChan (b : Block) (x : Txn) : Nat :=
  match (opsOf b x.uid).head?, descOf b x.uid with
  | some o, _ => o.ch
  | none, some d => d.ch
  | none, none => if targetOf b x < 8 then targetOf b x else x.org.chan

/-- The Aplery sequencer takes up a hang of reason 0 (R391). -/
def handOff (a : Arrays) (b : Block) (x : Txn) : Block :=
  let c := x.req.ctx.toNat
  let w := waitCode b x
  let own : Bool := match x.phase with | .waiting .sameBlock => true | _ => w == 2 || w == 4 || w == 5 || w == 6 || w == 0
  if (ctxOf b c).state ≠ .open ∨ w = 9 ∨ w = 13 ∨ w = 3 then b
  else if own ∨ 8 ≤ targetOf b x then autoReset a b c
  else
    let n := hangChan b x
    if (chan b n).recov.isSome then b
    else setChan b n (fun ch => { ch with recov := some (newRecov b n c true false none) })

/-- A context is marked FAULTED (R72, R265). -/
def faultCtx (a : Arrays) (b : Block) (c : Nat) : Block :=
  let acq := (b.tallies.filter (fun t => t.state == .waiting && t.ctx == c)).map (fun t => t.uid)
  let b := breakTallies a (setCtx b c (fun x => { x with faulted := true })) (fun t => t.ctx == c) false (fun _ => false)
  acq.foldl (fun b u => answer b u .aborted (b.now + 1)) b

/-- HANG_WATCHDOG (R70 to R72): a request of the port and ID has reached HANG_LIMIT. -/
def hangWatchdog (a : Arrays) (b : Block) (p : PortId) (id : BitVec 8) : Block :=
  match (portTxns b p).find? (fun x => x.req.id == id && !x.hung && decide (hangLimit b ≤ x.age)) with
  | none => b
  | some x =>
    let c := x.req.ctx.toNat
    let b := setTxn b x.uid (fun x => { x with hung := true })
    let reason := match x.phase with | .decodeHeld k => k | _ => 0
    let rec_ (b : Block) : Block := emit b 0x10 (some p.ch) (some (c, x.req.shift))
      (put 0 48 x.req.addr.toNat ||| put 48 4 (portCode p.port) ||| put 52 4 reason) (put 0 8 x.req.id.toNat)
    if reason = 0 then handOff a (rec_ b) x
    else rec_ (if (ctxOf b c).state = .open then faultCtx a b c else b)

/-! The commands. -/

/-- HANG_WATCHDOG (R70 to R72). -/
def execHangWatchdog (p : PortId) (id : BitVec 8) (s : State) : Host.Outcome State Fault Refusal :=
  guarded (portOk s.blk p) s (hangWatchdog s.arr s.blk p id)

/-- CHANNEL_STALL_CHECK (R391, R392). -/
def execChannelStallCheck (ch : Nat) (s : State) : Host.Outcome State Fault Refusal :=
  guarded (chanOk s.blk ch) s (stallCheck s.arr s.blk ch)

/-- CHANNEL_RESET_DONE (R392, R395). -/
def execChannelResetDone (ch : Nat) (s : State) : Host.Outcome State Fault Refusal :=
  guarded (chanOk s.blk ch) s (channelResetDone s.arr s.blk ch)

/-- REPLAY_COMPLETE (R393). -/
def execReplayComplete (ch : Nat) (s : State) : Host.Outcome State Fault Refusal :=
  guarded (chanOk s.blk ch) s (replayComplete s.arr s.blk ch)

/-- REPLAY_LIMIT (R393). -/
def execReplayLimit (ch : Nat) (s : State) : Host.Outcome State Fault Refusal :=
  guarded (chanOk s.blk ch) s (replayLimitRow s.arr s.blk ch)

/-- RECOVERY_TIMEOUT (R397). -/
def execRecoveryTimeout (ch : Nat) (s : State) : Host.Outcome State Fault Refusal := guarded (chanOk s.blk ch) s (recoveryTimeout s.arr s.blk ch)

/-- SWEEP_END (R383). -/
def execSweepEnd (c : Nat) (s : State) : Host.Outcome State Fault Refusal := guarded (decide (c < 64)) s (sweepEnd s.blk c)

/-- SWEEP_ESCALATION (R397). -/
def execSweepEscalation (c : Nat) (s : State) : Host.Outcome State Fault Refusal :=
  guarded (decide (c < 64)) s (sweepEscalation s.blk c)

/-- QUIET_TIME_END (R376, R389). -/
def execQuietTimeEnd (c : Nat) (s : State) : Host.Outcome State Fault Refusal := guarded (decide (c < 64)) s (quietEnd s.arr s.blk c)

/-- BUMP_SPACING_END (R379). -/
def execBumpSpacingEnd (c : Nat) (s : State) : Host.Outcome State Fault Refusal := guarded (decide (c < 64)) s (bumpEnd s.arr s.blk c)

end Sys2Proof.Machine
end

