-- ==== Sys2Proof/Machine/Events.lean ====
section
/-! DEFINITION. The event ring, its doorbell (R426 to R434) and the timebase (R436 to R439). -/

namespace Sys2Proof.Machine

/-! The ring. -/

/-- EVT_CTL.EN, and the ring's size in bytes as SIZE gives it (R440). -/
def evtOn (e : Events) : Bool := bit e.ctl 0
def ringBytes (e : Events) : Nat := 4096 <<< min 12 (fld e.ctl 1 4)

/-- Records that EVT_HEAD does not cover (R427). -/
def uncovered (e : Events) : Nat := e.issued.length + e.again.length

/-- The ring has a free slot for the next record (R428). -/
def ringFree (e : Events) : Bool := decide ((e.nextSeq - e.tail).toNat < e.ringSize / 64)

/-- S0 can be reached: the core domain is powered and out of reset, and not in Deep sleep (R428, R433). -/
def s0Reach (b : Block) : Bool := !b.bring.inReset && b.power.inst == .on && !b.safety.clkHeld

/-- EN changes from 0 to 1 (R426, R430, R431): the ring is empty from EVT_TAIL on; the records of the issue store, which EVT_HEAD has not
covered, are issued again. -/
def enableRing (b : Block) : Block :=
  let e := b.ev
  { b with ev := { e with
      ringBase := fld e.base 12 30 * 4096, ringSize := ringBytes e, nextSeq := e.tail, head := e.tail, issued := []
      again := e.issued.map (fun r => r.2.2) ++ e.again, dbValue := e.tail, dbFromUs := none } }

/-- EVT_CTL written (R426, R430). -/
def writeEvtCtl (b : Block) (v : Word) : Block :=
  let was := evtOn b.ev
  let b := { b with ev := { b.ev with ctl := v &&& 0x1F#64 } }
  if evtOn b.ev && !was then enableRing b else b

/-- EVT_TAIL written (R432): true where the write takes effect. -/
def writeEvtTail (b : Block) (v : BitVec 32) : Block × Bool :=
  let e := b.ev
  if (v - e.tail).toNat ≤ (e.head - e.tail).toNat then ({ b with ev := { e with tail := v } }, true)
  else ({ b with ev := { e with badTail := true } }, false)

/-- The block's own write bids for the bridge output to S0 (R275): source 9, class 1, QOS 15. -/
def ownWrite (b : Block) (pl : Payload) : Block := addXfer b .brS0 [] 9 (.remote 64 0 0) 1 15 0 (b.now + 1) 1 pl

/-- The S0 write of record SEQ, and of the doorbell (R423, R427, R434). -/
def s0Record (b : Block) (seq : BitVec 32) : S0Req :=
  let dws := match b.ev.issued.find? (fun e => e.1 == seq) with
    | some (_, _, r) => (List.range 8).map (recordDw r seq.toNat)
    | none => List.replicate 8 0
  s0Own b (b.ev.ringBase + 64 * (seq.toNat % (b.ev.ringSize / 64))) 64 (.record seq) dws
def s0Doorbell (b : Block) : S0Req :=
  s0Own b b.ev.dbAddr.toNat 8 .doorbell [put 0 32 b.ev.dbValue.toNat ||| put 32 8 (b.recov.instResets % 256)]

/-- A record takes the next SEQ and is written (R427). -/
def issueRecord (b : Block) (r : Record) : Block :=
  let seq := b.ev.nextSeq
  ownWrite { b with ev := { b.ev with nextSeq := seq + 1, issued := b.ev.issued ++ [(seq, false, r)] } } (.record seq)

/-- The OVERFLOW record (R429). -/
def overflowRecord (b : Block) : Record := mkRecord b 0x01 none none (BitVec.ofNat 64 b.ev.lost) b.ev.lostFirst b.ev.lostLast 0

/-- EVENT_RECORD_ISSUE (R427 to R431): records to issue again come first, then an OVERFLOW, then the pending queue. -/
def issueEvent (b : Block) : Block :=
  let e := b.ev
  if evtOn e && s0Reach b && ringFree e then
    match e.again with
    | r :: rest => issueRecord { b with ev := { e with again := rest } } r
    | [] =>
      if 32 ≤ uncovered e then b
      else if 0 < e.lost then
        let r := overflowRecord b
        let b := trace b 6 0 {} none (put 0 16 1 ||| (r.p3 <<< 32))
        issueRecord { b with ev := { b.ev with lost := 0 } } r
      else match e.queue with
        | r :: rest => issueRecord { b with ev := { e with queue := rest } } r
        | [] => b
  else b

/-! The doorbell (R434). -/

/-- A doorbell falls due: it is written, or merged into the one that follows the outstanding one. -/
def ringDoorbell (b : Block) : Block :=
  if b.ev.dbOut then { b with ev := { b.ev with dbDue := true } }
  else ownWrite { b with ev := { b.ev with dbOut := true, dbDue := false, dbValue := b.ev.head, dbFromUs := none } } .doorbell

/-- The doubleword that the doorbell in flight carries. -/
def doorbellWord (b : Block) : Word := put 0 32 b.ev.dbValue.toNat ||| put 32 8 b.recov.instResets

/-- EVT_HEAD passes one record: the timer starts when it first advances beyond the last doorbell's value, and a doorbell is
due at each multiple of EVERY. -/
def headStep (b : Block) : Block :=
  let h := b.ev.head + 1
  let every := fld b.ev.dbCtl 0 16
  let b := { b with ev := { b.ev with head := h, issued := b.ev.issued.drop 1,
                                      dbFromUs := some (b.ev.dbFromUs.getD (usNow b)) } }
  if every ≠ 0 ∧ h.toNat % every = 0 ∧ evtOn b.ev = true then ringDoorbell b else b

/-- EVT_HEAD follows the acknowledged records (R427). -/
def advanceHead (b : Block) : Nat → Block
  | 0 => b
  | n + 1 => match b.ev.issued with
    | (_, true, _) :: _ => advanceHead (headStep b) n
    | _ => b

/-- A write of a record or a doorbell fails (R431). -/
def writeFailed (b : Block) : Block :=
  { b with ev := { b.ev with ctl := b.ev.ctl &&& ~~~1#64, writeErr := true } }

/-- The record write with SEQ `seq` is answered (R427, R431). -/
def recordAck (b : Block) (seq : BitVec 32) (ok : Bool) : Block :=
  let e := b.ev
  if e.issued.any (fun r => r.1 == seq) = false then b
  else if ok then
    advanceHead { b with ev := { e with issued := e.issued.map (fun r => if r.1 = seq then (r.1, true, r.2.2) else r) } } 32
  else
    let before := e.issued.takeWhile (fun r => r.1 != seq)
    let from_ := e.issued.dropWhile (fun r => r.1 != seq)
    writeFailed { b with ev := { e with issued := before, again := from_.map (fun r => r.2.2) ++ e.again } }

/-- The outstanding doorbell is answered (R434). -/
def doorbellAck (b : Block) (ok : Bool) : Block :=
  let due := b.ev.dbDue
  let b := { b with ev := { b.ev with dbOut := false, dbDue := false } }
  if ok = false then writeFailed b
  else if due && evtOn b.ev then ringDoorbell b else b

/-- RECORD_WRITE_ACK (R276 to R278, R427, R431, R434): the oldest outstanding record write, or the doorbell, of the response's ID is
answered; a response without one is discarded (R277). -/
def ownAck (b : Block) (id : BitVec 8) (doorbell : Bool) (status : BitVec 4) : Block :=
  let mine (r : S0Req) : Bool := r.id == id && match r.who with | .doorbell => doorbell | .record _ => !doorbell | _ => false
  match b.sump.out.find? mine with
  | none => s0Unknown b id
  | some r =>
    let ok := s0Status status != .sumpErr
    let b := if s0Legal status then b else s0Fault b 1 r.id
    let b := if ok then b else { b with sump := { b.sump with errors := satAdd 65535 b.sump.errors 1 } }
    match r.who with
    | .record seq => recordAck (endS0 b r) seq ok
    | .doorbell => doorbellAck (endS0 b r) ok
    | _ => b

/-- DOORBELL_TIMEOUT (R434). -/
def doorbellTimeout (b : Block) : Block :=
  let l := fld b.ev.dbCtl 32 16
  match b.ev.dbFromUs with
  | none => b
  | some t => if l ≠ 0 ∧ evtOn b.ev = true ∧ usDue b t l = true then ringDoorbell { b with ev := { b.ev with dbFromUs := none } } else b

/-- A record or a doorbell waits to be sent (R433). -/
def recordsWait (b : Block) : Bool :=
  b.sump.out.any (fun r => match r.who with | .record _ | .doorbell => true | _ => false)
    || b.sump.queue.any (fun r => match r.who with | .record _ | .doorbell => true | _ => false)
    || b.xfers.any (fun x => match x.payload with | .record _ | .doorbell => true | _ => false)
    || (evtOn b.ev && ringFree b.ev && (!b.ev.queue.isEmpty || !b.ev.again.isEmpty || decide (0 < b.ev.lost)))

/-! The timebase. -/

/-- Causes of TIME_GAP (R425). -/
def gapSync : Nat := 0
def gapDrift : Nat := 1
def gapLoad : Nat := 2
def gapNoSync : Nat := 3

/-- A load takes effect on a REF_AON edge (R436, R438, R439): a new generation, SYNCED, one TIME_GAP record. -/
def timeLoaded (b : Block) (v : Word) (cause : Nat) : Block :=
  let t := b.time
  let was := t.ns
  let frozenAt := if cause = gapDrift ∨ (cause = gapLoad ∧ t.firstLoad = false) then was else t.frozenAt
  let b := { b with time := { t with ns := v, tgen := (t.tgen + 1) % 256, synced := true, firstLoad := false, resumedUs := none, loadPending := none } }
  discontinuity (emit b 0x02 none none frozenAt was v (BitVec.ofNat 64 cause))

/-- One REF_AON edge of the timebase (R436): a pending load takes effect, or it adds 10 unless held. -/
def timeEdge (b : Block) : Block :=
  match b.time.loadPending with
  | some (v, cause) => timeLoaded b v cause
  | none => if b.time.frozen then b else { b with time := { b.time with ns := b.time.ns + 10 } }

/-- The difference of two times as a distance. -/
def timeDist (x y : Word) : Nat := min (x - y).toNat (y - x).toNat

/-- TIME_SYNC_FRAME (R437, R438): value and parity bit of a frame on TIME_SYNC. -/
def timeFrame (b : Block) (v : Word) (parity : Bool) : Block :=
  let t := b.time
  if t.syncEn = false then b
  else if (ones v % 2 == 1) != parity then { b with time := { t with badFrames := satAdd 65535 t.badFrames 1 } }
  else
    let b := { b with time := { t with frames := (t.frames + 1) % 2 ^ 32 } }
    if t.frozen then b
    else if t.synced then
      (if timeDist v t.ns ≤ t.tol then b else { b with time := { b.time with loadPending := some (v + 10, gapDrift) } })
    else { b with time := { b.time with loadPending := some (v + 10, gapSync) } }

/-- TIME_LOAD (R439): the value loads on the next edge, unless a frame loads then. -/
def timeLoadReg (b : Block) (v : Word) : Block :=
  match b.time.loadPending with
  | some (_, 0) | some (_, 1) => b
  | _ => { b with time := { b.time with loadPending := some (v, gapLoad) } }

/-- SYNC_WAIT_TIMEOUT (R438): no good frame within SYNC_WAIT µs of resumption. -/
def syncWaitEnd (b : Block) : Block :=
  match b.time.resumedUs with
  | none => b
  | some t =>
    if b.time.synced = false ∧ usDue b t (max 1 b.time.syncWait) = true then
      emit { b with time := { b.time with resumedUs := none } } 0x02 none none b.time.frozenAt b.time.ns b.time.ns
        (BitVec.ofNat 64 gapNoSync)
    else b

/-- TIME_CTL written (R440). -/
def writeTimeCtl (b : Block) (v : Word) : Block :=
  { b with time := { b.time with syncEn := bit v 48, syncWait := fld v 32 16, tol := fld v 0 32 } }

/-! The commands. -/

/-- EVENT_RECORD_ISSUE (R427 to R431). -/
def execEventRecordIssue (s : State) : Host.Outcome State Fault Refusal := done s (issueEvent s.blk)

/-- RECORD_WRITE_ACK (R427, R431, R434). -/
def execRecordWriteAck (w : OwnWrite) (status : BitVec 4) (s : State) : Host.Outcome State Fault Refusal :=
  done s (ownAck s.blk w.id w.doorbell status)

/-- DOORBELL_TIMEOUT (R434). -/
def execDoorbellTimeout (s : State) : Host.Outcome State Fault Refusal := done s (doorbellTimeout s.blk)

/-- TIME_SYNC_FRAME (R437, R438). -/
def execTimeSyncFrame (v : Word) (parity : Bool) (s : State) : Host.Outcome State Fault Refusal := done s (timeFrame s.blk v parity)

/-- SYNC_WAIT_TIMEOUT (R438). -/
def execSyncWaitTimeout (s : State) : Host.Outcome State Fault Refusal := done s (syncWaitEnd s.blk)

end Sys2Proof.Machine
end

