-- ==== Sys2Proof/Machine/RegWrite.lean ====
section
/-! DEFINITION. What a write of a register does (R468 to R481): the writable fields of every register, and the effect of
writing it, for G0 and for the REGS records of the image. -/

namespace Sys2Proof.Machine

/-! Writable fields. -/

/-- RW fields of the global registers below 0x4000, and of RNG_STATE. -/
def rwGlobal (off : Nat) : Word :=
  match off with
  | 0x0100 => 0xFFFFFF | 0x0108 => 0x000FFFFF010FFFFF#64 | 0x0110 => 0xFFFFFFFFFFFFFFFF#64 | 0x0120 => 0x00001FFF00000001#64
  | 0x0130 => 0x00FFFFFFFFFFFFFF#64 | 0x0138 => 0xFFFFFFFFFFFFFFFF#64 | 0x0140 => 0xFFFFFFFF | 0x0148 => 0xFFFF
  | 0x0150 => 0x1FFFF | 0x0158 => 0x3FFFFFFFF#64 | 0x0168 => 0x000007FF0000FFFF#64 | 0x01A0 => 0x0FFFFFFFFFFFFFFF#64
  | 0x01B0 => 0xFFFF00F0FFFF000F#64
  | 0x0200 => 0x3FFFFFFF000#64 | 0x0208 => 0x1F | 0x0218 => 0xFFFFFFFF | 0x0228 => 0x3FFFFFFFFF8#64
  | 0x0230 => 0x0000FFFF0000FFFF#64 | 0x0238 => 0x1FFF | 0x0258 => 0x0001FFFFFFFFFFFF#64
  | 0x0300 => 0xFFFFFFFF | 0x0318 => 0xFFFFFFFF
  | _ =>
    if 0x800 ≤ off ∧ off < 0x1000 then 0xFFFFFFFFFFFFFFFF#64
    else if 0x6000 ≤ off ∧ off < 0x6200 then 0xFFFFFFFFFFFFFFFF#64 else 0

/-- RW fields of a channel block, of the causeway, of a peer block, of the observation block and of the debug window. -/
def rwChan (off : Nat) : Word :=
  match off with | 0x948 => 0xFFFFFF | 0x950 => 0xFFFFFFFFFFFFFFFF#64 | 0x958 => 0xFF | _ => 0
def rwCw (off : Nat) : Word :=
  if off = 8 then 0xFFFF000F else if off = 0x10 then 0xFFFFFFF else if 0x400 ≤ off ∧ off < 0x600 then 0x8BBB else 0
def rwPeer (off : Nat) : Word := if off = 8 then 4 else 0
def rwObs (off : Nat) : Word :=
  if off < 0x1000 then 0x0000FFFFFFFFFFFF#64
  else if off < 0x2000 then 0xFFFFFFFFC0000000#64
  else match off with
    | 0x2000 => 3 | 0x2100 => 0xFFFFFF01FFFFFFF0#64 | 0x2108 => 0xFFF800000000FFFF#64
    | 0x2110 => 0x0000FFFFFFFFFFFF#64 | 0x2118 => 0x0000FFFFFFFFFFFF#64 | 0x2120 => 0x0000FFFFFFFFFFFF#64
    | 0x2128 => 0xFFFF07 | 0x2138 => 0x7FFF | _ => 0
def rwDbg (off : Nat) : Word :=
  match off with | 0 => 1 | 0x10 => 0xC0000000001FFFF8#64 | 0x18 => 0xFFFFFFFFFFFFFFFF#64 | _ => 0

/-- The RW fields of the register at a G0 offset. -/
def rwMask (off : Nat) : Word :=
  if off < 0x10000 then rwGlobal off
  else if off < 0x90000 then rwChan (off % 0x10000)
  else if off < 0x91000 then rwCw (off - 0x90000)
  else if off < 0x95000 then rwPeer (off % 0x1000)
  else if off < 0xA0000 then 0
  else if off < 0xB0000 then rwObs (off - 0xA0000)
  else if off < 0xC0000 then 0 else rwDbg (off - 0xC0000)

/-- The register has a W1C or a WO field (R468). -/
def hasW1c (off : Nat) : Bool :=
  if off < 0x10000 then [0x0118, 0x0188, 0x01C8, 0x0220, 0x0250, 0x0320].contains off
  else if off < 0x90000 then [0x848, 0x850, 0x900, 0x918, 0x940].contains (off % 0x10000)
  else if off < 0x91000 then false
  else if off < 0x95000 then off % 0x1000 == 8
  else [0xA2000, 0xA2100, 0xA2200, 0xC0000].contains off

/-- A write of the register may change it. -/
def writable (off : Nat) : Bool := rwMask off != 0 || hasW1c off

/-! W1C bits (R14, R472). -/

/-- The offset of a channel's register (R466). -/
def chOff (ch off : Nat) : Nat := 0x10000 + ch * 0x10000 + off

/-- The W1C bits of the register at an offset; CANARY_FLAG keeps its own rule (R166). -/
def w1cMask (off : Nat) : Word :=
  if off < 0x10000 then
    match off with | 0x0188 => 0x200 | 0x01C8 => 0x3F | 0x0220 => 3 | 0x0320 => 3 | _ => 0
  else if off < 0x90000 then match off % 0x10000 with | 0x850 => 0x1FF | 0x918 => 1 | _ => 0
  else match off with | 0xA2000 => 4 | 0xA2200 => 2 | _ => 0

/-- The W1C bits that stand at 0 now, by offset. -/
def w1cClear (b : Block) : Tbl Word :=
  let offs := [0x0188, 0x01C8, 0x0220, 0x0320, 0xA2000, 0xA2200] ++ (List.range b.build.channels).flatMap (fun n => [chOff n 0x850, chOff n 0x918])
  offs.map (fun o => (o, w1cMask o &&& ~~~((regAt b o).getD 0)))

/-- What a write may clear: a W1C bit that the block has set in this CLK_CTL cycle stays 1, since the set wins (R472). -/
def w1cTaken (b : Block) (off : Nat) (v : Word) : Word := v &&& ~~~(w1cMask off &&& tget 0 b.ctlClear off)

/-! Effects. -/

/-- The value of a register's RW fields after a write of `v` over `old`. -/
def masked (off : Nat) (old v : Word) : Word := writeMask old v (rwMask off)

/-- CANARY_FLAG written (R166): each 1 clears a canary and its site's VALID, but for a context that trips in the same CLK_CTL cycle. -/
def clearCanary (b : Block) (v : Word) : Block :=
  let wins (e : Nat × Ctx) : Bool := e.2.trip.any (fun t => t.1 / 4 == b.now / 4)
  let v := (b.ctxs.filter wins).foldl (fun v e => v &&& ~~~(1#64 <<< e.1)) v
  let b := { b with regs := { b.regs with canaryFlag := b.regs.canaryFlag &&& ~~~v } }
  { b with ctxs := b.ctxs.map (fun e => if bit v e.1 then (e.1, { e.2 with site := e.2.site &&& ~~~(1#64 <<< 63) }) else e) }

/-- CMDQ_TAIL written (R481): true where the write takes effect. -/
def writeCmdTail (b : Block) (v : BitVec 32) : Block × Bool :=
  let q := b.cmdq
  if (v - q.tail).toNat ≤ 64 ∧ (v - q.cplTail).toNat ≤ 64 then ({ b with cmdq := { q with tail := v } }, true)
  else ({ b with cmdq := { q with badTail := true } }, false)

/-- CPL_TAIL written (R481). -/
def writeCplTail (b : Block) (v : BitVec 32) : Block × Bool :=
  let q := b.cmdq
  if (v - q.cplTail).toNat ≤ (q.cplHead - q.cplTail).toNat then ({ b with cmdq := { q with cplTail := v } }, true)
  else ({ b with cmdq := { q with badCpl := true } }, false)

/-- Registers whose writable fields are plain values. -/
def writeRegs (r : Regs) (off : Nat) (v : Word) : Regs :=
  match off with
  | 0x0100 => { r with hangCtl := masked off r.hangCtl v }
  | 0x0108 => { r with conflictCtl := masked off r.conflictCtl v }
  | 0x0110 => { r with canaryFence := v }
  | 0x0120 => { r with arbCtl := masked off r.arbCtl v }
  | 0x0130 => { r with classLimitW := masked off r.classLimitW v }
  | 0x0138 => { r with bgBudgetW := v }
  | 0x0140 => { r with stepCtl := masked off r.stepCtl v }
  | 0x0148 => { r with tallyCtl := masked off r.tallyCtl v }
  | 0x0150 => { r with dredgeCtl := masked off r.dredgeCtl v }
  | 0x0158 => { r with ceCtl := masked off r.ceCtl v }
  | 0x0168 => { r with sumpCtl := masked off r.sumpCtl v }
  | 0x01A0 => { r with pwrPolicy := masked off r.pwrPolicy v }
  | 0x01B0 => { r with recovCtl := masked off r.recovCtl v }
  | _ => r

/-- A write of a global register, and whether it is performed. -/
def writeGlobal (b : Block) (off : Nat) (v : Word) : Block × Bool :=
  match off with
  | 0x0118 => (clearCanary b v, true)
  | 0x0188 => ({ b with bring := { b.bring with tampered := b.bring.tampered && !bit v 9 } }, true)
  | 0x01C8 => ({ b with safety := { b.safety with flags := b.safety.flags &&& ~~~(v.setWidth 6) } }, true)
  | 0x0200 => ({ b with ev := { b.ev with base := masked off b.ev.base v } }, true)
  | 0x0208 => (writeEvtCtl b v, true)
  | 0x0218 => writeEvtTail b (v.setWidth 32)
  | 0x0220 => ({ b with ev := { b.ev with badTail := b.ev.badTail && !bit v 1, writeErr := b.ev.writeErr && !bit v 0 } }, true)
  | 0x0228 => ({ b with ev := { b.ev with dbAddr := masked off b.ev.dbAddr v } }, true)
  | 0x0230 => ({ b with ev := { b.ev with dbCtl := masked off b.ev.dbCtl v } }, true)
  | 0x0238 => ({ b with rlog := { b.rlog with addr := fld v 0 13 } }, true)
  | 0x0250 => (timeLoadReg b v, true)
  | 0x0258 => (writeTimeCtl b v, true)
  | 0x0300 => writeCmdTail b (v.setWidth 32)
  | 0x0318 => writeCplTail b (v.setWidth 32)
  | 0x0320 => ({ b with cmdq := { b.cmdq with badCpl := b.cmdq.badCpl && !bit v 1, badTail := b.cmdq.badTail && !bit v 0 } }, true)
  | _ =>
    if 0x800 ≤ off ∧ off < 0x1000 then ({ b with cmdq := { b.cmdq with slots := tset b.cmdq.slots ((off - 0x800) / 8) v } }, true)
    else if 0x6000 ≤ off ∧ off < 0x6200 then (setCtx b ((off - 0x6000) / 8) (fun c => { c with rng := v }), true)
    else ({ b with regs := writeRegs b.regs off v }, true)

/-- CONF_CLR (R64): each 1 clears a CONF_CNT. -/
def clearConf (b : Block) (n : Nat) (v : Word) : Block :=
  setChan b n (fun c => { c with conf := c.conf.filter (fun e => !bit (v &&& 0x1FF#64) e.1) })

/-- ECC_STAT.CLR_CNT (R229). -/
def clearEcc (b : Block) (n : Nat) : Block :=
  setChan b n (fun c => { c with ce := [], ue := [], tagUe := 0, tagCe := 0, poisonRd := 0 })

/-- A write of a register of channel n, and whether it is performed. -/
def writeChan (b : Block) (n off : Nat) (v : Word) : Block × Bool :=
  let setE (f : EccTest → EccTest) : Block := setChan b n (fun c => { c with ecc := f c.ecc })
  match off with
  | 0x848 => (clearConf b n v, true)
  | 0x850 => (setChan b n (fun c => { c with starved := c.starved &&& ~~~(v.setWidth 9) }), true)
  | 0x900 => (if bit v 0 then clearEcc b n else b, true)
  | 0x918 => (if bit v 0 then setChan b n (fun c => { c with dmaHalt := false }) else b, true)
  | 0x940 => if (chan b n).ecc.busy then (b, false) else (eccStart b n (fld v 0 4), true)
  | 0x948 => (setE (fun e => { e with addr := v &&& 0xFFFFFF#64 }), true)
  | 0x950 => (setE (fun e => { e with data := v }), true)
  | 0x958 => (setE (fun e => { e with check := writeMask e.check v 0xFF#64 }), true)
  | _ => (b, true)

/-- A write of a causeway register. -/
def writeCw (b : Block) (off : Nat) (v : Word) : Block :=
  if off = 8 then { b with cw := { b.cw with ctl := v &&& 0xFFFF000F#64 } }
  else if off = 0x10 then { b with cw := { b.cw with nbr := v &&& 0xFFFFFFF#64 }, safety := { b.safety with nbrCopy := v &&& 0xFFFFFFF#64 } }
  else if 0x400 ≤ off ∧ off < 0x600 then writeRoute b ((off - 0x400) / 8) (fld v 0 16)
  else b

/-- TRAIN (R291). -/
def trainPort (b : Block) (n : Nat) : Block :=
  match (linkOf b n).state with | .down | .held => startTraining b n | _ => b

/-- DISABLE (R291). -/
def disablePort (b : Block) (n : Nat) (on : Bool) : Block :=
  let b := setLink b n (fun l => { l with disable := on })
  match (linkOf b n).state with
  | .disabled => if on then b else enterLink b n .down
  | _ => if on then loseLink b n .disabled else b

/-- CHK_CLR (R322). -/
def clearCheck (b : Block) (n : Nat) : Block :=
  setLink b n (fun l => { l with chk := [], log := [], logNext := 0, logWrap := false })

/-- PEERn_CTL written (R322). -/
def writePeer (b : Block) (n off : Nat) (v : Word) : Block :=
  if off ≠ 8 then b
  else
    let b := if bit v 3 then clearCheck b n else b
    let b := disablePort b n (bit v 2)
    let b := if bit v 1 then startRetrain b n else b
    if bit v 0 then trainPort b n else b

/-- A write of an observation register. -/
def writeObs (b : Block) (off : Nat) (v : Word) : Block :=
  let o := b.obs
  let setO (o : Observe) : Block := { b with obs := o }
  if off < 0x1000 then setO { o with ocnt := tset o.ocnt (off / 8) (fld v 0 48) }
  else if off < 0x2000 then setO { o with osel := tset o.osel (off / 8 - 512) (v &&& 0xFFFFFFFFC0000000#64) }
  else match off with
    | 0x2000 => writeObsCtl b v
    | 0x2100 => writeTrcCtl b v
    | 0x2108 => setO { o with trcTrig := v &&& 0xFFF800000000FFFF#64 }
    | 0x2110 => setO { o with trcAlo := put 0 48 (fld v 0 48) }
    | 0x2118 => setO { o with trcAhi := put 0 48 (fld v 0 48) }
    | 0x2120 => setO { o with trcThresh := put 0 48 (fld v 0 48) }
    | 0x2128 => setO { o with trcFilt := v &&& 0xFFFF07#64 }
    | 0x2138 => setO { o with trcRaddr := fld v 0 15 }
    | 0x2200 => setO { o with sndHeld := o.sndHeld && !bit v 1 }
    | _ => b

/-! The debug window (R477 to R479). -/

/-- DBG_ADDR after an access of DBG_DATA. -/
def stepDbg (d : Debug) : Debug := { d with addr := writeMask d.addr (put 3 18 (fld d.addr 3 18 + 1)) (maskOf 3 18) }

/-- A write of DBG_DATA while halted: words beyond a memory's size ignore it. -/
def writeDbgData (d : Debug) (v : Word) : Debug :=
  let w := fld d.addr 3 18
  let d := match fld d.addr 62 2 with
    | 0 => { d with code := tset d.code w v }
    | 1 => if w < 65536 then { d with data := tset d.data w v } else d
    | 2 => if w < 34 then { d with regs := tset d.regs w v } else d
    | _ => d
  stepDbg d

/-- STEP while halted: what the instruction leaves in the registers and in one doubleword of data memory is a free value
(log 18). -/
def stepCores (b : Block) : Block :=
  if b.dbg.halt then
    let w (k : Nat) : Word := Config.freeWord (b.free + k)
    { b with free := b.free + 36, dbg := { b.dbg with
        regs := (List.range 34).map (fun k => (k, w k)), data := tset b.dbg.data ((w 34).toNat % 65536) (w 35) } }
  else b

/-- A write in the debug window while it is open, and whether it is performed. -/
def writeDbg (b : Block) (off : Nat) (v : Word) : Block × Bool :=
  match off with
  | 0 => let b := if bit v 1 then stepCores b else b
         ({ b with dbg := { b.dbg with halt := bit v 0 } }, true)
  | 0x10 => ({ b with dbg := { b.dbg with addr := v &&& 0xC0000000001FFFF8#64 } }, true)
  | 0x18 => if b.dbg.halt then ({ b with dbg := writeDbgData b.dbg v }, true) else (b, false)
  | _ => (b, false)

/-- A write of a mapped register, and whether it is performed (R468, R477). -/
def writeReg (b : Block) (off : Nat) (v : Word) : Block × Bool :=
  if off < 0xC0000 ∧ writable off = false then (b, false)
  else if off < 0x10000 then writeGlobal b off v
  else if off < 0x90000 then writeChan b ((off - 0x10000) / 0x10000) (off % 0x10000) v
  else if off < 0x91000 then (writeCw b (off - 0x90000) v, true)
  else if off < 0x95000 then (writePeer b ((off - 0x91000) / 0x1000) (off % 0x1000) v, true)
  else if off < 0xC0000 then (writeObs b (off - 0xA0000) v, true)
  else if debugOpen b then writeDbg b (off - 0xC0000) v else (b, false)

end Sys2Proof.Machine
end

