-- ==== Sys2Proof/Machine/Image.lean ====
section
/-! DEFINITION. The configuration image (R327 to R332, R337): its header, its records, and their application to an
instance. -/

namespace Sys2Proof.Machine

/-- Boot failure causes (R340). -/
def bNvm : Nat := 1
def bImage : Nat := 2
def bCheck : Nat := 3
def bRecord : Nat := 4
def bSeam : Nat := 5
def bKatUnit : Nat := 6
def bNoSpare : Nat := 7

/-- A little-endian field of `n` bytes at an offset. -/
def imgAt (l : List Byte) (off n : Nat) : Nat := leNat ((l.drop off).take n)

/-! The header (R327). -/

/-- LENGTH, PITHEAD_STORE, WORKER_STORE and RECORDS. -/
def imgLength (l : List Byte) : Nat := imgAt l 8 4
def imgRecords (l : List Byte) : Nat := imgAt l 0x14 4

/-- The header's fields keep their rules; DEV_ONLY is refused in DEPLOY (R331). -/
def headerFields (lc : Nat) (l : List Byte) : Bool :=
  let flags := imgAt l 6 2
  imgAt l 0 4 == 0x4F4C5956 && imgAt l 4 2 == 1 && decide (flags ≤ 1) && !(flags == 1 && lc == 2)
    && decide (128 ≤ imgLength l) && decide (imgLength l ≤ 16777216) && imgLength l % 16 == 0
    && imgAt l 0x0C 1 == 3 && decide (imgAt l 0x0D 1 ≤ 2) && imgAt l 0x0E 2 == 0 && imgAt l 0x24 24 == 0

/-- The header holds, and LENGTH bytes are there. -/
def headerOk (lc : Nat) (l : List Byte) : Bool := headerFields lc l && decide (imgLength l ≤ l.length)

/-- HDR_CHECK and BODY_CHECK hold. -/
def checksOk (l : List Byte) : Bool :=
  (crc32c (l.take 0x3C)).toNat == imgAt l 0x3C 4
    && (crc32c ((l.take (imgLength l)).drop 0x40)).toNat == imgAt l 0x20 4

/-- The cause a header is refused with; the fields are looked at before the checks. -/
def headerCause (lc : Nat) (l : List Byte) : Nat :=
  if headerOk lc l = false then bImage else if checksOk l = false then bCheck else 0

/-! Records (R328, R329). -/

/-- A record, and the bytes it takes in the image. -/
structure ImgRec where
  raw : List Byte
  type : Nat
  target : Nat
  param : Word
  payload : List Byte
  pad : Bool
  deriving DecidableEq, Repr

/-- At most `n` records from the front of `l`; none where a record runs past its end or bytes are left over. -/
def parseRecs : Nat → List Byte → Option (List ImgRec)
  | 0, l => if l.isEmpty then some [] else none
  | n + 1, l =>
    if l.isEmpty then some []
    else
      let size := imgAt l 4 4
      let tot := 16 + (size + 15) / 16 * 16
      if l.length < tot then none
      else
        let r : ImgRec :=
          { raw := l.take tot, type := imgAt l 0 2, target := imgAt l 2 1, param := BitVec.ofNat 64 (imgAt l 8 8), payload := (l.drop 16).take size,
            pad := imgAt l 3 1 == 0 && ((l.take tot).drop (16 + size)).all (fun x => x == 0) }
        (parseRecs n (l.drop tot)).map (fun rs => r :: rs)

/-- Entries of `n` bytes of a payload. -/
def entriesOf (n : Nat) (l : List Byte) : List Nat := (List.range (l.length / n)).map (fun k => imgAt l (n * k) n)

/-- Entries of 16 B: a number and a value. -/
def pairsOf (l : List Byte) : List (Nat × Word) :=
  (List.range (l.length / 16)).map (fun k => (imgAt l (16 * k) 8, BitVec.ofNat 64 (imgAt l (16 * k + 8) 8)))

/-- A record has the form of its type. -/
def recordOk (r : ImgRec) : Bool :=
  let n := r.payload.length
  r.pad && (decide (r.target < 64) || r.target == 255) && (r.param == 0 || r.type == 1 || r.type == 3) &&
  match r.type with
  | 1 => r.target == 255 && decide (n ≤ 2097152)
  | 2 => n == 6144
  | 3 => n == 2048 && (r.param &&& ~~~0x703#64) == 0
  | 4 | 5 => n % 16 == 0
  | 6 => n == 8
  | 7 => n == 520 && r.target != 255
  | 8 => n % 4 == 0
  | 9 => n % 2 == 0
  | 10 => n == 8 && r.target == 255
  | 0xFFFF => n == 0
  | _ => false

/-- Two records that may not stand together: a type limited to one per target, or to one in the image. -/
def sameLimit (r q : ImgRec) : Bool :=
  r.type == q.type && (r.type == 1 || r.type == 10 || r.type == 0xFFFF
    || (r.target == q.target && ((r.type == 3 && r.param == q.param) || [2, 6, 7, 8, 9].contains r.type)))

def limitsOk : List ImgRec → Bool
  | [] => true
  | r :: l => !l.any (sameLimit r) && limitsOk l

/-- An image starts with MAGIC; a worker's store starts with its own header (R332). -/
def isImage (l : List Byte) : Bool := imgAt l 0 4 == 0x4F4C5956

/-- The image header in a store. -/
def storeHead (l : List Byte) : List Byte := if isImage l then l else l.drop 64

/-- The records of a list that form an image, or a worker's part of one. -/
def soundRecs (rs : List ImgRec) : Option (List ImgRec) :=
  if rs.all recordOk && limitsOk rs && (rs.getLast?.map (fun r => r.type)) == some 0xFFFF && rs.any (fun r => r.type == 1) then some rs else none

/-- The records of an image whose header holds, or of a worker's store; none where the structure of R328 and R329 is broken. -/
def imageRecs (l : List Byte) : Option (List ImgRec) :=
  if isImage l then
    match parseRecs (imgRecords l) ((l.take (imgLength l)).drop 0x40) with
    | none => none
    | some rs => if rs.length == imgRecords l then soundRecs rs else none
  else (parseRecs (l.length / 16) (l.drop 0x80)).bind soundRecs

/-! The image store (R332). -/

/-- Bytes of the image store of an instance (R332): the strapped pithead's, or a worker's. -/
def storeBytes (b : Block) (l : List Byte) : Nat :=
  (if isPithead b then imgAt (storeHead l) 0x10 2 else imgAt (storeHead l) 0x12 2) * 1048576

/-- What a worker keeps of an image: a header with the CRC-32C of the rest in its last four bytes (log 95), the image header, and every record that
applies to the instance. -/
def workerStore (i : Nat) (l : List Byte) (rs : List ImgRec) : List Byte :=
  let body := l.take 64 ++ (rs.filter (fun r => r.target == 255 || r.target == i)).flatMap (fun r => r.raw)
  List.replicate 60 0 ++ leBytes 4 (crc32c body).toNat ++ body

/-- A worker stores its part of an image; one that it will refuse stays as it came. -/
def packStore (b : Block) (l : List Byte) : List Byte :=
  if headerCause b.bring.lcState l ≠ 0 then l
  else match imageRecs l with
    | some rs => workerStore b.cw.instNum l rs
    | none => l

/-- The cause a store is refused with in step 5 (R331): its header, and the checks of a whole image. -/
def storeCause (lc : Nat) (l : List Byte) : Nat :=
  if isImage l then headerCause lc l else if headerFields lc (l.drop 64) then 0 else bImage

/-- The checks of a store before a warm boot (R333). -/
def storeOk (lc : Nat) (l : List Byte) : Bool :=
  storeCause lc l == 0 && (isImage l || (crc32c (l.drop 64)).toNat == imgAt l 60 4)

/-- Where the lines of a store lie: at the top of on-chip memory, in no seam, by the interleave of a seam with HASH 0 and ILV 0 (log 95). -/
def storeLoc (b : Block) (l : List Byte) (k : Nat) : Loc :=
  locOf b.build Seam.init ((capacity b.build - max (storeBytes b l) ((l.length + 127) / 128 * 128)) / 128 + k)
def storeLines (b : Block) (l : List Byte) : List Loc := (List.range ((l.length + 127) / 128)).map (storeLoc b l)

/-- The keys of the stored lines of a store. -/
def storeKeys (b : Block) (l : List Byte) : List Nat := (storeLines b l).map (fun p => servedKey b p.ch p.bank p.row)

/-- A store written to the arrays. -/
def writeStore (a : Arrays) (b : Block) (l : List Byte) : Arrays :=
  (storeLines b l).zipIdx.foldl (fun a e =>
    let d := lineOfBytes ((l.drop (128 * e.2)).take 128)
    putLine a b e.1.ch e.1.bank e.1.row (fun k => storeWord false (lineWord d k))) a

/-- The store in the arrays where `l` was written, decoded; none with an uncorrectable or poisoned word (R223). -/
def readStore (a : Arrays) (b : Block) (l : List Byte) : Option (List Byte) :=
  let lines := (storeKeys b l).map (rawLine a.mem)
  if lines.all (fun ds => badWords ds == 0) then some ((lines.flatMap (fun ds => bytesOfLine (lineData ds))).take l.length) else none

/-! An instance's part (R329). -/

/-- Every record of a type that applies to instance `i`, those for all instances first. -/
def recsFor (rs : List ImgRec) (i type : Nat) : List ImgRec :=
  rs.filter (fun r => r.type == type && r.target == 255) ++ rs.filter (fun r => r.type == type && r.target == i)

/-- The record of a type limited to one per target: the instance's own, else the one for all. -/
def recFor (rs : List ImgRec) (i type : Nat) : Option ImgRec := (recsFor rs i type).getLast?

/-- The ROSTER record of roster r and channel n. -/
def rosterRec (rs : List ImgRec) (i r n : Nat) : Option ImgRec :=
  ((recsFor rs i 3).filter (fun x => fld x.param 0 2 == r && fld x.param 8 3 == n)).getLast?

/-- The OFF_PLAN of an instance, as (receiver, destination, entry). -/
def offPlanOf (rs : List ImgRec) (i : Nat) : List (Nat × Nat × Nat) :=
  match recFor rs i 8 with
  | none => []
  | some r => (entriesOf 4 r.payload).map (fun e => ((e >>> 22) % 64, (e >>> 16) % 64, e % 65536))

/-- The ROUTEd entry of destination d in an instance's ROUTES record. -/
def routeIn (rs : List ImgRec) (i d : Nat) : Nat :=
  match recFor rs i 7 with
  | none => 0
  | some r => imgAt r.payload (8 * d) 2

/-- The instances of the mesh (MESH). -/
def meshOf (rs : List ImgRec) : List Nat :=
  match recFor rs 255 10 with
  | none => []
  | some r => (List.range 64).filter (fun i => (imgAt r.payload 0 8 >>> i) % 2 == 1)

/-! SAFETY and REGS (R330, R420). -/

def safetyOk (e : Nat × Word) : Bool :=
  let v := e.2.toNat
  match e.1 with
  | 1 => decide (v ≤ 255)
  | 2 => decide (v ≤ 65535)
  | 3 => decide (1 ≤ v) && decide (v ≤ 65535)
  | 4 => decide (v ≤ 1)
  | 5 => decide (4000 ≤ v) && decide (v ≤ 5000)
  | _ => false

def applySafety (b : Block) (e : Nat × Word) : Block :=
  let v := e.2.toNat
  match e.1 with
  | 1 => { b with bring := { b.bring with holdupMin := v } }
  | 2 => { b with safety := { b.safety with heartbeatMs := v } }
  | 3 => { b with safety := { b.safety with scrubMs := v } }
  | 4 => { b with safety := { b.safety with lockstepReact := v == 1 } }
  | 5 => { b with safety := { b.safety with rootMhz := v } }
  | _ => b

/-- A REGS entry names a register with a writable field, and sets no bit outside its writable fields. -/
def regsOk (b : Block) (e : Nat × Word) : Bool :=
  decide (e.1 < 0x100000) && e.1 % 8 == 0 && (regAt b e.1).isSome && rwMask e.1 != 0 && (e.2 &&& ~~~(rwMask e.1)) == 0

/-! RETIRE and boot retirements (R244, R245, R335, R337). -/

/-- A retirement at boot: the switch alone. -/
def bootSwitch (b : Block) (ch bank onto : Nat) : Block :=
  let b := setChan b ch (fun c => { c with spare := switchSpare c.spare bank onto })
  let b := emit b 0x25 (some ch) none (put 0 6 bank ||| putBit 6 (onto == 65) ||| putBit 7 true)
  { b with rlog := retireAppend b.rlog bank ch (onto - 64) }

/-- One entry of a RETIRE record; false where no spare is free. -/
def applyRetire (r : Block × Bool) (e : Nat) : Block × Bool :=
  let bank := e % 64
  let ch := (e >>> 6) % 8
  if r.2 = false then r
  else if physBank (chan r.1 ch) bank ≠ bank then r
  else match freeSpare (chan r.1 ch).spare with
    | none => (r.1, false)
    | some onto => (bootSwitch r.1 ch bank onto, true)

/-! SEAMS (R51, R52, R330). -/

def parseSeam (w0 w1 w2 : Word) : Seam :=
  { Seam.init with
    valid := bit w0 63, size := fld w0 32 26, base := fld w0 0 26, keep := bit w1 28, sump := bit w1 27, secure := bit w1 26,
    zmap := bit w1 25, watch := bit w1 24, format := fld w1 16 8, ilv := bit w1 14, hash := fld w1 12 2, seed := fld w1 0 12,
    owners := w2 }

def parseSeams (l : List Byte) : List Seam :=
  (List.range 256).map (fun n =>
    let w (j : Nat) : Word := BitVec.ofNat 64 (imgAt l (24 * n + 8 * j) 8)
    parseSeam (w 0) (w 1) (w 2))

/-- The interleave group of R56 in bytes. -/
def ilvGroup (b : Build) (s : Seam) : Nat := 128 * unitLines s * 2 ^ (6 + logCh b)

/-- The rules of R52 for one descriptor. HASH 3, which R51 does not use, is refused (log 59); a reserved FORMAT, which no rule refuses, is
loaded as it is (DESIGN CHOICE, log 97). -/
def seamOk (b : Build) (s : Seam) : Bool :=
  let lo := seamLo s
  let hi := seamHi s
  decide (1 ≤ s.size)
    && (if s.sump then decide (Config.sumpBase ≤ lo) && decide (hi ≤ Config.localEnd) else decide (hi ≤ capacity b))
    && (!s.ilv || s.sump || (lo % ilvGroup b s == 0 && (hi - lo) % ilvGroup b s == 0))
    && !(s.zmap && s.sump) && !(s.secure && s.sump) && !(s.keep && !s.sump) && (s.sump || s.hash != 3)

def overlap (s t : Seam) : Bool := decide (seamLo s < seamHi t) && decide (seamLo t < seamHi s)
def noOverlap : List Seam → Bool
  | [] => true
  | s :: l => !l.any (overlap s) && noOverlap l

/-- The whole table of an instance whose image store takes `store` bytes. -/
def seamTableOk (b : Build) (lc store : Nat) (l : List Seam) : Bool :=
  let v := l.filter (fun s => s.valid)
  v.all (seamOk b) && noOverlap v && decide ((v.filter (fun s => s.keep)).length ≤ 8)
    && l.all (fun s => s.owners == 0) && !(lc == 3 && l.any (fun s => s.secure))
    && v.all (fun s => s.sump || decide (seamHi s + store ≤ capacity b))

/-- The sequencer's copy of the seam table, for the scrub (R418). -/
def copySeams (b : Block) : Block :=
  { b with safety := { b.safety with seamCopy := b.seams.map (fun e => (e.1, (seamReg e.2 0, seamReg e.2 1))) } }

/-! ROSTER and ROUTES. -/

/-- The 2,048 entries of a ROSTER record; those that equal the reset value are left out. -/
def rosterEntries (r : Nat) (l : List Byte) : List (Nat × Nat) :=
  (l.zipIdx.map (fun e => (slotKey r 0 0 + e.2, e.1.toNat))).filter (fun e => e.2 != 0x80)

/-- The records of a roster loaded in every channel, with the sequencer's copy; it is declared if they cover every
channel (R330). -/
def applyRoster (rs : List ImgRec) (i : Nat) (b : Block) (r : Nat) : Block :=
  let recs := (List.range b.build.channels).map (fun n => (n, rosterRec rs i r n))
  let b := recs.foldl (fun b e => match e.2 with
    | none => b
    | some x =>
      let new := rosterEntries r x.payload
      let b := setChan b e.1 (fun c => { c with roster := loadEntries r new c.roster })
      { b with arb := { b.arb with copy := new.map (fun v => (e.1 * 8192 + v.1, v.2)) ++ b.arb.copy } }) b
  if recs.all (fun e => e.2.isSome) then { b with arb := { b.arb with declared := b.arb.declared ||| (1#4 <<< r) } } else b

/-- A port that CW_NBR refuses enters HELD (R292). -/
def checkNbr (b : Block) (n : Nat) : Block :=
  let l := linkOf b n
  match expected b n with
  | some p => if l.state = .active ∧ l.partner ≠ p then loseLink b n .held else b
  | none => b

/-- ROUTES: the routing table and CW_NBR are loaded, and ROUTES is set (R316, R337). -/
def applyRoutes (b : Block) (r : ImgRec) : Block :=
  let b := (List.range 64).foldl (fun b d => writeRoute b d (imgAt r.payload (8 * d) 2)) b
  let nbr := BitVec.ofNat 64 (imgAt r.payload 512 8) &&& 0xFFFFFFF#64
  let b := { b with cw := { b.cw with nbr := nbr, routes := true }, safety := { b.safety with nbrCopy := nbr } }
  (List.range b.build.peers).foldl checkNbr b

/-- A boot that loads no routes takes the sequencer's copy from the registers (R418). -/
def copyRoutes (b : Block) : Block := { b with safety := { b.safety with routeCopy := b.cw.route, nbrCopy := b.cw.nbr } }

/-! Step 5 (R337). -/

/-- SUMP invalidation (R283). -/
def invalidateSump (b : Block) : Block :=
  { b with seams := b.seams.map (fun e =>
      if e.2.valid && e.2.sump && !e.2.keep then (e.1, { e.2 with sumpInvalid := true, fill := seamLo e.2 }) else e) }

/-- The Aplery code of the FIRMWARE record. -/
def firmwareCode (rs : List ImgRec) : Tbl Word :=
  match rs.find? (fun r => r.type == 1) with
  | none => []
  | some r => ((List.range ((r.payload.length + 7) / 8)).map (fun k => (k, BitVec.ofNat 64 (imgAt r.payload (8 * k) 8)))).filter (fun e => e.2 != 0)

/-- Steps in order up to the first that fails; the number is its cause. -/
def runSteps : List (Block → Block × Nat) → Block → Block × Nat
  | [], b => (b, 0)
  | f :: l, b => match f b with
    | (b, 0) => runSteps l b
    | r => r

/-- Entries applied in order up to the first that breaks a rule. -/
def applyEach {α : Type} (ok : α → Bool) (f : Block → α → Block) : List α → Block → Block × Nat
  | [], b => (b, 0)
  | e :: l, b => if ok e then applyEach ok f l (f b e) else (b, bRecord)

/-- RETIRE: entries name channels of the build (R329, log 59). -/
def loadRetire (l : List Nat) (b : Block) : Block × Nat :=
  if l.any (fun e => decide (b.build.channels ≤ (e >>> 6) % 8)) then (b, bRecord)
  else match l.foldl applyRetire (b, true) with
    | (b, true) => (b, 0)
    | (b, false) => (b, bNoSpare)

/-- SEAMS, with their checks (R52, R330). -/
def loadSeams (store : Nat) (l : List Seam) (b : Block) : Block × Nat :=
  if seamTableOk b.build b.bring.lcState store l then
    (copySeams { b with seams := (l.zipIdx.map (fun e => (e.2, e.1))).filter (fun e => e.2 != Seam.init) }, 0)
  else (b, bSeam)

/-- ROUTES, only when CW_ID.ROUTES is 0; an image without them leaves it 0. -/
def loadRoutes (r : Option ImgRec) (b : Block) : Block :=
  match b.cw.routes, r with
  | false, some r => applyRoutes b r
  | _, _ => copyRoutes b

/-- POWER (R329, R373). -/
def loadPower (p : Option Word) (b : Block) : Block × Nat :=
  match p with
  | some p => if p >>> 60 = 0 then ({ b with regs := { b.regs with pwrPolicy := p } }, 0) else (b, bRecord)
  | none => (b, 0)

/-- FIRMWARE: the code, and the cores at its entry offset (R329, R478). -/
def loadFirmware (rs : List ImgRec) (b : Block) : Block :=
  let entry := ((rs.find? (fun r => r.type == 1)).map (fun r => r.param)).getD 0
  { b with dbg := { b.dbg with code := firmwareCode rs, regs := tset b.dbg.regs 32 entry } }

/-- The instance's records are applied in the order of R337; the number is the cause of a failure, 0 for none. -/
def loadRecords (b : Block) (img : List Byte) : Block × Nat :=
  match imageRecs img with
  | none => (b, bRecord)
  | some rs =>
    let i := b.cw.instNum
    let pairs (type : Nat) : List (Nat × Word) := (recsFor rs i type).flatMap (fun r => pairsOf r.payload)
    runSteps [
      fun b => applyEach safetyOk applySafety (pairs 5) (loadFirmware rs b),
      loadRetire (((recFor rs i 9).map (fun r => entriesOf 2 r.payload)).getD []),
      loadSeams (storeBytes b img) (((recFor rs i 2).map (fun r => parseSeams r.payload)).getD []),
      fun b => (admitAll ((List.range 4).foldl (applyRoster rs i) b), 0),
      fun b => (loadRoutes (recFor rs i 7) b, 0),
      loadPower ((recFor rs i 6).map (fun r => BitVec.ofNat 64 (imgAt r.payload 0 8))),
      fun b => applyEach (regsOk b) (fun b e => (writeReg b e.1 e.2).1) (pairs 4) b,
      fun b => (applyShadow (invalidateSump b), 0)] b

/-- The records of an image that break a rule of R329 or R330 in this instance's part (R331). -/
def recordsRefused (b : Block) (img : List Byte) : Bool :=
  match imageRecs img with
  | none => true
  | some rs =>
    let i := b.cw.instNum
    let pairs (type : Nat) : List (Nat × Word) := (recsFor rs i type).flatMap (fun r => pairsOf r.payload)
    let power : Option Word := (recFor rs i 6).map (fun r => BitVec.ofNat 64 (imgAt r.payload 0 8))
    !(pairs 5).all safetyOk || !(pairs 4).all (regsOk b) || power.any (fun p : Word => p >>> 60 != 0)
      || (((recFor rs i 9).map (fun r => entriesOf 2 r.payload)).getD []).any (fun e => decide (b.build.channels ≤ (e >>> 6) % 8))
      || !seamTableOk b.build b.bring.lcState (storeBytes b img) (((recFor rs i 2).map (fun r => parseSeams r.payload)).getD [])

end Sys2Proof.Machine
end

