-- ==== Sys2Proof/Machine/Boot.lean ====
section
/-! DEFINITION. Instance reset (R281, R282, R378, R401, R412, R496, R498), causeway reset (R312), the boot of an instance
(R333 to R340) and its declaration of ready (R338). -/

namespace Sys2Proof.Machine

/-! Instance reset. -/

/-- Debug access that has closed lets halted cores resume (R479). -/
def closeDebug (b : Block) : Block := if debugOpen b then b else { b with dbg := { b.dbg with halt := false } }

/-- A third instance reset has fallen within RECOV_WINDOW (R397). -/
def thirdReset (b : Block) (times : List Nat) : Bool :=
  decide (3 ≤ (times.filter (fun t => decide (usNow b ≤ t + recovWindow b * 1000000))).length)

/-- The contexts after an instance reset: CLOSED, every shift advanced by 1 (R378, R401). -/
def resetCtxs (b : Block) : Tbl Ctx :=
  (List.range 64).map (fun c => (c, { Ctx.init with shift := (ctxOf b c).shift + 1, lastBump := some (usNow b) }))

/-- The event unit after an instance reset (R430): EN is 0, the pending queue stays, records not acknowledged are issued
again at the next enable. -/
def resetEvents (e : Events) : Events :=
  { Events.init with
    again := (e.issued.filter (fun r => !r.2.1)).map (fun r => r.2.2) ++ e.again, queue := e.queue, lost := e.lost
    lostFirst := e.lostFirst, lostLast := e.lostLast }

/-- The observation unit after an instance reset (R401, R457, R461): the trace buffer and the snapshot stay. -/
def resetObserve (o : Observe) : Observe :=
  { Observe.init with
    pin := o.pin, stream := o.stream, buffer := o.buffer, oldest := o.oldest, dropped := o.dropped, written := o.written
    trcState := match o.trcState with | .idle => .idle | _ => .stopped
    sndHeld := o.sndHeld, sndCause := o.sndCause, sndOver := o.sndOver, snapshot := o.snapshot }

/-- The safety fields of the core domain at their reset values; those of the always-on domain stay (R421). -/
def resetSafety (s : Safety) : Safety :=
  { Safety.init with
    faults := s.faults, flags := s.flags &&& 0x0F#6, clkHeld := s.clkHeld, good := s.good, faultUs := s.faultUs, faultPwr := s.faultPwr }

/-- Bring-up fields at instance reset (R351): the running NVM sequence and wipe stop (R498). -/
def resetBring (x : Bring) : Bring :=
  { x with
    phase := 0, cause := 0, warm := false, bootMs := 0, katFail := 0, unlocked := false, wiping := false, wipeSeams := []
    wipeCmd := none, wipeCause := 0, wipeTarget := 0, holdupMin := 255, deferrals := 0, holdupLevel := 0, nvmMode := 0
    nvmDensity := 0, nvmDev := none, nvmSeq := none, dumpDeferred := none }

/-- The core domain in reset (R401): what the always-on domain, the causeway and the kept store hold stays. `level` tells
whether the reset counts toward the escalation of R397. -/
def resetCore (b : Block) (level : Bool) : Block :=
  let times := if level then (usNow b :: b.recov.resetTimes).take 3 else b.recov.resetTimes
  let again := level && thirdReset b times && bit b.regs.recovCtl 3
  let b := setPower b (fun _ => Power.init)
  let b := { b with
    zeroLines := [], seams := [], txns := [], xfers := [], ops := [], descs := [], paths := [], outs := [], chans := []
    ctxs := resetCtxs b, tallies := [], marks := [], marksDropped := 0, regs := Regs.init, arb := Arb.init
    sump := { Sump.init with stale := b.sump.stale ++ b.sump.out.map (fun r => r.id) }
    cw := { b.cw with latched := [] }
    bring := resetBring b.bring
    recov := { b.recov with
      instResets := satAdd 255 b.recov.instResets 1, chRecoveries := 0, lastLevel := 3, resetTimes := times, retrain := b.recov.retrain && b.recov.draining.isSome, draining := none
      retraining := false, stopWait := [] }
    safety := resetSafety b.safety, ev := resetEvents b.ev, rlog := { b.rlog with addr := 0 }
    time := { b.time with resumedUs := none }
    obs := resetObserve b.obs, dbg := Debug.init, cmdq := CmdQ.init, g0 := none }
  if again then powerCycle b else b

/-- Reset of the core domain is released: its boot may begin (R496). -/
def releaseCore (b : Block) : Block :=
  if b.bring.pins = 0 ∧ b.safety.clkHeld = false then
    { b with bring := { b.bring with inReset := false, releasedUs := usNow b } }
  else b

/-- Aborts for every VALID CW_CTXJOBc entry, which are then cleared (R318, R387). -/
def resetAborts (a : Arrays) (b : Block) : Block :=
  let b := startAborts a b (jobPairs b) none
  { b with cw := { b.cw with jobs := [] } }

/-- Instance reset is asserted and held (R282): a running S0 drain ends (R398). -/
def assertCore (b : Block) : Block :=
  if b.bring.inReset then b else resetCore { b with bring := { b.bring with inReset := true } } true

/-- Instance reset is asserted at once, with its aborts; the core, being in reset, takes no delivery of them (R320, R412). -/
def dropCore (a : Arrays) (b : Block) : Block :=
  if b.bring.inReset then b else resetCore (resetAborts a { b with bring := { b.bring with inReset := true } }) true

/-- The record of a reset through an input (R496); none where a running reset has written its own (R398). -/
def inputRecord (b : Block) : Block :=
  if b.bring.inReset ∨ b.recov.draining.isSome = true then b else emit b 0x64 none none (put 0 4 6)

/-- INST_RST_N (R496): it falls or rises. Off ignores it (R498). -/
def instRst (a : Arrays) (b : Block) (low : Bool) : Block :=
  if b.power.inst = .off then b
  else
    let pins := if low then b.bring.pins ||| 1#3 else b.bring.pins &&& ~~~1#3
    let b := { b with bring := { b.bring with pins := pins } }
    if low then dropCore a (inputRecord b) else releaseCore b

/-- Causeway reset (R312): everything of the causeway is lost, and so are the abort outputs. It takes the straps as they stand, so that
after its release it holds those of the release (R303). -/
def resetCauseway (b : Block) : Block :=
  { b with cw := Causeway.init b.bring.straps.1 b.bring.straps.2, recov := { b.recov with abortOut := [], abortNow := none } }

/-- The levels of the strap pins; in causeway reset the registers follow them until its release (R303, log 60). -/
def setStraps (b : Block) (instNum : BitVec 6) (pitheadSel : Bool) : Block :=
  { b with bring := { b.bring with straps := (instNum.toNat, pitheadSel) } }

/-- CW_RST_N (R303, R496): causeway reset, which also asserts instance reset; the straps are sampled at its release. -/
def cwRst (b : Block) (low : Bool) (instNum : BitVec 6) (pitheadSel : Bool) : Block :=
  let b := setStraps b instNum pitheadSel
  if b.power.inst = .off then b
  else if low then
    let b := inputRecord b
    resetCauseway (assertCore { b with bring := { b.bring with pins := b.bring.pins ||| 2#3 } })
  else releaseCore (resetCauseway { b with bring := { b.bring with pins := b.bring.pins &&& ~~~2#3 } })

/-- The REF_AON edge at or before this cycle: the µs ticks after it count its hundredth edge first (R39). -/
def lastRef (b : Block) : Nat := b.now - b.now % Config.refCycles

/-- AON_RST_N (R39, R303, R435, R496): power-on, and at its release the start of the µs ticks and causeway reset's release. What
one-time fuses and the NVM device hold stays. -/
def aonRst (b : Block) (low : Bool) (instNum : BitVec 6) (pitheadSel : Bool) : Block :=
  if low then
    let p := Block.powerOn b.build instNum.toNat pitheadSel
    { p with
      now := b.now, serial := b.serial, free := b.free, usBase := lastRef b
      bring := { p.bring with
        inReset := true, pins := b.bring.pins ||| 4#3, lcState := b.bring.lcState, dumps := b.bring.dumps, bankFuse := b.bring.bankFuse
        rowFuse := b.bring.rowFuse, laneFuse := b.bring.laneFuse, dumpSlots := b.bring.dumpSlots
        presenceLow := b.bring.presenceLow } }
  else if b.bring.pins &&& 4#3 = 0 then b
  else
    let b := setStraps { b with usBase := lastRef b, bring := { b.bring with pins := b.bring.pins &&& ~~~4#3 } } instNum pitheadSel
    releaseCore (resetCauseway b)

/-- S0_DRAIN_END (R281, R398): nothing is outstanding on S0, or DRAIN_LIMIT µs have passed; a limit
of 0 drains nothing (R288). The reset follows, and the boot. -/
def s0DrainEnd (b : Block) : Block :=
  match b.recov.draining with
  | none => b
  | some f => if b.sump.out.isEmpty = true ∨ drainLimit b = 0 ∨ usDue b f (drainLimit b) = true then releaseCore (assertCore b) else b

/-! Boot, step 1: fuses and retirements (R242, R243, R248). -/

/-- A bank fuse: entry 0 takes S0B, entry 1 S1B; one that names a bank already fused is ignored. -/
def applyBankFuse (b : Block) (f : Nat × Nat × Nat) : Block :=
  let (ch, e, bank) := f
  let s := (chan b ch).spare
  if (s.s0State = 1 ∧ s.s0Bank = bank) ∨ (s.s1State = 1 ∧ s.s1Bank = bank) then
    emit b 0x24 (some ch) none (put 2 7 e) (put 0 6 bank ||| putBit 6 true)
  else setChan b ch (fun c => { c with spare :=
    if e = 0 then { c.spare with s0State := 1, s0Bank := bank } else { c.spare with s1State := 1, s1Bank := bank } })

/-- An entry with a lower number of the same channel names the same bank and row (R243). -/
def repeatsRow (l : List RowFuse) (f : RowFuse) : Bool :=
  l.any (fun g => g.ch == f.ch && decide (g.entry < f.entry) && g.bank == f.bank && g.row == f.row)

/-- A record for each row fuse that repeats an earlier one, which is ignored. -/
def rowConflicts (b : Block) : Block :=
  (b.bring.rowFuse.filter (repeatsRow b.bring.rowFuse)).foldl (fun b f =>
    emit b 0x24 (some f.ch) none (put 0 2 1 ||| put 2 7 f.entry) (put 0 7 f.bank ||| put 7 13 f.row ||| put 20 4 f.redundant ||| putBit 24 true)) b

/-- One entry of the retention log's retirement list is applied again (R248). -/
def reRetire (b : Block) (e : Nat) : Block :=
  if (e >>> 15) % 2 = 0 then b
  else setChan b ((e >>> 6) % 8) (fun c => { c with spare := switchSpare c.spare (e % 64) (64 + (e >>> 9) % 2) })

def bootFuses (b : Block) : Block :=
  let b := b.bring.bankFuse.foldl applyBankFuse b
  b.rlog.retired.foldl reRetire (rowConflicts b)

/-! Step 2: the known-answer run (R334, R335) and SFDP discovery (R324, R325). -/

/-- A KAT_FAIL record. -/
def katRecord (b : Block) (ch : Option Nat) (bank pass : Nat) (retired : Bool) : Block :=
  emit b 0x28 ch none (put 0 7 bank ||| put 8 3 pass ||| putBit 11 retired)

/-- Pattern P of a word in a row: the line's address in its bank XOR 0x5A in every byte (log 96); passes 3 and 4 hold its complement. -/
def katPattern (pass row : Nat) : Word :=
  let p := BitVec.ofNat 64 row ^^^ 0x5A5A5A5A5A5A5A5A#64
  if pass = 3 ∨ pass = 4 then ~~~p else p

/-- The decoded word of a fault, read back with its flipped bits (R223, R334). -/
def katRead (f : CellFault) : Decoded :=
  let p := katPattern f.pass f.row
  eccDecode (p ^^^ f.flips.extractLsb' 0 64) (eccEncode p ^^^ f.flips.extractLsb' 64 8)

/-- A bank fails the run (R335): an uncorrectable word, a mismatch after correction, or more than 16 corrected words. -/
def katFails (l : List CellFault) : Bool :=
  l.any (fun f => (katRead f).bad || (katRead f).data != katPattern f.pass f.row)
    || decide (16 < (l.filter (fun f => (katRead f).verdict == .corrected)).length)

/-- The pass by which a physical bank has failed. -/
def katPass (l : List CellFault) (ch pb : Nat) : Option Nat :=
  ([1, 2, 3, 4, 5] : List Nat).find? (fun p => katFails (l.filter (fun f => f.ch == ch && f.bank == pb && decide (f.pass ≤ p))))

/-- What a physical bank is tested as: a free spare as itself, the bank that serves a number as that number; others are not tested. -/
def testedAs (b : Block) (ch pb : Nat) : Option Nat :=
  let s := (chan b ch).spare
  let spare (st bank : Nat) : Option Nat := if st = 0 then some pb else if st = 1 ∨ st = 2 then some bank else none
  if pb = 64 then spare s.s0State s.s0Bank else if pb = 65 then spare s.s1State s.s1Bank
  else if physBank (chan b ch) pb = pb then some pb else none

/-- The banks and spares that fail, as (channel, number, pass). -/
def badBanks (b : Block) (l : List CellFault) : List (Nat × Nat × Nat) :=
  (l.map (fun f => (f.ch, f.bank))).eraseDups.filterMap (fun e =>
    match testedAs b e.1 e.2, katPass l e.1 e.2 with
    | some k, some p => some (e.1, k, p)
    | _, _ => none)

/-- A free spare that fails is marked failed. -/
def katSpare (b : Block) (f : Nat × Nat × Nat) : Block :=
  let (ch, k, pass) := f
  let st := if k = 64 then (chan b ch).spare.s0State else (chan b ch).spare.s1State
  if chanOk b ch && st == 0 then setChan (katRecord b (some ch) k pass false) ch (fun c => { c with spare := failSpare k c.spare }) else b

/-- A bank that fails is retired onto a free spare, or there is none. -/
def katBank (r : Block × Bool) (f : Nat × Nat × Nat) : Block × Bool :=
  let (ch, k, pass) := f
  let b := r.1
  if chanOk b ch = false then r
  else
    let pb := physBank (chan b ch) k
    match freeSpare (chan b ch).spare with
    | none => (katRecord b (some ch) pb pass false, true)
    | some onto =>
      let b := bootSwitch (katRecord b (some ch) pb pass true) ch k onto
      ({ b with bring := { b.bring with katFail := b.bring.katFail ||| (1#8 <<< ch) } }, r.2)

/-- The known-answer run: spares first, then banks, then the unit vectors. The number is the cause of a failure. -/
def knownAnswer (b : Block) (i : BootInput) : Block × Nat :=
  let bad := badBanks b i.faults
  let b := (bad.filter (fun f => decide (64 ≤ f.2.1))).foldl katSpare b
  let (b, none_) := (bad.filter (fun f => decide (f.2.1 < 64))).foldl katBank (b, false)
  if none_ then (b, bNoSpare)
  else if i.unitsOk then (b, 0) else (katRecord b none 0 0 false, bKatUnit)

/-- The fastest read mode the device advertises, coded as NVM_STAT.MODE; 8D-8D-8D asks for the xSPI Profile 1.0 table with at least
156.25 MHz (R325, R351). -/
def readMode (f : Sfdp) : Nat :=
  if f.signature = false then 0
  else if f.read8d = true ∧ f.xspiKhz.any (fun k => decide (156250 ≤ k)) = true then 3
  else if f.readQuad then 2 else 1

/-- SFDP discovery on the pithead (R324 to R326). -/
def discover (b : Block) (f : Sfdp) : Block :=
  if isPithead b then { b with bring := { b.bring with
    nvmMode := readMode f, nvmDensity := if f.signature then f.log2Size else 0, dumpArea := f.signature && decide (25 ≤ f.log2Size)
    nvmDev := if f.signature then
      some { entry4 := if f.native4 then none else some f.entry4, quadEnable := f.quadEnable, programUs := f.programUs, eraseMs := f.eraseMs }
      else none } } else b

/-! Steps 3 to 5. -/

/-- Step 3 (R336): every line but the store's on a warm boot, every tag, merge buffer, repair queue, tally and mark is cleared. -/
def clearContents (a : Arrays) (b : Block) (keep : List Nat) : Arrays × Block :=
  ({ mem := a.mem.filter (fun e => keep.contains (e.1 / 256 * 256)), tags := [] }, { b with
    zeroLines := [], tallies := [], marks := []
    chans := b.chans.map (fun e => (e.1, { e.2 with merge := [], repair := [], tagFix := [] })) })

/-- Boot fails (R340). -/
def bootFail (b : Block) (cause : Nat) : Block :=
  let b := { b with bring := { b.bring with phase := 15, cause := cause } }
  escalatePower (emit b 0x50 none none (bootStat b))

/-- Step 5, and its failure. -/
def bootLoad (b : Block) : Block :=
  match storeCause b.bring.lcState b.bring.store with
  | 0 => match loadRecords b b.bring.store with
    | (b, 0) => { b with bring := { b.bring with phase := 4 }, cw := { b.cw with started := true } }
    | (b, c) => bootFail b c
  | c => bootFail b c

/-- The pithead has a checked image: it tells the mesh on every ACTIVE port that it has not told since the link trained (R315, R316). -/
def announce (b : Block) : Block :=
  if b.bring.phase = 15 then b
  else
    let b := { b with cw := { b.cw with imageReady := true, pitheadInst := b.cw.instNum } }
    (activePorts b).foldl onActive b

/-- Step 4 on the pithead, cold: the image is read from N0, checked, and stored. -/
def readImage (b : Block) (i : BootInput) : List Byte × Nat :=
  let len := imgLength i.image
  if i.sfdp.signature = false ∨ i.sfdp.erase4k = false ∨ (headerOk b.bring.lcState i.image = true ∧ 2 ^ i.sfdp.log2Size < len) then ([], bNvm)
  else (i.image.take len, headerCause b.bring.lcState i.image)

/-- A cold worker waits for the pithead from the end of step 3 (R339): it asks if it has been woken from Off (R317). -/
def awaitImage (b : Block) : Block :=
  let b := { b with
    bring := { b.bring with phase := 3, store := [] }
    cw := { b.cw with started := false, imageOk := false, bootBytes := [] } }
  if b.cw.asking then (activePorts b).foldl onActive b else b

/-- The store of a core domain that has kept power, if it reads back and its checks pass (R333): the boot is warm. -/
def warmStore (a : Arrays) (b : Block) : Option (List Byte) :=
  if b.bring.coreLost then none else (readStore a b b.bring.store).filter (storeOk b.bring.lcState)

/-- The instance may begin to boot: its reset is released and nothing has booted since (R333). -/
def bootable (b : Block) : Bool :=
  !b.bring.inReset && b.bring.phase == 0 && b.power.inst != .off && !b.safety.clkHeld

/-- Steps 4 and 5 (R333): the store of a warm boot is loaded; a cold pithead reads its image and stores it, a cold worker waits for it. -/
def bootImage (a : Arrays) (b : Block) (i : BootInput) (warm : Option (List Byte)) : Arrays × Block :=
  match warm with
  | some l =>
    let b := bootLoad { b with bring := { b.bring with warm := true, store := l } }
    (a, if isPithead b then announce b else b)
  | none =>
    if isPithead b then
      match readImage b i with
      | (l, 0) => (writeStore a b l, announce (bootLoad { b with bring := { b.bring with store := l } }))
      | (_, c) => (a, bootFail b c)
    else (a, awaitImage b)

/-- BOOT (R333 to R337). From here on the core domain has its power. -/
def boot (a : Arrays) (b : Block) (i : BootInput) : Arrays × Block :=
  if bootable b = false then (a, b)
  else
    let (b, c) := knownAnswer (discover (bootFuses b) i.sfdp) i
    let warm := warmStore a b
    let b := { b with bring := { b.bring with coreLost := false } }
    if c ≠ 0 then (a, bootFail b c)
    else
      let (a, b) := clearContents a b (match warm with | some l => storeKeys b l | none => [])
      bootImage a (if isPithead b then (activePorts b).foldl onActive b else b) i warm

/-! Ready. -/

/-- The recovery with RETRAIN goes on after ready (R398): TRAIN to every port that is not ACTIVE, one read on S0. -/
def afterRetrain (b : Block) : Block :=
  if b.recov.retrain then
    let b := (List.range b.build.peers).foldl trainPort b
    let r := s0Own b (fld b.ev.base 12 30 * 4096) 64 .probe []
    { b with recov := { b.recov with retrain := false, retraining := true }, sump := { b.sump with queue := b.sump.queue ++ [r] } }
  else b

/-- READY (R338): the ports open, a roster is activated, the next bank cycle is the rotation origin, the queue opens. -/
def ready (b : Block) : Block :=
  if b.bring.phase ≠ 4 ∨ b.bring.inReset = true then b
  else
    let us := usNow b
    let b := { b with bring := { b.bring with phase := 5, bootMs := min 255 ((us - b.bring.releasedUs) / 1000) } }
    let b := activateRoster b
    let b := { b with
      arb := { b.arb with
        fresh := true, bankCycles := 0, rotation := 0, budgetRot := 0, confFrom := 0
        confLen := max 1 (fld b.regs.conflictCtl 0 20), ceFrom := b.now / Config.refCycles + 1, ceLen := max 1 (fld b.regs.ceCtl 16 16) }
      safety := { b.safety with lastBeat := us, lastBeatTime := b.time.ns, scrubUs := us } }
    afterRetrain ((List.range b.build.channels).foldl (fun b n =>
      setChan b n (fun c => { c with stopped := false, idleFrom := b.now })) b)

/-- The recovery with RETRAIN is complete: every port is ACTIVE or DOWN, and the read has been answered (R398). -/
def retrainCheck (b : Block) : Block :=
  let settled (n : Nat) : Bool := match (linkOf b n).state with | .active | .down => true | _ => false
  let waits := (b.sump.queue ++ b.sump.out).any (fun r => decide (r.who = .probe))
  if b.recov.retraining && (List.range b.build.peers).all settled && !waits then
    { b with recov := { b.recov with retraining := false } } else b

/-- RETRAIN_RECOVERY_TIMEOUT (R398): 2 s after its start the recovery has failed, as if the boot had. -/
def retrainTimeout (b : Block) : Block :=
  let b := retrainCheck b
  if b.recov.retraining = true ∧ usDue b b.recov.resetUs 2000000 = true then
    escalatePower { b with recov := { b.recov with retraining := false } }
  else b

/-! The commands. -/

/-- AON_RST_N (R496). -/
def execAonRstN (p : PowerPins) (s : State) : Host.Outcome State Fault Refusal :=
  done s (aonRst s.blk p.low p.instNum p.pitheadSel)

/-- CW_RST_N (R496). -/
def execCwRstN (low : Bool) (instNum : BitVec 6) (pitheadSel : Bool) (s : State) : Host.Outcome State Fault Refusal :=
  done s (cwRst s.blk low instNum pitheadSel)

/-- INST_RST_N (R496). -/
def execInstRstN (low : Bool) (s : State) : Host.Outcome State Fault Refusal := done s (instRst s.arr s.blk low)

/-- S0_DRAIN_END (R281). -/
def execS0DrainEnd (s : State) : Host.Outcome State Fault Refusal := done s (s0DrainEnd s.blk)

/-- BOOT (R333). -/
def execBoot (i : BootInput) (s : State) : Host.Outcome State Fault Refusal := doneArr s (boot s.arr s.blk i)

/-- READY (R338). -/
def execReady (s : State) : Host.Outcome State Fault Refusal := done s (ready s.blk)

/-- RETRAIN_RECOVERY_TIMEOUT (R398). -/
def execRetrainRecoveryTimeout (s : State) : Host.Outcome State Fault Refusal := done s (retrainTimeout s.blk)

end Sys2Proof.Machine
end

