-- ==== Sys2Proof/Machine/Lifecycle.lean ====
section
/-! DEFINITION. Presence and tamper (R341, R346), wipes and cleared seams (R54, R67, R185, R345), the life cycle (R344), and
NVM sequences and crash dumps (R347 to R350, R399, R400). -/

namespace Sys2Proof.Machine

/-! Presence. -/

/-- HOLD_MS now: the ms during which PRESENCE_N has been low, up to 65,535 (R341). -/
def holdNow (b : Block) : Nat := if b.bring.presenceLow then min 65535 ((usNow b - b.bring.presenceFrom) / 1000) else 0

/-- HOLD_MS follows the pin; debug access that DEBUG_UNLOCK opened ends with PRESENT (R342, R479). -/
def refreshHold (b : Block) : Block :=
  let b := { b with bring := { b.bring with holdMs := holdNow b } }
  if present b then b else closeDebug { b with bring := { b.bring with unlocked := false } }

/-- PRESENCE_N changes level. -/
def presencePin (b : Block) (low : Bool) : Block :=
  if low = b.bring.presenceLow then b
  else refreshHold { b with bring := { b.bring with presenceLow := low, presenceFrom := usNow b } }

/-! Clearing a seam. -/

/-- The channel sequencer starts to zero a seam's lines (R31, R67, R345): in every bank its first line bids, and each brings the next.
Merge entries of the seam drain first. -/
def zeroSeam (a : Arrays) (b : Block) (kind : LKind) (n : Nat) : Block :=
  let s := seamOf b n
  let row := seamLo s / 128 / 2 ^ (6 + logCh b.build)
  let b := (List.range b.build.channels).foldl (fun b ch => drainWhere a b ch (fun e => e.seam == n)) b
  (List.range b.build.channels).foldl (fun b ch => (List.range 64).foldl (fun b bank =>
    match lineIn b s ch bank row with
    | some line => postOp b (seqOp b kind ch bank row line n)
    | none => b) b) b

/-- Every line of a seam that is being zeroed is, and no merge entry holds one. -/
def seamZeroed (b : Block) (n : Nat) : Bool :=
  !b.ops.any (fun o => (o.kind == .clear || o.kind == .wipe) && o.seam == n) && !b.chans.any (fun e => e.2.merge.any (fun m => m.seam == n))

/-- The banks of a row whose lines lie in the seam, as tag bits. -/
def seamTagMask (b : Block) (s : Seam) (ch row : Nat) : Word :=
  (List.range 64).foldl (fun w k => if (lineIn b s ch k row).isSome then w ||| (1#64 <<< k) else w) 0

/-- Every tag of a ZMAP seam set (R185). -/
def tagSeam (a : Arrays) (b : Block) (s : Seam) : Arrays :=
  (List.range b.build.channels).foldl (fun a ch => (List.range (linesPerBank b.build)).foldl (fun a row =>
    let m := seamTagMask b s ch row
    if m = 0 then a
    else
      let d := (tagDecode a ch row).data ||| m
      { a with tags := writeWord a.tags (tagKey ch row) (d, eccEncode d) }) a) a

/-- The line of a key lies in the seam. -/
def keyIn (b : Block) (s : Seam) (key : Nat) : Bool :=
  (lineIn b s (key / 256 / rowSpace / 66) (key / 256 / rowSpace % 66) (key / 256 % rowSpace)).isSome

/-- A ZMAP seam is cleared by its tags (R67, R185); what is past stage F lies behind them (R183). -/
def clearTags (a : Arrays) (b : Block) (n : Nat) : Arrays × Block :=
  let s := seamOf b n
  if s.zmap then
    (tagSeam a b s, mapPastF { b with zeroLines := b.zeroLines.filter (fun k => !keyIn b s k) } (fun o =>
      if o.seam = n then { o with old := true } else o))
  else (a, b)

/-! Wipes (R345). -/

/-- Step 1: the owner sets of the SECURE seams are emptied, and their lines begin to be zeroed. A second cause joins the running
wipe. -/
def startWipe (a : Arrays) (b : Block) (cause : Nat) : Block :=
  if b.bring.wiping then b
  else
    let l := (b.seams.filter (fun e => e.2.valid && e.2.secure)).map (fun e => e.1)
    l.foldl (fun b n => zeroSeam a b .wipe n) { b with
      seams := b.seams.map (fun e => if l.contains e.1 then (e.1, { e.2 with owners := 0 }) else e)
      bring := { b.bring with wiping := true, wipeSeams := l, wipeCause := cause } }

/-- LC_ADVANCE after its wipe (R344): the fuses, the record, the completion. -/
def advanceLife (b : Block) : Block :=
  match b.bring.wipeCmd with
  | none => b
  | some c =>
    let b := emit b 0x52 none none (put 0 2 b.bring.lcState ||| put 2 2 b.bring.wipeTarget)
    let b := { b with bring := { b.bring with lcState := b.bring.wipeTarget, wipeCmd := none, wipeTarget := 0 } }
    closeDebug (complete b c cOkay 0)

/-- The core is awake as far as a wipe needs it (R346). -/
def wipeReady (b : Block) : Bool :=
  b.power.inst == .on && !(b.bring.wipeHold && (b.power.wakingInst.isSome || !b.power.waking.isEmpty))

/-- WIPE_DONE: step 2 has zeroed every line; the tags are set, and step 3 follows. -/
def wipeDone (a : Arrays) (b : Block) : Arrays × Block :=
  if b.bring.wiping = false ∨ wipeReady b = false ∨ b.bring.wipeSeams.all (seamZeroed b) = false then (a, b)
  else
    let (a, b) := b.bring.wipeSeams.foldl (fun r n => clearTags r.1 r.2 n) (a, b)
    let b := emit b 0x53 none none (put 0 2 b.bring.wipeCause ||| put 8 8 b.bring.wipeSeams.length)
    let b := { b with bring := { b.bring with wiping := false, wipeSeams := [], wipeCause := 0, wipeHold := false } }
    (a, advanceLife b)

/-! Tamper (R346). -/

/-- The core wakes at the auto-wake times for a wipe. -/
def wakeForWipe (b : Block) : Block :=
  let hold (b : Block) : Block := { b with bring := { b.bring with wipeHold := true } }
  match b.power.inst with
  | .deep => hold (wakeDeep b 6 true)
  | .off => b
  | .on =>
    if coreState b ≤ 1 then b
    else hold { b with power := { b.power with
      waking := b.power.waking ++ ((List.range b.build.channels).filter (fun c => !b.power.waking.any (fun e => e.1 == c))).map (fun c => (c, 6)) } }

/-- TAMPER_N has been low for 4 ticks. -/
def tamperAssert (a : Arrays) (b : Block) : Block :=
  if b.bring.tamper then b
  else
    let b := { b with bring := { b.bring with tamper := true, tampered := true } }
    let wipes := isReady b && b.power.inst != .off && !b.safety.clkHeld
    let b := emit b 0x54 none none (putBit 0 wipes)
    if wipes then
      let b := match b.power.hs with
        | some h => if hsOpen h then abandonHs b 9 0 else b
        | none => b
      wakeForWipe (startWipe a b 1)
    else b

/-- TAMPER_N_RELEASE. -/
def tamperRelease (b : Block) : Block := { b with bring := { b.bring with tamper := false } }

/-! Hold-up and NVM sequences (R347 to R349). -/

/-- The hold-up check of a sequence: the sample is kept, and the sequence may begin. -/
def holdupOk (b : Block) (level : BitVec 8) : Block × Bool :=
  ({ b with bring := { b.bring with holdupLevel := level.toNat } }, decide (b.bring.holdupMin ≤ level.toNat))

/-- A sequence is deferred (R348): 0 NVM_WRITE, 1 DUMP_ERASE, 2 crash dump. -/
def deferNvm (b : Block) (seq : Nat) : Block :=
  let b := { b with bring := { b.bring with deferrals := satAdd 65535 b.bring.deferrals 1 } }
  emit b 0x55 none none (put 0 2 seq ||| put 8 8 b.bring.holdupLevel ||| put 16 8 b.bring.holdupMin)

/-- PWR_CYCLE_REQ is asserted once the dump it waited for is written, or cannot be (R399, R400). -/
def dumpSettled (b : Block) : Block :=
  match b.recov.dumpWait with
  | none => b
  | some _ => { b with recov := { b.recov with dumpWait := none, pwrCycleReq := true } }

/-- The lowest dump slot without a valid dump. -/
def emptySlot (b : Block) : Option Nat := (List.range 4).find? (fun s => !bit b.bring.dumpSlots s)

/-- A pending crash dump may be written: after ready, or before a power cycle (R350, R400). -/
def dumpDue (b : Block) : Bool :=
  b.bring.dumpPending && b.bring.nvmSeq.isNone && (isReady b || b.recov.dumpWait.isSome) && b.power.inst == .on

/-- A check of the pending crash dump's hold-up: the sequence begins, or stays deferred, with one record. -/
def tryDump (b : Block) (level : BitVec 8) : Block :=
  match holdupOk b level with
  | (b, true) => { b with bring := { b.bring with nvmSeq := some (2, none), dumpDeferred := none } }
  | (b, false) =>
    let b := if b.bring.dumpDeferred.isSome then b else deferNvm b 2
    { b with bring := { b.bring with dumpDeferred := some (usNow b) } }

/-- CRASH_DUMP (R350): a pithead without a dump area leaves the dump in the log; with every slot full there is one record. -/
def crashDump (b : Block) (level : BitVec 8) : Block :=
  if dumpDue b = false ∨ b.bring.dumpDeferred.isSome = true then b
  else
    let clear (b : Block) : Block := dumpSettled { b with bring := { b.bring with dumpPending := false } }
    if hasDumpArea b = false then clear b
    else match emptySlot b with
      | none => clear (emit b 0x57 none none 0)
      | some _ => tryDump b level

/-- HOLDUP_RECHECK (R348): every 1 ms. -/
def holdupRecheck (b : Block) (level : BitVec 8) : Block :=
  match b.bring.dumpDeferred with
  | none => b
  | some t => if dumpDue b && usDue b t 1000 then tryDump b level else b

/-- NVM_SEQUENCE_DONE (R349): the running sequence ends; an image that reads back differently has its record. -/
def nvmDone (b : Block) (mismatch : Option Nat) : Block :=
  match b.bring.nvmSeq with
  | none => b
  | some (kind, cmd) =>
    let b := { b with bring := { b.bring with nvmSeq := none } }
    match kind, mismatch with
    | 0, some off => completeIf (emit b 0x56 none none (put 0 24 off)) cmd cRefused rVerify (put 0 24 off)
    | 0, none => completeIf b cmd cOkay 0
    | 1, _ => completeIf { b with bring := { b.bring with dumpSlots := 0, dumps := [] } } cmd cOkay 0
    | _, _ =>
      let b := match emptySlot b with
        | some s => { b with bring := { b.bring with
            dumpSlots := b.bring.dumpSlots ||| (1#4 <<< s)
            dumps := tset b.bring.dumps s { bootStat := bootStat b, time := b.time.ns, log := b.rlog } } }
        | none => b
      dumpSettled { b with bring := { b.bring with dumpPending := false } }

/-- POWER_CYCLE_DUMP_WAIT (R400): 100 ms, whether or not the dump has been written. -/
def dumpWaitEnd (b : Block) : Block :=
  match b.recov.dumpWait with
  | none => b
  | some t => if usDue b t 100000 then dumpSettled b else b

/-! The commands. -/

/-- PRESENCE_N (R341). -/
def execPresenceN (low : Bool) (s : State) : Host.Outcome State Fault Refusal := done s (presencePin s.blk low)

/-- PRESENCE_HOLD (R341): HOLD_MS reaches 100. -/
def execPresenceHold (s : State) : Host.Outcome State Fault Refusal := done s (refreshHold s.blk)

/-- TAMPER_N (R346). -/
def execTamperN (s : State) : Host.Outcome State Fault Refusal := done s (tamperAssert s.arr s.blk)

/-- TAMPER_N_RELEASE (R346). -/
def execTamperNRelease (s : State) : Host.Outcome State Fault Refusal := done s (tamperRelease s.blk)

/-- WIPE_DONE (R345). -/
def execWipeDone (s : State) : Host.Outcome State Fault Refusal := doneArr s (wipeDone s.arr s.blk)

/-- CRASH_DUMP (R350). -/
def execCrashDump (level : BitVec 8) (s : State) : Host.Outcome State Fault Refusal := done s (crashDump s.blk level)

/-- HOLDUP_RECHECK (R348). -/
def execHoldupRecheck (level : BitVec 8) (s : State) : Host.Outcome State Fault Refusal := done s (holdupRecheck s.blk level)

/-- NVM_SEQUENCE_DONE (R349). -/
def execNvmSequenceDone (mismatch : Option Nat) (s : State) : Host.Outcome State Fault Refusal := done s (nvmDone s.blk mismatch)

/-- POWER_CYCLE_DUMP_WAIT (R400). -/
def execPowerCycleDumpWait (s : State) : Host.Outcome State Fault Refusal := done s (dumpWaitEnd s.blk)

end Sys2Proof.Machine
end

