-- ==== Sys2Proof/Machine/Power.lean ====
section
/-! DEFINITION. Power states (R352 to R373): automatic entries, the handshake, entries, wakes, and PWR_SET. -/

namespace Sys2Proof.Machine

/-! Policy timers (R354). -/

/-- The active roster names a port as owner in some cluster of the channel. -/
def rosterOwned (b : Block) (ch : Nat) : Bool :=
  (chan b ch).roster.any (fun e => e.1 / 2048 == b.arb.active && (match ownerOf e.2 with | some o => isPeer o || isLocal o | none => false))

/-- The channel has no work: no condition of R356 holds. -/
def noWork (b : Block) (ch : Nat) : Bool :=
  let c := conds b ch
  !(c.tallies || c.delays)

/-- The IDLE_AFTER timers (R354): a running channel with work, or with a roster owner, starts its timer anew. -/
def idleTimers (b : Block) : Block :=
  (List.range b.build.channels).foldl (fun b n =>
    if chPower b n == .run && noWork b n && !rosterOwned b n && !(chan b n).stopped then b
    else setChan b n (fun c => { c with idleFrom := b.now })) b

/-- The channels that a handshake asks. -/
def askedChans (b : Block) (h : Handshake) : List Nat :=
  if 3 ≤ h.target then List.range b.build.channels else h.mask

/-- A channel that is asked drains its merge buffer (R356). -/
def drainAsked (a : Arrays) (b : Block) (l : List Nat) : Block := l.foldl (fun b n => drainWhere a b n (fun _ => true)) b

/-- The reason of the first channel that refuses (R356, R365). -/
def refuser (b : Block) (l : List Nat) : Option Nat := l.find? (fun n => holdsTallies b n)

/-- A channel that holds tallies refuses: the entry is abandoned (R363). -/
def checkRefuse (b : Block) : Block :=
  match b.power.hs with
  | none => b
  | some h => match refuser b (askedChans b h) with
    | some n => if hsOpen h then abandonHs b 1 n else b
    | none => b

/-- The ask (R355). -/
def startHs (a : Arrays) (b : Block) (target : Nat) (mask : List Nat) (auto : Bool) (cmd : Option Nat) : Block :=
  let h : Handshake :=
    { target := target, mask := mask, auto := auto, cmd := cmd, phase := .ask, granted := false, usedUs := 0, fromUs := usNow b, drainUs := 0 }
  checkRefuse (drainAsked a { b with power := { b.power with hs := some h } } (askedChans b h))

/-- An automatic entry may start for a channel. -/
def autoReady (b : Block) (ch : Nat) : Bool :=
  isReady b && b.power.inst == .on && b.power.hs.isNone && !(chan b ch).stopped && !chFrozen b ch && !stopping b ch
    && !(b.power.waking.any (fun e => e.1 == ch)) && b.power.wakingInst.isNone

/-- IDLE_AFTER (R354). -/
def idleAfter (a : Arrays) (b : Block) (ch : Nat) : Block :=
  let n := fld b.regs.pwrPolicy 0 16
  if autoReady b ch && chPower b ch == .run && decide (n ≠ 0) && decide ((chan b ch).idleFrom + n ≤ b.now) && noWork b ch && !rosterOwned b ch
  then startHs a b 1 [ch] true none else b

/-- SLEEP_AFTER (R354). -/
def sleepAfter (a : Arrays) (b : Block) (ch : Nat) : Block :=
  let n := fld b.regs.pwrPolicy 16 32
  if autoReady b ch && chPower b ch == .idle && decide (n ≠ 0) && usDue b (tget 0 b.power.idleUs ch) n
  then startHs a b 2 [ch] true none else b

/-! The commit point (R355, R357, R358, R361). -/

/-- The conditions of R358 but for OFF_ACK and the wipe. -/
def sumpQuiet (b : Block) : Bool := b.sump.out.isEmpty && b.sump.queue.isEmpty && !recordsWait b

/-- Every channel that is asked agrees. -/
def allAgree (b : Block) (h : Handshake) : Bool := (askedChans b h).all (fun n => answerOf b n == 0)

/-- OFF_REQ goes to the pithead, and handshake time stops (R361). -/
def sendOffReq (b : Block) (h : Handshake) : Block :=
  let b := { b with power := { b.power with hs := some { h with
    phase := .offAck, usedUs := h.usedUs + (usNow b - h.fromUs), fromUs := usNow b } } }
  routeCtl b (ctlMsg b 10 b.cw.pitheadInst false 0)

/-- HANDSHAKE_COMMIT: the first CLK_CTL edge at which every channel agrees and the instance conditions hold. -/
def hsCommit (a : Arrays) (b : Block) : Block :=
  match b.power.hs with
  | none => b
  | some h =>
    if h.phase ≠ .ask then b
    else if (refuser b (askedChans b h)).isSome then checkRefuse b
    else
      let b := drainAsked a b (askedChans b h)
      if allAgree b h = false ∨ b.now % 4 ≠ 0 then b
      else if h.target < 3 then { b with power := { b.power with hs := some { h with phase := .entering } } }
      else if sumpQuiet b = false ∨ b.bring.wiping = true then b
      else if h.target = 3 then { b with power := { b.power with hs := some { h with phase := .entering } } }
      else if h.granted = false then sendOffReq b h
      else { b with
        power := { b.power with hs := some { h with phase := .drain, drainUs := usNow b } }
        cw := { b.cw with stopTransit := true } }

/-- The lowest reason of R365 that holds at HS_LIMIT, with its channel. -/
def hsReason (b : Block) (h : Handshake) : Option (Nat × Nat) :=
  let l := askedChans b h
  let first (code : Nat) (p : Conds → Bool) : Option (Nat × Nat) := (l.find? (fun n => p (conds b n))).map (fun n => (code, n))
  let inst (code : Nat) (p : Bool) : Option (Nat × Nat) := if 3 ≤ h.target ∧ p = true then some (code, 0) else none
  [first 1 (fun c => c.tallies), first 2 (fun c => c.merge), first 3 (fun c => c.class0), first 4 (fun c => c.peer),
    first 5 (fun c => c.work), first 6 (fun c => c.sparing), inst 8 (!sumpQuiet b), inst 9 b.bring.wiping].findSome? id

/-- HS_LIMIT (R363, R365): a condition still fails after HS_LIMIT µs of handshake time. -/
def hsLimit (b : Block) : Block :=
  match b.power.hs with
  | none => b
  | some h =>
    let l := max 1 (fld b.regs.pwrPolicy 48 12)
    if h.phase = .ask ∧ usDue b h.fromUs (l - h.usedUs) = true then
      match hsReason b h with
      | some (code, ch) => abandonHs b code ch
      | none => b
    else b

/-- OFF_ACK_TIMEOUT (R361). -/
def offAckTimeout (b : Block) : Block :=
  match b.power.hs with
  | none => b
  | some h => if h.phase = .offAck ∧ usDue b h.fromUs 20000 = true then abandonHs b 7 0 else b

/-- OFF_ACK arrives (R361). -/
def offAnswer (b : Block) (granted : Bool) : Block :=
  match b.power.hs with
  | none => b
  | some h =>
    if h.phase ≠ .offAck then b
    else if granted then { b with power := { b.power with hs := some { h with phase := .ask, granted := true, fromUs := usNow b } } }
    else abandonHs b 7 0

/-- A port has nothing left to send or to be acknowledged. -/
def portEmpty (l : Link) : Bool := l.replay.isEmpty && l.tx.isEmpty && l.txRest.isNone

/-- CAUSEWAY_DRAIN_END (R361): the causeway is empty, or 1 ms has passed; what is queued then is lost. -/
def causewayDrainEnd (b : Block) : Block :=
  match b.power.hs with
  | none => b
  | some h =>
    let empty := (List.range b.build.peers).all (fun n => portEmpty (linkOf b n)) && b.cw.held.isEmpty && b.cw.local_.isEmpty
    if h.phase = .drain ∧ (empty = true ∨ usDue b h.drainUs 1000 = true) then
      let b := (List.range b.build.peers).foldl (fun b n => setLink b n (fun l => { l with
        lostFlits := satAdd 65535 l.lostFlits l.replay.length, replay := [], sentAt := [], replayPos := none, tx := [], txRest := none })) b
      { b with cw := { b.cw with held := [], local_ := [] }, power := { b.power with hs := some { h with phase := .entering } } }
    else b

/-! Entries and wakes (R359 to R362, R366 to R370). -/

/-- A PWR_CHANGE record of an entry. -/
def entryRecord (b : Block) (old new mask : Nat) : Block :=
  let p3 := put 0 3 old ||| put 3 3 new ||| put 8 8 mask
  traceSys (emit b 0x58 none none p3) 5 0 p3

def maskOfChans (l : List Nat) : Nat := l.foldl (fun m n => m + 2 ^ n) 0

/-- A wake to Run of the instance begins: every channel wakes (R366, R369). -/
def wakeRun (b : Block) (src : Nat) : Block :=
  match b.power.inst with
  | .deep => wakeDeep b src true
  | .off => b
  | .on => { b with power := { b.power with wakingInst := some (b.power.wakingInst.getD src) } }

/-- Held requests of a state just entered (R357): in Deep sleep they wake the instance as a fresh request would. -/
def wakeHeld (b : Block) : Block :=
  if b.power.inst = .deep then
    match b.power.wakingInst, b.txns.find? (fun x => decide (x.phase = .waiting .power)) with
    | some src, _ => wakeDeep b src true
    | none, some x =>
      let any := b.txns.any (fun x => decide (x.phase = .waiting .power) && x.req.wake)
      wakeDeep b (if any then 1 else 2) (any || x.req.wake)
    | none, none => b
  else b

/-- Waking from Off (R370): power, then causeway reset and instance reset; the instance boots cold. -/
def wakeOff (b : Block) (src : Nat) : Block :=
  let asks := !b.bring.straps.2
  let b := setPower b (fun _ => Power.init)
  let b := resetCauseway (resetCore { b with bring := { b.bring with inReset := true } } false)
  let b := { b with
    cw := { b.cw with asking := asks }
    bring := { b.bring with coreLost := true, store := [] }
    obs := { Observe.init with pin := b.obs.pin } }
  releaseCore (wakeRecord b 4 0 (2 ^ b.build.channels - 1) src)

/-- STATE_ENTRY_COMPLETE: the state is entered, the command completes, held requests are answered in the new state. -/
def entryComplete (b : Block) : Block :=
  match b.power.hs with
  | none => b
  | some h =>
    if h.phase ≠ .entering then b
    else
      let l := askedChans b h
      let old := if 3 ≤ h.target then coreState b else (match l with | n :: _ => (chPower b n).code | [] => 0)
      let new : Power → Power := fun p =>
        if h.target = 3 then { p with hs := none, inst := .deep }
        else if h.target = 4 then { p with hs := none, inst := .off, waking := [] }
        else
          let st : PState := if h.target = 1 then .idle else .sleep
          { p with
            hs := none, ch := l.foldl (fun t n => tset t n st) p.ch
            idleUs := if h.target = 1 then l.foldl (fun t n => tset t n (usNow b)) p.idleUs else p.idleUs }
      let b := entryRecord (setPower b new) old h.target (maskOfChans l)
      let b := completeIf b h.cmd cOkay 0
      if h.target = 4 then
        let wake := b.power.wakingInst
        let b := resetCauseway { b with bring := { b.bring with coreLost := true } }
        match wake with | some src => wakeOff b src | none => b
      else wakeHeld b

/-- PWR_SET commands to Run complete once every channel they wait for runs (R355). -/
def settleRun (b : Block) : Block :=
  let gone (e : Nat × List Nat) : Bool := e.2.all (fun n => chPower b n == .run)
  let ready := b.power.runWait.filter gone
  ready.foldl (fun b e => complete b e.1 cOkay 0)
    { b with power := { b.power with runWait := b.power.runWait.filter (fun e => !gone e) } }

/-- What follows a wake: latched aborts are delivered before a request is accepted, then the requests that waited go on
(R320, R366). -/
def afterWake (a : Arrays) (b : Block) : Block := settleRun (deliverLatched a b)

/-- A channel's entry has passed its commit point: a wake acts once it is complete (R359). -/
def committed (b : Block) (ch : Nat) : Bool :=
  match b.power.hs with
  | some h => !hsOpen h && (decide (3 ≤ h.target) || h.mask.contains ch)
  | none => false

/-- WAKE_COMPLETE. -/
def wakeComplete (a : Arrays) (b : Block) (u : WakeUnit) : Block :=
  match u with
  | .chan ch =>
    match b.power.waking.find? (fun e => e.1 == ch) with
    | none => b
    | some (_, src) => if committed b ch ∨ b.power.inst ≠ .on then b else afterWake a (runChan b ch src)
  | .inst =>
    match b.power.wakingInst with
    | none => b
    | some src =>
      if b.power.inst ≠ .on ∨ b.power.hs.any (fun h => !hsOpen h) = true then b
      else
        let l := (List.range b.build.channels).filter (fun c => chPower b c != .run)
        let b := setPower b (fun p => { p with ch := [], waking := [], wakingInst := none })
        let b := l.foldl (fun b n => setChan b n (fun c => { c with idleFrom := b.now })) b
        afterWake a (if l.isEmpty then b else wakeRecord b 3 0 (maskOfChans l) src)

/-- Channels of a list that do not run begin to return to Run (R366). -/
def wakeChans (b : Block) (l : List Nat) (src : Nat) : Block :=
  l.foldl (fun b n => match chPower b n with
    | .run => b
    | .idle => if committed b n then { b with power := { b.power with waking := tset b.power.waking n src } } else runChan b n src
    | .sleep => if b.power.waking.any (fun e => e.1 == n) then b
                else { b with power := { b.power with waking := b.power.waking ++ [(n, src)] } }) b

/-- WAKE_N (R369): low for 4 ticks. During an entry past its commit point it acts once the entry is complete (R359). -/
def wakePin (b : Block) : Block :=
  match b.power.inst with
  | .off => wakeOff b 5
  | .deep => wakeDeep b 5 true
  | .on =>
    match b.power.hs with
    | some h =>
      if hsOpen h = false ∧ 3 ≤ h.target then { b with power := { b.power with wakingInst := some 5 } }
      else wakeChans b (List.range b.build.channels) 5
    | none => wakeChans b (List.range b.build.channels) 5

/-! PWR_SET (R354, R364, R366, R372). -/

/-- Channels of a mask. -/
def chansOf (m : Nat) : List Nat := (List.range 8).filter (fun n => (m >>> n) % 2 = 1)

/-- The level of a channel's state, coded as PWR_STAT. -/
def levelOf (b : Block) (n : Nat) : Nat := (chPower b n).code

/-- A PWR_SET at its take. -/
def pwrSet (a : Arrays) (b : Block) (cmd state mask : Nat) : Block :=
  let b := match b.power.hs with
    | some h => if h.auto && hsOpen h then { b with power := { b.power with hs := none } } else b
    | none => b
  if b.power.hs.isSome then
    complete { b with power := { b.power with refuseReason := 9, refuseCh := 0 } } cmd cRefused 9
  else if state = 0 then
    let l := chansOf mask
    let b := wakeChans b l 4
    settleRun { b with power := { b.power with runWait := b.power.runWait ++ [(cmd, l)] } }
  else if state ≤ 2 then
    let l := (chansOf mask).filter (fun n => decide (levelOf b n < state))
    if l.isEmpty then complete b cmd cOkay 0 else startHs a b state l false (some cmd)
  else startHs a b state [] false (some cmd)

/-! The commands. -/

/-- IDLE_AFTER (R354). -/
def execIdleAfter (ch : Nat) (s : State) : Host.Outcome State Fault Refusal := guarded (chanOk s.blk ch) s (idleAfter s.arr s.blk ch)

/-- SLEEP_AFTER (R354). -/
def execSleepAfter (ch : Nat) (s : State) : Host.Outcome State Fault Refusal := guarded (chanOk s.blk ch) s (sleepAfter s.arr s.blk ch)

/-- HANDSHAKE_COMMIT (R355). -/
def execHandshakeCommit (s : State) : Host.Outcome State Fault Refusal := done s (hsCommit s.arr s.blk)

/-- HS_LIMIT (R363). -/
def execHsLimit (s : State) : Host.Outcome State Fault Refusal := done s (hsLimit s.blk)

/-- STATE_ENTRY_COMPLETE (R359). -/
def execStateEntryComplete (s : State) : Host.Outcome State Fault Refusal := done s (entryComplete s.blk)

/-- WAKE_COMPLETE (R366). -/
def execWakeComplete (u : WakeUnit) (s : State) : Host.Outcome State Fault Refusal :=
  guarded (match u with | .chan ch => chanOk s.blk ch | .inst => true) s (wakeComplete s.arr s.blk u)

/-- WAKE_N (R369). -/
def execWakeN (s : State) : Host.Outcome State Fault Refusal := done s (wakePin s.blk)

/-- OFF_ACK_TIMEOUT (R361). -/
def execOffAckTimeout (s : State) : Host.Outcome State Fault Refusal := done s (offAckTimeout s.blk)

/-- CAUSEWAY_DRAIN_END (R361). -/
def execCausewayDrainEnd (s : State) : Host.Outcome State Fault Refusal := done s (causewayDrainEnd s.blk)

end Sys2Proof.Machine
end

