-- ==== Sys2Proof/Machine/Mesh.lean ====
section
/-! DEFINITION. Messages of the mesh (R300 to R320, R361, R380): requests, write lines and responses between instances,
HELLO, the boot flood, aborts, routes and off plans. -/

namespace Sys2Proof.Machine

/-! Taking a message. -/

/-- The causeway works: it is powered and out of reset (R312, R362). -/
def cwLive (b : Block) : Bool := b.power.inst != .off && b.bring.pins &&& 6#3 == 0 && !b.safety.clkHeld

/-- Whether the message is for another instance and came by a peer port. -/
def isTransit (b : Block) (m : Msg) : Bool := decide (m.inp < 4) && decide (msgGoal m ≠ 64) && decide (m.dst ≠ b.cw.instNum)

/-- The first message with a property that stands at an input. -/
def headAt (b : Block) (i : CwIn) (p : Msg → Bool) : Option Msg :=
  match i with
  | .peer n => (linkOf b n).rx.find? p
  | .loc => b.cw.local_.find? (fun m => p m && decide (m.since ≤ b.now))

/-- A message leaves its input; its credits go back to the partner, but for HELLO (R298, log 27). -/
def takeMsg (b : Block) (i : CwIn) (m : Msg) : Block :=
  match i with
  | .peer n => setLink b n (fun l => { l with
      rx := l.rx.erase m, owed := if isHello m then l.owed else addVc l.owed (vcOf m.kind) m.len })
  | .loc => { b with cw := { b.cw with local_ := b.cw.local_.erase m } }

/-- The causeway can take the message: while it drains for Off it takes no new transit message (R361). -/
def takeable (b : Block) (m : Msg) : Bool := cwLive b && !(b.cw.stopTransit && isTransit b m)

/-- The message of a kind that an input shows at the head of its virtual channel. -/
def showing (b : Block) (i : CwIn) (k : MKind) : Option Msg :=
  (headAt b i (fun m => vcOf m.kind == vcOf k)).filter (fun m => m.kind == k && takeable b m)

/-- A worker's boot has yet to reach the step that takes messages of the pithead (R339). -/
def bootWaits (b : Block) : Bool := !b.cw.started && (b.bring.inReset || decide (b.bring.phase < 3))

/-- An image or START message is for this instance: by its number, or as a broadcast of its sender. -/
def forMe (b : Block) (m : Msg) : Bool := m.dst == b.cw.instNum || (m.bcast && m.dst == m.src)

/-- What an instance does with a boot control message on a port (R316, R317, R321). -/
inductive BootMsg where
  | transit | wait | drop | phase | take
  deriving DecidableEq, Repr

def bootMsg (b : Block) (n : Nat) (m : Msg) : BootMsg :=
  if m.bcast = false ∧ m.dst ≠ b.cw.instNum then .transit
  else if isPithead b then (if m.src = b.cw.instNum then .drop else .phase)
  else if b.cw.started then (if forMe b m then .phase else .drop)
  else if bootWaits b then .wait
  else if b.bring.phase = 15 then .drop
  else if b.cw.parent = some n ∨ b.cw.asking = true then (if forMe b m then .take else .drop)
  else if m.src = b.cw.pitheadInst ∧ b.cw.parent.isSome = true then .drop
  else if m.ctype = 3 then .phase else .drop

/-- A control message at an input waits for this instance: transit messages while it drains for Off (R361), and what a boot in progress or
a pithead without its image has yet to take. -/
def ctlWaits (b : Block) (i : CwIn) (m : Msg) : Bool :=
  !takeable b m || match m.ctype with
    | 2 => !isPithead b && bootWaits b
    | 3 | 4 | 6 => (match i with | .peer n => bootMsg b n m == .wait | .loc => false)
    | 10 => m.dst == b.cw.instNum && isPithead b && !isReady b
    | 12 => isPithead b && !(b.cw.imageReady && isReady b)
    | _ => false

/-- The control message of a type that an input shows: messages that wait for this instance let later ones pass, the others keep their
order (R298, log 51). -/
def showingCtl (b : Block) (i : CwIn) (t : Nat) : Option Msg :=
  (headAt b i (fun m => m.kind == .control && (m.ctype == t || !ctlWaits b i m))).filter (fun m => m.ctype == t && takeable b m)

/-! Responses (R300). -/

/-- A response message of this instance; it joins the causeway's local queue. -/
def respond (b : Block) (dst orig : Nat) (r : ReqBeat) (isRead : Bool) (line : Nat) (st : Status) (pm : WordMask) (coll last : Bool)
    (data : Option LineData) (since : Nat) : Block :=
  let h := r.id.toNat + st.code * 2 ^ 8 + r.shift.toNat * 2 ^ 12 + r.ctx.toNat * 2 ^ 20 + (dst % 64) * 2 ^ 26 + (b.cw.instNum % 64) * 2 ^ 32
    + (orig % 64) * 2 ^ 38 + (line % 512) * 2 ^ 44 + pm.toNat * 2 ^ 53 + (if coll then 2 ^ 69 else 0) + (if last then 2 ^ 70 else 0)
    + (if data.isSome then 2 ^ 71 else 0) + (if isRead then 0 else 2 ^ 76)
  let m : Msg := { kind := .response, hdr := BitVec.ofNat 128 h, be := none, data := data, since := since, inp := 4, seq := 0, chunk := 0 }
  { b with cw := { b.cw with local_ := b.cw.local_ ++ [m] } }

/-- The words of a line that a linear read asks for (R87, R94). -/
def wantedWords (x : Txn) (no : Nat) : WordMask :=
  if x.op = .rd then wordsOf (wordAny (rangeMask x.req ((reqLines x.req).getD no 0))) else 0xFFFF#16

/-- The lines of a read that have come back leave as response messages. -/
def sendLines (b : Block) (x : Txn) (inst orig : Nat) : Block :=
  let lines := (reqLines x.req).length
  let send := fun (acc : Block × Nat) (r : LineRes) =>
    let pm := if r.given.isSome then r.pm else r.pm &&& wantedWords x r.no
    let st := if r.given.isSome then r.st else if pm ≠ 0 then .poison else Status.okay
    let data := lineOf (fun k => if bit r.pm k then 0 else lineWord r.data k)
    (respond acc.1 inst orig x.req true r.no st pm (r.coll != 0) (decide (acc.2 + 1 = lines)) (some data) r.due, acc.2 + 1)
  let (b, n) := x.results.foldl send (b, x.beatsOut)
  if n = lines then retire b x
  else setTxn b x.uid (fun x => { x with results := [], beatsOut := n })

/-- The data of a descriptor read leaves in 128 B pieces, each when it is ready. -/
def sendPacked (b : Block) (x : Txn) (inst orig : Nat) : Nat → Block
  | 0 => b
  | fuel + 1 =>
    if beatReady b x then
      let t := nextBeat b x
      let b := respond b inst orig x.req true x.beatsOut t.st (t.pm.setWidth 16) t.coll t.last (some (t.data.setWidth 1024)) b.now
      if t.last then retire b x
      else
        let x := { x with beatsOut := x.beatsOut + 1 }
        sendPacked (setTxn b x.uid (fun _ => x)) x inst orig fuel
    else b

/-- What a request of another instance has to say by now goes into the local queue (R309, R384). A write is answered once
its data has come (R91, R502). -/
def flushOne (b : Block) (uid : Nat) : Block :=
  match txnOf b uid with
  | none => b
  | some x =>
    match x.org, x.phase with
    | .remote inst orig _, .answered st =>
      if x.op.hasData && !x.gotLast then b
      else retire (respond b inst orig x.req x.op.isRead x.beatsOut st 0 false true none (max x.due b.now)) x
    | .remote inst orig _, .active =>
      if x.op = .rd then (if x.results.isEmpty then b else sendLines b x inst orig)
      else if x.op.isRead then sendPacked b x inst orig 512
      else b
    | _, _ => b

/-- Every request of another instance is looked at. -/
def flushRemote (b : Block) : Block :=
  if b.txns.any (fun x => isRemote x.org) then (b.txns.map (fun x => x.uid)).foldl flushOne b else b

/-! Requests (R304, R305, R309). -/

/-- The payload of a request message: R81 without OP, and OP. -/
def reqOfMsg (m : Msg) : ReqBeat :=
  let f (lo len : Nat) : Nat := fld m.hdr lo len
  { id := BitVec.ofNat 8 (f 0 8), addr := BitVec.ofNat 48 (f 13 48), len := BitVec.ofNat 12 (f 61 12), aux := BitVec.ofNat 16 (f 73 16),
    cls := BitVec.ofNat 3 (f 89 3), qos := BitVec.ofNat 4 (f 92 4), ctx := BitVec.ofNat 6 (f 96 6), shift := BitVec.ofNat 8 (f 102 8),
    ff := bit m.hdr 110, wake := bit m.hdr 111 }

/-- The request message of a request of this instance (R300). -/
def msgOfReq (o : Op) (r : ReqBeat) (inst orig : Nat) : BitVec 128 :=
  BitVec.ofNat 128 (r.id.toNat + o.code * 2 ^ 8 + r.addr.toNat * 2 ^ 13 + r.len.toNat * 2 ^ 61 + r.aux.toNat * 2 ^ 73 + r.cls.toNat * 2 ^ 89
    + r.qos.toNat * 2 ^ 92 + r.ctx.toNat * 2 ^ 96 + r.shift.toNat * 2 ^ 102 + (if r.ff then 2 ^ 110 else 0) + (if r.wake then 2 ^ 111 else 0)
    + (inst % 64) * 2 ^ 112 + (orig % 64) * 2 ^ 118)

/-- ORIG of a port (R300). -/
def origOf (p : PortId) : Nat := p.ch * 8 + portCode p.port

/-- The verdict on a request of another instance: its local context, then its fields (R309, R98, R99). What passes is decoded in the next
cycle. -/
def judgeRemote (b : Block) (o : Option Op) (r : ReqBeat) : Option Status :=
  let c := ctxOf b r.ctx.toNat
  if isReady b = false ∨ c.state ≠ .open ∨ c.faulted = true then some .aborted
  else match o with
    | none => some .unsup
    | some o => if o = .fence ∨ o.isTally = true ∨ beatOk .X0 o r = false then some .unsup else none

/-- A request message reaches the bridge (R309, R312, R313, R366): it wakes the core, and is judged. -/
def deliverRequest (b : Block) (m : Msg) : Block :=
  let r := reqOfMsg m
  let op := opOfCode (fld m.hdr 8 5)
  match op, judgeRemote b op r with
  | none, st => respond b m.src m.orig r true 0 (st.getD .unsup) 0 false true none (b.now + 2)
  | some o, st =>
    let b := if isReady b && b.power.inst == .deep then wakeDeep b (if r.wake then 1 else 2) r.wake else b
    let uid := freshUid b
    let x := newTxn b uid (.remote m.src m.orig m.inp) o r
    let x := match st with | some st => { x with phase := .answered st, due := b.now + 2 } | none => x
    { b with serial := uid, txns := b.txns ++ [x] }

/-- No way to the destination (R305): the request is answered, and its write lines will be discarded. -/
def noRoute (b : Block) (m : Msg) : Block :=
  let b := { b with cw := { b.cw with
    noroute := satAdd 65535 b.cw.noroute 1, openCls := tset b.cw.openCls (openKey m.inp m.src m.orig) (9, 0) } }
  let r := reqOfMsg m
  if m.inp = 4 then
    match txnOf b m.uid with
    | some x => if x.phase = .active then answer b m.uid .noroute (b.now + 6) else b
    | none => b
  else respond b m.src m.orig r ((opOfCode (fld m.hdr 8 5)).any (fun o => o.isRead)) 0 .noroute 0 false true none b.now

/-- A response that is dropped is counted (R305, R312). -/
def dropRsp (b : Block) : Block := { b with cw := { b.cw with rspDropped := satAdd 65535 b.cw.rspDropped 1 } }

/-- A message for another instance goes on, or is treated as R305 says where no option is live: the write lines of a request that has been
answered NOROUTE are discarded, control messages too. -/
def routeOn (b : Block) (m : Msg) : Block :=
  if m.kind = .writeLine ∧ tget (0, 0) b.cw.openCls (openKey m.inp m.src m.orig) = (9, 0) then b
  else match routeMsg b m, m.kind with
    | (b, true), _ => b
    | (b, false), .request => noRoute b m
    | (b, false), .response => dropRsp b
    | (b, false), _ => b

/-- ROUTE_CHANGE_RELEASE (R307): the old port has nothing of the destination left, or is down. The messages that waited go on. -/
def routeRelease (b : Block) (d : Nat) : Block :=
  let old := tget 0 b.cw.changing d
  if old = 0 ∨ portBusy (linkOf b (old - 1)) d = true then b
  else
    let mine := b.cw.held.filter (fun e => e.1 == d)
    let b := { b with cw := { b.cw with changing := tset b.cw.changing d 0, held := b.cw.held.filter (fun e => e.1 != d) } }
    mine.foldl (fun b e => routeOn b e.2.2) b

/-! The output to the causeway local port (R304, R306). -/

/-- The heads of a virtual channel at the peer inputs that are for this instance. -/
def localHeads (b : Block) (vc : Nat) : List Msg :=
  (List.range b.build.peers).filterMap (fun n =>
    (headAt b (.peer n) (fun m => vcOf m.kind == vc)).filter (fun m => m.dst == b.cw.instNum && takeable b m))

/-- The request or write line that the local output grants next: behind responses, a request that has waited 4,096 cycles first, then class
0, higher QOS and round robin among the inputs. -/
def localNext (b : Block) : Option Msg :=
  let heads := localHeads b 0
  let rr (m : Msg) : Nat := (m.inp + 4 - b.cw.lastLocal % 5) % 5
  if (localHeads b 1).isEmpty = false then none
  else match leastBy (fun m => m.since) (heads.filter (fun m => m.kind == .request && decide (m.since + 4096 ≤ b.now))) with
    | some m => some m
    | none => leastBy (fun m => sendRank b m * 8 + rr m) heads

/-- The local output takes this message now. What this instance sends to itself does not pass it. -/
def localTurn (b : Block) (i : CwIn) (m : Msg) : Bool := match i with | .peer _ => localNext b == some m | .loc => true

/-- The message leaves its input for the local port. -/
def takeLocal (b : Block) (i : CwIn) (m : Msg) : Block :=
  let b := takeMsg b i m
  { b with cw := { b.cw with lastLocal := m.inp } }

/-- The class and QOS of an open request, for the write lines that follow it (R306). -/
def openReq (b : Block) (m : Msg) : Block :=
  { b with cw := { b.cw with openCls := tset b.cw.openCls (openKey m.inp m.src m.orig) (fld m.hdr 89 3, fld m.hdr 92 4) } }

/-- REQUEST_MESSAGE. -/
def requestMsg (b : Block) (i : CwIn) : Block :=
  match showing b i .request with
  | none => b
  | some m =>
    if m.dst = b.cw.instNum then
      (if b.bring.wipeHold ∨ b.safety.portsStopped = true ∨ localTurn b i m = false then b
       else deliverRequest (openReq (takeLocal b i m) m) m)
    else routeOn (openReq (takeMsg b i m) m) m

/-! Write lines. -/

/-- The open request a write line belongs to (R300). -/
def lineOwner (b : Block) (m : Msg) : Option Txn :=
  b.txns.find? (fun x => x.op.hasData && !x.gotLast && match x.org with
    | .remote i o _ => i == m.src && o == m.orig
    | .loc _ => false)

/-- A line joins its request, as a beat of 128 B (R89 to R91); `beatsOut` counts the lines that have come. -/
def joinLine (b : Block) (m : Msg) (x : Txn) : Block :=
  let k := x.beatsOut
  let last := bit m.hdr 52
  let order := decide (fld m.hdr 26 9 = k)
  let ends := match beatsDue x with | some e => (decide (k + 1 = e)) == last | none => true
  let b := if order && ends then b else if m.inp < 4 then violateMsg b m.inp 7 m else b
  let t : WBeat :=
    { data := (m.data.getD 0).setWidth 2048, be := (m.be.getD (BitVec.allOnes 128)).setWidth 256
      wpoison := BitVec.ofNat 32 (fld m.hdr 35 16), last := last }
  let b := setTxn b x.uid (fun x =>
    finishTxn (beatsWrong (takeBeat (beatsDue x) b.now t { x with beatsOut := k + 1, mismatch := x.mismatch || !order })))
  match x.phase with
  | .decodeHeld _ => if last then dropTxn b x.uid else b
  | _ => b

/-- WRITE_LINE. -/
def writeLineMsg (b : Block) (i : CwIn) : Block :=
  match showing b i .writeLine with
  | none => b
  | some m =>
    if m.dst ≠ b.cw.instNum then routeOn (takeMsg b i m) m
    else if localTurn b i m = false then b
    else
      let b := takeLocal b i m
      match lineOwner b m with
      | none => if m.inp < 4 then violateMsg b m.inp 7 m else b
      | some x => joinLine b m x

/-! Responses that arrive. -/

/-- A status of a response message (R96). -/
def statusOf (c : Nat) : Status :=
  ([.okay, .poison, .trap, .locked, .leaseLost, .broken, .canary, .asleep, .aborted, .unsup, .sumpErr, .noroute] : List Status).getD c .okay

/-- One line of a read has come back from another instance. -/
def peerLine (m : Msg) (line due : Nat) : LineRes :=
  let st := statusOf (fld m.hdr 8 4)
  let pm : WordMask := m.hdr.extractLsb' 53 16
  { no := fld m.hdr 44 9, data := m.data.getD 0, pm := pm, coll := if bit m.hdr 69 then 0xFFFF#16 else 0
    st := if st = .sumpErr ∨ st = .okay then st else .poison, due := due
    given := some (pm.setWidth 32 <<< (16 * (line % 2))) }

/-- A response for a request of this instance, after the shift test (R300, R380). -/
def matchResponse (b : Block) (m : Msg) (x : Txn) : Block :=
  let due := b.now + 5
  if bit m.hdr 71 = false then answer b x.uid (statusOf (fld m.hdr 8 4)) due
  else
    let x := { x with results := x.results ++ [peerLine m (localOf x.req.addr / 128 + fld m.hdr 44 9) due] }
    let x := if x.op ≠ .rd ∧ bit m.hdr 70 = true then { x with beats := fld m.hdr 44 9 * 128 / reqWidth x + 1 } else x
    setTxn b x.uid (fun _ => x)

/-- RESPONSE_MESSAGE (R304, R305, R312, R380). -/
def responseMsg (b : Block) (i : CwIn) : Block :=
  let b := match i with | .loc => flushRemote b | .peer _ => b
  match showing b i .response with
  | none => b
  | some m =>
    let b := takeMsg b i m
    if m.dst ≠ b.cw.instNum then routeOn b m
    else if isReady b = false then dropRsp b
    else if staleShift b (fld m.hdr 20 6) (m.hdr.extractLsb' 12 8) then dropResponse b (fld m.hdr 20 6)
    else match b.txns.find? (fun x => decide (x.org = .loc (portOfOrig m.orig)) && x.req.id == m.hdr.extractLsb' 0 8 && x.phase == .active
        && decide (instOf x.req.addr = m.src) && x.op.isRead == decide (fld m.hdr 76 2 = 0)) with
      | some x => matchResponse b m x
      | none => if m.inp < 4 then violateMsg b m.inp 11 m else b

/-! HELLO (R292). -/

/-- HELLO: the partner is accepted, or the port is held. -/
def helloIn (b : Block) (n : Nat) : Block :=
  match showingCtl b (.peer n) 1 with
  | none => b
  | some m =>
    let b := takeMsg b (.peer n) m
    let held (b : Block) : Block := loseLink (violateMsg b n 9 m) n .held
    match (linkOf b n).state with
    | .active => held b
    | .hello =>
      let b := setLink b n (fun l => { l with partner := m.src, partnerPort := fld m.hdr 21 2, partnerValid := true })
      let right := match expected b n with | some p => decide (p = m.src) | none => true
      if fld m.hdr 24 8 = 3 ∧ m.src ≠ b.cw.instNum ∧ right = true then
        tryActive (setLink b n (fun l => { l with helloGot := true })) n
      else held b
    | _ => b

/-! The boot flood (R315 to R317). -/

/-- The BEACON that came first, with its port; of those of one cycle the one of the lowest port (R315). -/
def firstBeacon (b : Block) : Option (Nat × Msg) :=
  leastBy (fun e => e.2.since * 4 + e.1) ((List.range b.build.peers).filterMap (fun n =>
    ((linkOf b n).rx.find? (fun m => m.kind == .control && m.ctype == 2)).map (fun m => (n, m))))

/-- BEACON at a worker: the first one's port becomes the parent, and it goes on to the other ports. -/
def takeBeacon (b : Block) (n : Nat) (m : Msg) : Block :=
  let b := { b with cw := { b.cw with parent := some n, pitheadInst := m.src, beaconHops := m.hops } }
  flood b (some n) (beaconMsg b)

/-- A strapped pithead that meets a lower number acts as a worker; one that has not declared itself ready waits for the
image of the other. -/
def demote (b : Block) : Block :=
  let b := { b with cw := { b.cw with demoted := true, imageReady := false } }
  if b.bring.phase = 4 then
    { b with bring := { b.bring with phase := 3 }, cw := { b.cw with started := false, imageOk := false, bootBytes := [] } }
  else b

/-- BEACON. -/
def beaconIn (b : Block) (n : Nat) : Block :=
  match showingCtl b (.peer n) 2 with
  | none => b
  | some m =>
    let took := takeMsg b (.peer n) m
    if isPithead b then (if m.src < b.cw.instNum then takeBeacon (demote took) n m else took)
    else if bootWaits b then b
    else if b.cw.parent.isSome then (if b.cw.started then violateMsg took n 10 m else took)
    else if b.cw.started then violateMsg took n 10 m
    else let (p, f) := (firstBeacon b).getD (n, m); takeBeacon took p f

/-- A flooded message goes on down the boot tree. -/
def passDown (b : Block) (n : Nat) (m : Msg) : Block :=
  if m.bcast ∧ b.cw.parent = some n then flood b (some n) m else b

/-- A boot control message is routed, waits, is discarded, or is taken and handled by `f`. -/
def onBootMsg (b : Block) (n t : Nat) (f : Block → Msg → Block) : Block :=
  match showingCtl b (.peer n) t with
  | none => b
  | some m =>
    let took := takeMsg b (.peer n) m
    match bootMsg b n m with
    | .wait => b
    | .transit => routeCtl took m
    | .drop => passDown took n m
    | .phase => violateMsg (passDown took n m) n 10 m
    | .take =>
      let b := passDown took n m
      let b := if b.cw.asking then { b with cw := { b.cw with pitheadInst := m.src } } else b
      f b m

/-- IMAGE: the bytes are kept. -/
def keepImage (b : Block) (m : Msg) : Block :=
  if b.cw.imageOk then b
  else { b with cw := { b.cw with bootBytes := tset b.cw.bootBytes (fld m.hdr 21 24 / 128) (m.data.getD 0) } }

/-- The bytes kept, if all of `len` have come. -/
def imageBytes (b : Block) (len : Nat) : Option (List Byte) :=
  let l := (List.range ((len + 127) / 128)).map (fun k => (b.cw.bootBytes.find? (fun e => e.1 == k)).map (fun e => e.2))
  if l.all (fun d => d.isSome) then some ((l.flatMap (fun d => bytesOfLine (d.getD 0))).take len) else none

/-- IMAGE_ACK goes toward the pithead; without a parent it leaves by the port that the image came by. -/
def sendAck (b : Block) (n : Nat) (ok : Bool) : Block :=
  let m := ctlMsg b 5 b.cw.pitheadInst false ((if ok then 2 ^ 21 else 0) + (if b.cw.pitheadSel then 2 ^ 22 else 0))
  if b.cw.parent.isNone && !b.cw.routes then sendTo b n m else towardPithead b m

/-- The image that an IMAGE_END closes, if its LENGTH and CHECK hold (R316). -/
def wholeImage (b : Block) (m : Msg) : Option (List Byte) :=
  (imageBytes b (fld m.hdr 21 25)).filter (fun l => (crc32c l).toNat == fld m.hdr 46 32)

/-- IMAGE_END: LENGTH and CHECK, and the answer. -/
def endImage (b : Block) (n : Nat) (m : Msg) : Block :=
  if b.cw.imageOk then b
  else
    match wholeImage b m with
    | some l => sendAck { b with bring := { b.bring with store := packStore b l }, cw := { b.cw with imageOk := true, bootBytes := [] } } n true
    | none =>
      let b := sendAck { b with cw := { b.cw with bootBytes := [] } } n false
      let q := ctlMsg b 12 b.cw.pitheadInst true 0
      if b.cw.parent.isNone then sendTo b n q else towardPithead b q

/-- IMAGE_END with the arrays: a store that comes whole is written to them (R332). -/
def imageEndIn (a : Arrays) (b : Block) (n : Nat) : Arrays × Block :=
  let c := onBootMsg b n 4 (fun b m => endImage b n m)
  (if c.cw.imageOk = true ∧ b.cw.imageOk = false then writeStore a c c.bring.store else a, c)

/-- START: GO = 1 begins step 5 of the boot, GO = 0 leaves the worker in step 4 (R316, R339). -/
def startWorker (b : Block) (m : Msg) : Block :=
  if bit m.hdr 21 && b.cw.imageOk then bootLoad { b with cw := { b.cw with asking := false } } else b

/-! The pithead's answers (R316, R317). -/

/-- The records of the image in the store. -/
def storeRecs (b : Block) : List ImgRec := (imageRecs b.bring.store).getD []

/-- An instance that has a routing table, or had one when it went off, is reached by ROUTEd. -/
def byRoute (b : Block) (i : Nat) : Bool := b.cw.sentStart.contains i || b.cw.offGranted.contains i

/-- A message from the pithead (R301). -/
def fromPithead (b : Block) (i : Nat) (m : Bool → Msg) : Block :=
  if byRoute b i then routeCtl b (m false) else flood b none (m true)

def sendStart (b : Block) (i : Nat) (go : Bool) : Block :=
  fromPithead b i (fun bc => ctlMsg b 6 i bc (if go then 2 ^ 21 else 0))

/-- ROUTE_SET to a receiver (R301). -/
def sendRouteSet (b : Block) (receiver d v : Nat) : Block := routeCtl b (ctlMsg b 8 receiver false (v % 65536 * 2 ^ 21 + d % 64 * 2 ^ 37))

/-- The base entries of the image go to every instance that the off plan of `i` changed (R317). -/
def restoreRoutes (b : Block) (i : Nat) : Block :=
  let rs := storeRecs b
  (offPlanOf rs i).foldl (fun b e => sendRouteSet b e.1 e.2.1 (routeIn rs e.1 e.2.1)) b

/-- A worker's acknowledgement at the pithead, which answers each with START. DESIGN CHOICE (log 93): GO = 0 for one with OK = 0. -/
def takeAckMsg (b : Block) (m : Msg) : Block :=
  let s := m.src
  if bit m.hdr 21 = false then sendStart b s false
  else if s = b.cw.instNum ∨ b.cw.acked.contains s = true then
    flood (emit b 0x45 none none (put 0 6 s)) none (ctlMsg b 6 s true 0)
  else
    let b := { b with cw := { b.cw with
      acked := b.cw.acked ++ [s], heard := if b.cw.heard.contains s then b.cw.heard else b.cw.heard ++ [s] } }
    let b := if bit m.hdr 22 then emit b 0x46 none none (put 0 6 s) else b
    let b := restoreRoutes (sendStart b s true) s
    { b with cw := { b.cw with
        offGranted := b.cw.offGranted.filter (fun i => i != s)
        sentStart := if b.cw.sentStart.contains s then b.cw.sentStart else b.cw.sentStart ++ [s] } }

/-- IMAGE_ACK. -/
def imageAckIn (b : Block) (i : CwIn) : Block :=
  match showingCtl b i 5 with
  | none => b
  | some m =>
    let b := takeMsg b i m
    if m.dst ≠ b.cw.instNum then towardPithead b m else if isPithead b then takeAckMsg b m else b

/-- The core wakes to Sleep for a control message that its pithead serves (R369). -/
def wakeServe (b : Block) : Block := if b.power.inst = .deep then wakeDeep b 7 false else b

/-- The image goes to one instance again. -/
def resendImage (b : Block) (i : Nat) : Block :=
  let b := { b with cw := { b.cw with acked := b.cw.acked.filter (fun k => k != i) } }
  if byRoute b i then (imageMsgs b i false).foldl routeCtl b else (imageMsgs b i true).foldl (fun b m => flood b none m) b

/-- BOOT_REQ. -/
def bootReqIn (b : Block) (n : Nat) : Block :=
  match showingCtl b (.peer n) 12 with
  | none => b
  | some m =>
    if isPithead b then
      (if b.cw.imageReady && isReady b then resendImage (wakeServe (takeMsg b (.peer n) m)) m.src else b)
    else
      let m' := { m with hdr := putHdr (putHdr m.hdr 10 6 b.cw.pitheadInst) 16 1 0 }
      let b := takeMsg b (.peer n) m
      if m.bcast = false ∧ m.dst ≠ b.cw.instNum then towardPithead b m else towardPithead b m'

/-- WORKER_MISSING (R316): 80 ms after the pithead's reset release. -/
def workerMissing (b : Block) (i : Nat) : Block :=
  if isPithead b && b.cw.imageReady && (meshOf (storeRecs b)).contains i && !b.cw.heard.contains i && i != b.cw.instNum
      && !b.cw.missing.contains i && usDue b b.bring.releasedUs 80000
  then emit { b with cw := { b.cw with missing := b.cw.missing ++ [i] } } 0x47 none none (put 0 6 i) else b

/-! Aborts (R319, R320). -/

/-- ABORT. -/
def abortIn (a : Arrays) (b : Block) (n : Nat) : Block :=
  match showingCtl b (.peer n) 7 with
  | none => b
  | some m =>
    let b := takeMsg b (.peer n) m
    let seq := fld m.hdr 67 8
    if (tget [] b.cw.seen m.src).contains seq then b
    else
      let b := noteSeen b m.src seq
      let b := flood { b with cw := { b.cw with aborts := satAdd 65535 b.cw.aborts 1 } } (some n) m
      deliverAbort a b (BitVec.ofNat 32 (fld m.hdr 21 32)) (BitVec.ofNat 14 (fld m.hdr 53 14)) m.src seq none

/-! Routes and off plans (R307, R314, R361). -/

/-- ROUTE_SET. -/
def routeSetIn (b : Block) (i : CwIn) : Block :=
  match showingCtl b i 8 with
  | none => b
  | some m =>
    let b := takeMsg b i m
    if m.dst ≠ b.cw.instNum then routeCtl b m
    else
      let b := writeRoute b (fld m.hdr 37 6) (fld m.hdr 21 16)
      routeCtl b (ctlMsg b 9 m.src false 0)

/-- The answer to OFF_REQ. -/
def sendOffAck (b : Block) (i : Nat) (granted : Bool) : Block :=
  let b := { b with cw := { b.cw with offPlans := b.cw.offPlans.filter (fun p => p.inst != i) } }
  let b := if granted && !b.cw.offGranted.contains i then { b with cw := { b.cw with offGranted := b.cw.offGranted ++ [i] } } else b
  routeCtl b (ctlMsg b 11 i false (if granted then 2 ^ 21 else 0))

/-- ROUTE_ACK: it counts toward the oldest plan that waits for its sender. -/
def routeAckIn (b : Block) (i : CwIn) : Block :=
  match showingCtl b i 9 with
  | none => b
  | some m =>
    let b := takeMsg b i m
    if m.dst ≠ b.cw.instNum then routeCtl b m
    else match b.cw.offPlans.find? (fun p => p.waiting.contains m.src) with
      | none => b
      | some p =>
        let p' := { p with waiting := p.waiting.erase m.src }
        let b := { b with cw := { b.cw with offPlans := b.cw.offPlans.map (fun q => if q = p then p' else q) } }
        if p'.waiting.isEmpty then sendOffAck b p.inst true else b

/-- The pithead carries out the off plan of an instance. -/
def startOffPlan (b : Block) (i : Nat) : Block :=
  let rs := storeRecs b
  let others := (meshOf rs).filter (fun k => k != b.cw.instNum)
  if i = b.cw.instNum ∧ others.any (fun k => !b.cw.offGranted.contains k) = true then sendOffAck b i false
  else
    let plan := offPlanOf rs i
    if plan.isEmpty then sendOffAck b i true
    else
      let p : OffPlan := { inst := i, waiting := plan.map (fun e => e.1), fromUs := usNow b }
      let b := { b with cw := { b.cw with offPlans := b.cw.offPlans.filter (fun q => q.inst != i) ++ [p] } }
      plan.foldl (fun b e => sendRouteSet b e.1 e.2.1 e.2.2) b

/-- OFF_REQ. -/
def offReqIn (b : Block) (i : CwIn) : Block :=
  match showingCtl b i 10 with
  | none => b
  | some m =>
    if m.dst ≠ b.cw.instNum then routeCtl (takeMsg b i m) m
    else if isPithead b = false then takeMsg b i m
    else if isReady b then startOffPlan (wakeServe (takeMsg b i m)) m.src
    else b

/-- OFF_ACK. -/
def offAckIn (b : Block) (i : CwIn) : Block :=
  match showingCtl b i 11 with
  | none => b
  | some m =>
    let b := takeMsg b i m
    if m.dst ≠ b.cw.instNum then routeCtl b m else offAnswer b (bit m.hdr 21)

/-- OFF_PLAN_TIMEOUT: 10 ms. -/
def offPlanTimeout (b : Block) : Block :=
  (b.cw.offPlans.filter (fun p => usDue b p.fromUs 10000)).foldl (fun b p => sendOffAck b p.inst false) b

/-! The commands. -/

/-- An input of the causeway that the build has. -/
def cwInOk (b : Block) (i : CwIn) : Bool := match i with | .peer n => peerOk b n | .loc => true

/-- REQUEST_MESSAGE (R304). -/
def execRequestMessage (i : CwIn) (s : State) : Host.Outcome State Fault Refusal :=
  guarded (cwInOk s.blk i) s (requestMsg s.blk i)

/-- WRITE_LINE (R300). -/
def execWriteLine (i : CwIn) (s : State) : Host.Outcome State Fault Refusal :=
  guarded (cwInOk s.blk i) s (writeLineMsg s.blk i)

/-- RESPONSE_MESSAGE (R380). -/
def execResponseMessage (i : CwIn) (s : State) : Host.Outcome State Fault Refusal :=
  guarded (cwInOk s.blk i) s (responseMsg s.blk i)

/-- HELLO (R292). -/
def execHello (n : Nat) (s : State) : Host.Outcome State Fault Refusal := guarded (peerOk s.blk n) s (helloIn s.blk n)

/-- BEACON (R315). -/
def execBeacon (n : Nat) (s : State) : Host.Outcome State Fault Refusal := guarded (peerOk s.blk n) s (beaconIn s.blk n)

/-- IMAGE (R316). -/
def execImage (n : Nat) (s : State) : Host.Outcome State Fault Refusal := guarded (peerOk s.blk n) s (onBootMsg s.blk n 3 keepImage)

/-- IMAGE_END (R316). -/
def execImageEnd (n : Nat) (s : State) : Host.Outcome State Fault Refusal :=
  guardedArr (peerOk s.blk n) s (imageEndIn s.arr s.blk n)

/-- IMAGE_ACK (R316). -/
def execImageAck (i : CwIn) (s : State) : Host.Outcome State Fault Refusal := guarded (cwInOk s.blk i) s (imageAckIn s.blk i)

/-- START (R316). -/
def execStart (n : Nat) (s : State) : Host.Outcome State Fault Refusal :=
  guarded (peerOk s.blk n) s (onBootMsg s.blk n 6 (startWorker))

/-- ABORT (R319). -/
def execAbort (n : Nat) (s : State) : Host.Outcome State Fault Refusal := guarded (peerOk s.blk n) s (abortIn s.arr s.blk n)

/-- ROUTE_SET (R307). -/
def execRouteSet (i : CwIn) (s : State) : Host.Outcome State Fault Refusal := guarded (cwInOk s.blk i) s (routeSetIn s.blk i)

/-- ROUTE_ACK (R314). -/
def execRouteAck (i : CwIn) (s : State) : Host.Outcome State Fault Refusal := guarded (cwInOk s.blk i) s (routeAckIn s.blk i)

/-- OFF_REQ (R314). -/
def execOffReq (i : CwIn) (s : State) : Host.Outcome State Fault Refusal := guarded (cwInOk s.blk i) s (offReqIn s.blk i)

/-- OFF_ACK (R361). -/
def execOffAck (i : CwIn) (s : State) : Host.Outcome State Fault Refusal := guarded (cwInOk s.blk i) s (offAckIn s.blk i)

/-- BOOT_REQ (R317). -/
def execBootReq (n : Nat) (s : State) : Host.Outcome State Fault Refusal := guarded (peerOk s.blk n) s (bootReqIn s.blk n)

/-- OFF_PLAN_TIMEOUT (R314). -/
def execOffPlanTimeout (s : State) : Host.Outcome State Fault Refusal := done s (offPlanTimeout s.blk)

/-- WORKER_MISSING (R316). -/
def execWorkerMissing (inst : Nat) (s : State) : Host.Outcome State Fault Refusal := done s (workerMissing s.blk inst)

/-- ROUTE_CHANGE_RELEASE (R307). -/
def execRouteChangeRelease (d : Nat) (s : State) : Host.Outcome State Fault Refusal := done s (routeRelease s.blk d)

/-- What a link command does while the causeway works. -/
def onLink (b : Block) (f : Block → Block) : Block := if cwLive b then f b else b

/-- TRAINING_COMPLETE (R291). -/
def execTrainingComplete (n : Nat) (t : Trained) (s : State) : Host.Outcome State Fault Refusal :=
  guarded (peerOk s.blk n) s (onLink s.blk (fun b => trainingDone b n t))

/-- TRAINING_ATTEMPT_TIMEOUT (R291). -/
def execTrainingAttemptTimeout (n : Nat) (s : State) : Host.Outcome State Fault Refusal :=
  guarded (peerOk s.blk n) s (onLink s.blk (fun b => trainingTimeout b n))

/-- PARTNER_TRAINING (R291). -/
def execPartnerTraining (n : Nat) (s : State) : Host.Outcome State Fault Refusal :=
  guarded (peerOk s.blk n) s (onLink s.blk (fun b => partnerTrains b n))

/-- LINK_RETRY (R291). -/
def execLinkRetry (n : Nat) (s : State) : Host.Outcome State Fault Refusal :=
  guarded (peerOk s.blk n) s (onLink s.blk (fun b => linkRetry b n))

/-- LINK_ERROR (R293). -/
def execLinkError (n : Nat) (s : State) : Host.Outcome State Fault Refusal :=
  guarded (peerOk s.blk n) s (onLink s.blk (fun b => startRetrain b n))

/-- RETRAIN_END (R293). -/
def execRetrainEnd (n : Nat) (t : Trained) (s : State) : Host.Outcome State Fault Refusal :=
  guarded (peerOk s.blk n) s (onLink s.blk (fun b => retrainEnd b n t))

/-- FLIT_RECEIVE (R299). -/
def execFlitReceive (n : Nat) (f : Flit) (s : State) : Host.Outcome State Fault Refusal :=
  guarded (peerOk s.blk n) s (onLink s.blk (fun b => flitIn b n f))

/-- NAK (R299). -/
def execNak (n : Nat) (f : Flit) (s : State) : Host.Outcome State Fault Refusal :=
  guarded (peerOk s.blk n) s (onLink s.blk (fun b => nakIn b n f))

/-- REPLAY_TIMEOUT (R299). -/
def execReplayTimeout (n : Nat) (s : State) : Host.Outcome State Fault Refusal :=
  guarded (peerOk s.blk n) s (onLink s.blk (fun b => replayTimeout b n))

/-- FLIT_SEND (R306). -/
def execFlitSend (n : Nat) (s : State) : Host.Outcome State Fault Refusal :=
  guarded (peerOk s.blk n) s (onLink s.blk (fun b => flitOut b n))

end Sys2Proof.Machine
end

