-- ==== Sys2Proof/Machine/Paths.lean ====
section
/-! DEFINITION. The shared target paths (R111 to R116, R197, R198, R205): the choice among waiting transfers, and what passes
behind each path. -/

namespace Sys2Proof.Machine

/-- The request a transfer belongs to; the block's own writes belong to none. -/
def Xfer.uid (x : Xfer) : Option Nat :=
  match x.payload with
  | .lines (op :: _) => some op.uid
  | .sump u | .inst u | .desc u | .tally u => some u
  | _ => none

/-- A transfer goes behind an earlier one at its path: of its own request (R197), or off the chip of a request of its port whose
order its target keeps (R279, R310). -/
def goesBehind (b : Block) (x y : Xfer) : Bool :=
  decide (y.uid = x.uid) || match x.payload, y.payload with
    | .sump u, .sump v | .inst u, .inst v => match txnOf b u, txnOf b v with
      | some t, some r => keepOrder b t r
      | _, _ => false
    | _, _ => false
def xferFirst (b : Block) (x : Xfer) : Bool :=
  !b.xfers.any (fun y => decide (y.path = x.path) && decide (y.serial < x.serial) && x.uid.isSome && goesBehind b x y)

/-- The channel a path leads into or through. -/
def pathChan (p : PathId) : Option Nat :=
  match p with | .spine c _ | .x0e c | .brX0 c => some c | _ => none

/-- The path carries beats: its clock runs, and its channel is not frozen (R42, R392). The outputs of the bridge towards S0 and the
causeway run when something waits there, which restarts the bridge (R367, R433). -/
def pathRuns (b : Block) (p : PathId) : Bool :=
  b.power.inst == .on && !b.bring.inReset && !b.safety.clkHeld
    && !(match pathChan p with | some c => chFrozen b c || !portsRun b c | none => false)

/-- The rank of a waiting transfer, lowest first (R112, R198, R205): owned class 0, forced wins, then QOS; round robin after
the last grantee. -/
def xferRank (b : Block) (last : Option Nat) (x : Xfer) : Nat :=
  let rr := (x.src + 15 - last.getD 15) % 16
  let key (g k : Nat) : Nat := (((g * 8192 + k) * 16 + rr) <<< 64) + x.serial
  if xferOwned b x then key 0 0
  else if starveForces b && decide (starveLimit b ≤ xferWait b x) then key 1 (8191 - min 8191 (xferWait b x))
  else key 2 (15 - rankQos x.cls x.qos)

/-- A background beat that follows the one beat that its request was granted in the cycle before belongs to that grant (R197). -/
def pathNext (b : Block) (p : PathId) : Option Xfer :=
  let st := pathOf b p
  if st.freeAt = b.now ∧ st.cont.isSome = true then
    ((pathXfers b p).filter (xferFirst b)).find? (fun x => x.uid == st.cont && x.beats == 1 && decide (x.readyAt ≤ b.now))
  else none

/-- The transfer that passes in this cycle (R113): the one that goes on with a grant; else the best of those a decision has been
made among, which stood waiting in an earlier cycle; else, of those that arrive now, the winner if the path is parked on its
source. -/
def pathPick (b : Block) (p : PathId) : Option Xfer :=
  let st := pathOf b p
  if b.now < st.freeAt ∨ pathRuns b p = false then none
  else
    let l := (pathXfers b p).filter (xferFirst b)
    let best (l : List Xfer) : Option Xfer := leastBy (xferRank b st.last) l
    match pathNext b p, best (l.filter (fun x => decide (x.readyAt + 1 ≤ b.now))) with
    | some x, _ => some x
    | none, some x => some x
    | none, none => (best (l.filter (fun x => decide (x.readyAt = b.now)))).filter (fun x => st.last == some x.src)

/-! What leaves for another instance (R300). -/

/-- The data of a request of this instance in pieces of 128 B: data, enables, poison. -/
def outPieces (x : Txn) : List (LineData × LineMask × WordMask) :=
  let w := reqWidth x
  if x.op.isRange then (reqLines x.req).map (lineOfBeats w x.req x.wbeats)
  else (List.range (x.wbeats.length * w / 128)).map (fun k =>
    match x.wbeats[k * 128 / w]? with
    | some t => (t.data.extractLsb' (8 * (k * 128 % w)) 1024, BitVec.allOnes 128, t.wpoison.extractLsb' (k * 128 % w / 8) 16)
    | none => (0, BitVec.allOnes 128, 0))

/-- The request message and the write lines of a request. -/
def outMsgs (b : Block) (x : Txn) : List Msg :=
  let orig := match x.org with | .loc p => origOf p | .remote _ o _ => o
  let since := b.now + 2
  let m (k : MKind) (h : BitVec 128) (be : Option (BitVec 128)) (d : Option LineData) : Msg :=
    { kind := k, hdr := h, be := be, data := d, since := since, inp := 4, seq := 0, chunk := 0, uid := x.uid }
  let pieces := if x.op.hasData then outPieces x else []
  m .request (msgOfReq x.op x.req b.cw.instNum orig) none none :: pieces.zipIdx.map (fun e =>
    let (d, be, wp) := e.1
    let part := decide (be ≠ BitVec.allOnes 128)
    let h := x.req.id.toNat + (b.cw.instNum % 64) * 2 ^ 8 + (orig % 64) * 2 ^ 14 + instOf x.req.addr * 2 ^ 20 + (e.2 % 512) * 2 ^ 26
      + wp.toNat * 2 ^ 35 + (if part then 2 ^ 51 else 0) + (if e.2 + 1 = pieces.length then 2 ^ 52 else 0)
    m .writeLine (BitVec.ofNat 128 h) (if part then some be else none) (some d))

/-- A request's last transfer has passed the bridge output to the causeway: it stands at the causeway local port. -/
def instArrive (b : Block) (uid : Nat) : Block :=
  match txnOf b uid with
  | none => b
  | some x => if x.phase = .active then { b with cw := { b.cw with local_ := b.cw.local_ ++ outMsgs b x } } else b

/-! Behind a path. -/

/-- Transfers of a request still on their way over shared paths. -/
def moreOf (b : Block) (u : Option Nat) : Bool := u.isSome && b.xfers.any (fun y => decide (y.uid = u))

/-- The transfer goes on to its next path, two cycles later, with the source of the bridge: its channel. Two class-0 beats
of a request make one beat to the causeway, whose beats hold 4 lines. -/
def passOn (b : Block) (x : Xfer) (ch : Nat) (next : PathId) (rest : List PathId) : Block :=
  let y : Xfer :=
    { x with path := next, rest := rest, src := ch, readyAt := b.now + 2, waited := xferWait b x
             beats := if next = .brCw then (x.beats + 1) / 2 else x.beats }
  let left := (b.xfers.filter (fun z => decide (z.path = x.path) && decide (z.uid = x.uid))).length
  if next = .brCw ∧ x.cls = 0 ∧ left % 2 = 1 then b else { b with xfers := b.xfers ++ [y] }

/-- Lines of a transfer that is granted in this cycle pass, two in a cycle and none before it has come; they carry the transfer's wait
count on (R202). A beat with one line of a linear request leaves its mark for the other (R111). -/
def linesPast (b : Block) (x : Xfer) (ops : List LineOp) (past : Block → LineOp → Nat → Block) : Block :=
  let b := ops.zipIdx.foldl (fun b e =>
    past b { e.1 with waited := xferWait b x, reported := x.reported } (max (b.now + e.2 / 2) e.1.readyAt)) b
  match ops with
  | [op] => if op.desc then b else setTxn b op.uid (fun t => { t with half := t.half ++ [(x.path, pairAt x.path op)] })
  | _ => b

/-- What a granted transfer does behind its path; it has left the path's queue. -/
def passed (b : Block) (x : Xfer) : Block :=
  match x.path, x.payload with
  | .spine _ _, .lines ops => linesPast b x ops pastSpine
  | .spine _ _, .tally uid => match txnOf b uid with
    | some t => tallyReach b t (b.now + 2)
    | none => b
  | .x0e ch, .lines ops => linesPast b x ops (fun b op at_ => pastEgress b ch op at_)
  | .x0e ch, _ => match x.rest with
    | p :: rest => passOn b x ch p rest
    | [] => b
  | .brX0 _, .lines ops => linesPast b x ops pastBridge
  | .brX0 _, .tally uid => match txnOf b uid with
    | some t => tallySpine b t 8 (b.now + 3)
    | none => b
  | .brX0 ch, .desc uid => match txnOf b uid with
    | some t => if t.phase = .active then queueDesc b t ch (b.now + 2) else b
    | none => b
  | .brS0, .sump uid => if moreOf b (some uid) then b else sumpArrive b uid
  | .brS0, .record seq => { b with sump := { b.sump with queue := b.sump.queue ++ [s0Record b seq] } }
  | .brS0, .doorbell => { b with sump := { b.sump with queue := b.sump.queue ++ [s0Doorbell b] } }
  | .brCw, .inst uid => if moreOf b (some uid) then b else instArrive b uid
  | _, _ => b

/-- The transfer with the parking cycle it waited, if it arrived at the idle path while that was parked on another source (R113,
R114). -/
def parked (b : Block) (st : PathSt) (x : Xfer) : Xfer :=
  if x.readyAt + 1 = b.now ∧ st.freeAt ≤ x.readyAt ∧ st.last ≠ some x.src then
    match x.payload with
    | .lines l => { x with payload := .lines (l.map (fun op => { op with park := op.park + 1 })) }
    | _ => x
  else x

/-- PATH_GRANT: a grant covers every beat of the transfer, and the path parks on its source (R112, R113). A single background beat
keeps the grant for a second one (R197). -/
def pathGrant (b : Block) (p : PathId) : Block :=
  match pathPick b p with
  | none => b
  | some x =>
    let st := pathOf b p
    let more := (pathNext b p).isNone && x.cls != 0 && x.beats == 1
    let b := { b with xfers := b.xfers.filter (fun y => y.serial != x.serial || decide (y.path ≠ x.path)) }
    passed (setPath b p { st with last := some x.src, freeAt := b.now + max 1 x.beats, cont := if more then x.uid else none }) (parked b st x)

/-- PATH_GRANT (R112). -/
def execPathGrant (p : PathId) (s : State) : Host.Outcome State Fault Refusal :=
  guarded (pathOk s.blk p) s (pathGrant s.blk p)

end Sys2Proof.Machine
end

