-- ==== Sys2Proof/Machine/SafetyCtl.lean ====
section
/-! DEFINITION. The safety controller and the configuration scrub (R411 to R418): lockstep, heartbeat, the two clock
monitors, and the comparison of the configuration registers with the sequencer's copy. -/

namespace Sys2Proof.Machine

/-! Lockstep and heartbeat (R412 to R414). -/

/-- The debug window holds the cores halted. -/
def coresHalted (b : Block) : Bool := debugOpen b && b.dbg.halt

/-- The Aplery cores run on a good clock. -/
def coresClocked (b : Block) : Bool := !b.bring.inReset && b.power.inst == .on && !b.safety.clkHeld

/-- A bit of SAFETY_STAT. -/
def raiseFlag (b : Block) (k : Nat) : Block := { b with safety := { b.safety with flags := b.safety.flags ||| (1#6 <<< k) } }

/-- A reaction of the safety controller is counted. -/
def countFault (b : Block) : Block := { b with safety := { b.safety with faults := satAdd 255 b.safety.faults 1 } }

/-- An instance reset that the safety controller starts (R412): aborts, reset without the drain, a warm boot. -/
def safetyReset (a : Arrays) (b : Block) (cause : Nat) : Block :=
  let b := if b.recov.draining.isSome then b else emit b 0x64 none none (put 0 4 cause)
  releaseCore (dropCore a { b with bring := { b.bring with dumpPending := b.bring.dumpPending || isPithead b } })

/-- PWR_CYCLE_REQ without a dump (R413, R415, R416). -/
def powerCycleNow (b : Block) : Block := { b with recov := { b.recov with lastLevel := 4, pwrCycleReq := true } }

/-- LOCKSTEP. -/
def lockstep (a : Arrays) (b : Block) (mem : Bool) : Block :=
  if coresClocked b = false then b
  else
    let b := raiseFlag (emit b 0x70 none none (putBit 0 mem)) 0
    if coresHalted b then b
    else if b.safety.lockstepReact then powerCycleNow (countFault b) else safetyReset a (countFault b) 4

/-- The heartbeat monitor is armed (R414). -/
def beatArmed (b : Block) : Bool := isReady b && coresClocked b && b.safety.heartbeatMs != 0 && !coresHalted b

/-- HEARTBEAT. -/
def heartbeat (a : Arrays) (b : Block) : Block :=
  if beatArmed b && usDue b b.safety.lastBeat (b.safety.heartbeatMs * 1000) then
    safetyReset a (countFault (raiseFlag (emit b 0x71 none none b.safety.lastBeatTime) 1)) 5
  else b

/-- HEARTBEAT_WRITE: the timer starts anew. -/
def heartbeatWritten (b : Block) : Block :=
  if isReady b then { b with safety := { b.safety with lastBeat := usNow b, lastBeatTime := b.time.ns } } else b

/-- While the monitor is disarmed its timer does not run. -/
def beatTimer (b : Block) : Block :=
  if isReady b && !beatArmed b then { b with safety := { b.safety with lastBeat := usNow b } } else b

/-! The CLK_ROOT monitor (R415). -/

/-- The count of a window is a fault. Before ready the thresholds are those of 4,000 and 5,000 MHz. -/
def windowBad (b : Block) (n : Nat) : Bool :=
  let mhz := b.safety.rootMhz
  let (lo, hi) := if isReady b then (mhz * 15 / 128 - 1, mhz * 65 / 512 + 1) else (467, 635)
  decide (hi < n) || decide (n < lo)

/-- A fault: the record, the abort outputs without ABORT flits, and both resets held. -/
def clkFault (b : Block) (n : Nat) : Block :=
  let pairs := jobPairs b
  let b := countFault (raiseFlag (emit b 0x72 none none (put 16 16 n)) 2)
  let gap : List (Option (BitVec 32 × BitVec 14)) :=
    if pairs.isEmpty || (b.recov.abortOut.isEmpty && b.recov.abortNow.isNone) then [] else [none]
  let out := b.recov.abortOut ++ gap ++ pairs.map some
  let now_ := b.recov.abortNow
  let auto := bit b.regs.recovCtl 3
  let b := resetCauseway (assertCore b)
  { b with
    recov := { b.recov with abortOut := out, abortNow := now_ }
    safety := { b.safety with clkHeld := true, good := 0, faultUs := usNow b, faultPwr := auto } }

/-- CLK_ROOT_WINDOW: 100 good windows in a row release the causeway and then the instance. -/
def clkWindow (b : Block) (n : Nat) : Block :=
  if b.power.inst ≠ .on then b
  else if b.safety.clkHeld then
    (if windowBad b n then { b with safety := { b.safety with good := 0 } }
     else if b.safety.good + 1 < 100 then { b with safety := { b.safety with good := b.safety.good + 1 } }
     else releaseCore (resetCauseway { b with safety := { b.safety with clkHeld := false, good := 0 } }))
  else if windowBad b n then clkFault b n else b

/-- CLOCK_FAULT_TIMEOUT: 1 s. -/
def clkTimeout (b : Block) : Block :=
  if b.safety.clkHeld && b.safety.faultPwr && usDue b b.safety.faultUs 1000000 then powerCycleNow b else b

/-! The REF_AON monitor (R416). -/

/-- REF_AON_FAULT: REF_AON ticks in N0 CLK_CTL cycles; 0 stands for a missing edge too. -/
def refFault (b : Block) (n : Nat) : Block :=
  if coresClocked b && (decide (n < 98) || decide (102 < n)) then
    let b := countFault (raiseFlag (emit b 0x72 none none (putBit 0 true ||| put 16 16 n)) 3)
    powerCycleNow { b with safety := { b.safety with portsStopped := true } }
  else b

/-! The configuration scrub (R418). -/

/-- A register has been rewritten. -/
def cfgFixed (b : Block) (off : Nat) (found v : Word) : Block :=
  let b := raiseFlag { b with safety := { b.safety with cfgFixes := satAdd 65535 b.safety.cfgFixes 1 } } 4
  emit b 0x73 none none (put 0 20 off) found v

/-- SEAMn_W0 and W1 against the copy. -/
def scrubSeam (b : Block) (n : Nat) : Block :=
  let s := seamOf b n
  let (w0, w1) := tget (seamReg Seam.init 0, seamReg Seam.init 1) b.safety.seamCopy n
  let fix (b : Block) : Block := setSeam b n (fun s => { parseSeam w0 w1 s.owners with
    sumpInvalid := s.sumpInvalid, clearing := s.clearing, fill := s.fill })
  let b := if seamReg s 0 = w0 then b else cfgFixed (fix b) (0x4000 + 32 * n) (seamReg s 0) w0
  if seamReg s 1 = w1 then b else cfgFixed (fix b) (0x4008 + 32 * n) (seamReg s 1) w1

/-- A list without repeats. -/
def distinct : List Nat → List Nat
  | [] => []
  | x :: l => if l.contains x then distinct l else x :: distinct l

/-- The roster words of a channel that differ from the copy; word w holds the entries 8w to 8w + 7. -/
def badRosterWords (b : Block) (ch : Nat) : List Nat :=
  let copy := (b.arb.copy.filter (fun e => e.1 / 8192 == ch)).map (fun e => e.1 % 8192)
  let keys := (chan b ch).roster.map (fun e => e.1) ++ copy
  distinct ((keys.filter (fun k => tget 0x80 (chan b ch).roster k != tget 0x80 b.arb.copy (ch * 8192 + k))).map (fun k => k / 8))

/-- A roster word rewritten. -/
def scrubRoster (b : Block) (ch w : Nat) : Block :=
  let keys := (List.range 8).map (fun i => 8 * w + i)
  let vals := keys.map (fun k => (k, tget 0x80 b.arb.copy (ch * 8192 + k)))
  let word (l : List Nat) : Word := BitVec.ofNat 64 (l.foldr (fun v a => a * 256 + v % 256) 0)
  let found := word (keys.map (fun k => tget 0x80 (chan b ch).roster k))
  let b := setChan b ch (fun c => { c with
    roster := vals ++ c.roster.filter (fun e => !keys.contains e.1), rosterBad := c.rosterBad.filter (fun k => !keys.contains k) })
  cfgFixed b (0x12000 + ch * 0x10000 + 8 * w) found (word (vals.map (fun v => v.2)))

/-- ROUTEd against the copy. -/
def scrubRoute (b : Block) (d : Nat) : Block :=
  let v := tget 0 b.cw.route d
  let w := tget 0 b.safety.routeCopy d
  if v = w then b else cfgFixed (writeRoute b d w) (0x90400 + 8 * d) (BitVec.ofNat 64 v) (BitVec.ofNat 64 w)

/-- Every register of R418 in address order. -/
def scrubAll (b : Block) : Block :=
  let b := (List.range 256).foldl scrubSeam b
  let b := (List.range b.build.channels).foldl (fun b ch => (badRosterWords b ch).foldl (fun b w => scrubRoster b ch w) b) b
  let b := (List.range 64).foldl scrubRoute b
  if b.cw.nbr = b.safety.nbrCopy then b
  else cfgFixed { b with cw := { b.cw with nbr := b.safety.nbrCopy } } 0x90010 b.cw.nbr b.safety.nbrCopy

/-- CFG_SCRUB: every CFG_SCRUB_MS, not while a command runs. -/
def cfgScrub (b : Block) : Block :=
  if isReady b && coresClocked b && !coresHalted b && b.cmdq.running.isEmpty && usDue b b.safety.scrubUs (b.safety.scrubMs * 1000)
  then scrubAll { b with safety := { b.safety with scrubUs := usNow b } } else b

/-! The commands. -/

/-- LOCKSTEP (R413). -/
def execLockstep (mem : Bool) (s : State) : Host.Outcome State Fault Refusal := done s (lockstep s.arr s.blk mem)

/-- HEARTBEAT (R414). -/
def execHeartbeat (s : State) : Host.Outcome State Fault Refusal := done s (heartbeat s.arr s.blk)

/-- HEARTBEAT_WRITE (R414). -/
def execHeartbeatWrite (s : State) : Host.Outcome State Fault Refusal := done s (heartbeatWritten s.blk)

/-- CLK_ROOT_WINDOW (R415). -/
def execClkRootWindow (count : Nat) (s : State) : Host.Outcome State Fault Refusal := done s (clkWindow s.blk count)

/-- CLOCK_FAULT_TIMEOUT (R415). -/
def execClockFaultTimeout (s : State) : Host.Outcome State Fault Refusal := done s (clkTimeout s.blk)

/-- REF_AON_FAULT (R416). -/
def execRefAonFault (count : Nat) (s : State) : Host.Outcome State Fault Refusal := done s (refFault s.blk count)

/-- CFG_SCRUB (R418). -/
def execCfgScrub (s : State) : Host.Outcome State Fault Refusal := done s (cfgScrub s.blk)

end Sys2Proof.Machine
end

