-- ==== Sys2Proof/Machine/CmdQueue.lean ====
section
/-! DEFINITION. The command queue (R480 to R488): the take of a command, its checks, and what every management command does,
with the completions that wait. -/

namespace Sys2Proof.Machine

/-! The take (R481 to R484, R486). -/

/-- The parameter bits of DW0, P1 and P2 that an OPC names; none for a reserved OPC (R483). -/
def opcMask (opc : Nat) : Option (Word × Word × Word) :=
  match opc with
  | 0x00 | 0x01 | 0x02 | 0x32 | 0x33 => some (0, 0, 0)
  | 0x03 => some (maskOf 32 3, 0, 0)
  | 0x08 => some (maskOf 32 9 ||| maskOf 44 12, maskOf 0 64, 0)
  | 0x09 | 0x0A | 0x18 | 0x19 => some (maskOf 32 8, 0, 0)
  | 0x10 => some (maskOf 32 6, maskOf 0 46, 0)
  | 0x11 | 0x12 => some (maskOf 32 6 ||| maskOf 40 1, 0, 0)
  | 0x13 => some (0, maskOf 0 46, 0)
  | 0x1A => some (maskOf 32 3 ||| maskOf 40 1, 0, 0)
  | 0x1B | 0x28 => some (maskOf 32 1, 0, 0)
  | 0x1C => some (maskOf 32 3 ||| maskOf 40 6, 0, 0)
  | 0x20 => some (maskOf 32 3 ||| maskOf 40 8, 0, 0)
  | 0x30 => some (maskOf 32 2, 0, 0)
  | 0x31 => some (0, maskOf 0 42, maskOf 0 25)
  | _ => none

/-- Every channel of a mask is built. -/
def maskBuilt (b : Block) (m : Nat) : Bool := decide (m < 2 ^ b.build.channels)

/-- The rules of R484 that depend on the values of parameters. -/
def paramsOk (b : Block) (t : Taken) : Bool :=
  let p (lo len : Nat) : Nat := fld t.dw0 lo len
  match p 0 8 with
  | 0x08 => bit t.dw0 40 || p 44 12 == 0
  | 0x18 | 0x19 => p 32 8 != 0 && maskBuilt b (p 32 8)
  | 0x1A | 0x1C => chanOk b (p 32 3)
  | 0x20 => decide (p 32 3 ≤ 4) && maskBuilt b (p 40 8) && (if p 32 3 ≤ 2 then p 40 8 != 0 else p 40 8 == 0)
  | 0x31 =>
    let a := fld t.dw1 0 42
    let l := fld t.dw2 0 25
    a % 128 == 0 && decide (128 ≤ l) && decide (l ≤ 16777216) && l % 16 == 0 && decide (Config.sumpBase ≤ a) && decide (a + l ≤ Config.localEnd)
  | _ => true

/-- A command is well formed (R484). -/
def cmdOk (b : Block) (t : Taken) (dw3 : Word) : Bool :=
  match opcMask (fld t.dw0 0 8) with
  | none => false
  | some (m0, m1, m2) =>
    (t.dw0 &&& ~~~(m0 ||| 0xFFFF00FF#64)) == 0 && (t.dw1 &&& ~~~m1) == 0 && (t.dw2 &&& ~~~m2) == 0 && dw3 == 0 && paramsOk b t

/-- The queue is open and the cores can take a command (R338, R477, R486). -/
def canTake (b : Block) : Bool :=
  let q := b.cmdq
  isReady b && coresClocked b && !coresHalted b && q.head != q.tail && decide ((q.head - q.cplTail).toNat < 64)

/-- Doubleword j of the slot at CMDQ_HEAD. -/
def headDw (b : Block) (j : Nat) : Word := tget 0 b.cmdq.slots (b.cmdq.head.toNat % 64 * 4 + j)

/-- A command is taken: CMDQ_HEAD advances, and a malformed command completes at once; `f` starts the others. -/
def takeCmd (b : Block) (is : Nat → Bool) (f : Block → Nat → Taken → Block) : Block :=
  if canTake b && is (fld (headDw b 0) 0 8) then
    let t : Taken := { idx := b.cmdq.head, dw0 := headDw b 0, dw1 := headDw b 1, dw2 := headDw b 2 }
    let ok := cmdOk b t (headDw b 3)
    let b := { b with cmdq := { b.cmdq with head := b.cmdq.head + 1, running := b.cmdq.running ++ [t] } }
    if ok then f b t.idx.toNat t else complete b t.idx.toNat cMalformed 0
  else b

/-- The take of the command with this OPC. -/
def takeOpc (b : Block) (opc : Nat) (f : Block → Nat → Taken → Block) : Block := takeCmd b (fun o => o == opc) f

/-! Privileged commands (R342). -/

/-- A privileged refusal: its record and its completion. -/
def privRefuse (b : Block) (idx : Nat) (t : Taken) (reason : Nat) : Block :=
  complete (emit b 0x51 none none (put 0 8 (fld t.dw0 0 8) ||| put 8 3 reason)) idx cRefused reason

/-- A further command of these runs: LC_ADVANCE, NVM_WRITE, DUMP_ERASE, or a sequence on N0 (R487). -/
def nvmBusy (b : Block) (idx : Nat) : Bool :=
  b.bring.nvmSeq.isSome || b.cmdq.running.any (fun t => t.idx.toNat != idx && [0x30, 0x31, 0x33].contains (fld t.dw0 0 8))

/-! Seams (R54, R55, R66, R67, R271, R285). -/

/-- An earlier SEAM_ASSIGN, SEAM_RELEASE or SUMP_VALIDATE of the seam runs. -/
def seamBusy (b : Block) (idx n : Nat) : Bool :=
  b.cmdq.running.any (fun t => t.idx.toNat != idx && [8, 9, 10].contains (fld t.dw0 0 8) && fld t.dw0 32 8 == n)

/-- The checks that SEAM_ASSIGN and SEAM_RELEASE share: the seam, privilege on a SECURE seam, then an earlier command. -/
def onSeam (b : Block) (idx : Nat) (t : Taken) (f : Block → Nat → Block) : Block :=
  let n := fld t.dw0 32 8
  let s := seamOf b n
  if s.valid = false then complete b idx cRefused rState
  else if s.secure ∧ present b = false then privRefuse b idx t rPresence
  else if s.secure ∧ (b.bring.tamper = true ∨ b.bring.wiping = true) then privRefuse b idx t rTamper
  else if seamBusy b idx n then complete b idx cRefused rBusy
  else f b n

/-- The clearing of a re-seeded seam begins (R67): in a ZMAP seam its tags do it, and only merge entries have to drain. -/
def startClear (a : Arrays) (b : Block) (n : Nat) : Block :=
  if (seamOf b n).zmap then (List.range b.build.channels).foldl (fun b ch => drainWhere a b ch (fun e => e.seam == n)) b
  else zeroSeam a b .clear n

/-- SEAM_ASSIGN. -/
def seamAssign (a : Arrays) (b : Block) (idx : Nat) (t : Taken) : Block :=
  onSeam b idx t (fun b n =>
    let s := seamOf b n
    if bit t.dw0 40 then
      if s.owners ≠ 0 then complete b idx cRefused rState
      else
        let seed := fld t.dw0 44 12
        if s.sump then complete (copySeams (setSeam b n (fun s => { s with seed := seed, owners := t.dw1 }))) idx cOkay 0
        else startClear a (copySeams (setSeam b n (fun s => { s with seed := seed, clearing := true }))) n
    else complete (setSeam b n (fun s => { s with owners := s.owners ||| t.dw1 })) idx cOkay 0)

/-- The running command of an OPC on a seam. -/
def seamCmd (b : Block) (opc n : Nat) : Option Taken :=
  b.cmdq.running.find? (fun t => fld t.dw0 0 8 == opc && fld t.dw0 32 8 == n)

/-- SEED_CLEAR_DONE (R67): the seam is cleared, and gets its owners. -/
def seedClearDone (a : Arrays) (b : Block) (n : Nat) : Arrays × Block :=
  match seamCmd b 8 n with
  | none => (a, b)
  | some t =>
    if (seamOf b n).clearing && seamZeroed b n then
      let (a, b) := clearTags a b n
      (a, complete (setSeam b n (fun s => { s with clearing := false, owners := t.dw1 })) t.idx.toNat cOkay 0)
    else (a, b)

/-- SEAM_RELEASE: the owner set is emptied at the take. -/
def seamRelease (b : Block) (idx : Nat) (t : Taken) : Block :=
  onSeam b idx t (fun b n => setSeam b n (fun s => { s with owners := 0 }))

/-- A request decoded into the seam has yet to return its response (R54): its own bytes or pointer, or what its descriptor
reaches. -/
def seamInUse (b : Block) (n : Nat) : Bool :=
  b.txns.any (fun x => decide (x.seam = some n)) || b.descs.any (fun d =>
    let at_ (byte : Nat) : Bool := (seamAt b.seams (byte / 128)).any (fun e => e.1 == n)
    if d.lane = 8 then d.stage != .queued && d.stage != .fetching && (at_ (gatherOf d.desc).ibase || at_ (gatherOf d.desc).tbase)
    else d.plan.any (fun p => at_ (p.line * 128)))

/-- SEAM_RELEASE_COMPLETE (R54, R266): the marks of the seam are cleared. -/
def seamReleased (b : Block) (n : Nat) : Block :=
  match seamCmd b 9 n with
  | none => b
  | some t =>
    if seamInUse b n then b
    else
      let s := seamOf b n
      let mine (m : Mark) : Bool := decide (seamLo s ≤ m.line * 128) && decide (m.line * 128 < seamHi s)
      complete { b with marks := b.marks.filter (fun m => !mine m) } t.idx.toNat cOkay 0

/-- SUMP_VALIDATE (R285, R487). -/
def sumpValidate (b : Block) (idx : Nat) (t : Taken) : Block :=
  let n := fld t.dw0 32 8
  let s := seamOf b n
  if s.valid = false ∨ s.sump = false then complete b idx cRefused rState
  else if seamBusy b idx n then complete b idx cRefused rBusy
  else if s.sumpInvalid then complete (setSeam b n (fun s => { s with sumpInvalid := false, fill := seamHi s })) idx cOkay 0
  else complete b idx cOkay 0

/-! Rosters and steps (R216, R217, R404). -/

/-- ROSTER_SELECT. -/
def rosterSelect (b : Block) (idx : Nat) (t : Taken) : Block :=
  let r := fld t.dw0 32 2
  if selectable b r then complete (selectRoster b r (bit t.dw0 34)) idx cOkay 0 else complete b idx cRefused rNotAdmitted

/-! Contexts (R376, R387). -/

/-- CTX_OPEN. -/
def ctxOpenTaken (b : Block) (idx : Nat) (t : Taken) : Block :=
  ctxOpenCmd b idx (fld t.dw0 32 6) (BitVec.ofNat 32 (fld t.dw1 0 32)) (BitVec.ofNat 14 (fld t.dw1 32 14))

/-- CTX_RESET and CTX_CLOSE. -/
def ctxResetTaken (a : Arrays) (close : Bool) (b : Block) (idx : Nat) (t : Taken) : Block :=
  ctxReset a b (fld t.dw0 32 6) (bit t.dw0 40) close (some idx)

/-- JOB_ABORT. -/
def jobAbort (a : Arrays) (b : Block) (idx : Nat) (t : Taken) : Block :=
  startAborts a b [(BitVec.ofNat 32 (fld t.dw1 0 32), BitVec.ofNat 14 (fld t.dw1 32 14))] (some idx)

/-! Stopping channels (R402, R487). -/

/-- CH_STOP: the channels return to Run and hold new requests. -/
def chStop (a : Arrays) (b : Block) (idx : Nat) (t : Taken) : Block :=
  let l := chansOf (fld t.dw0 32 8)
  let b := wakeChans b l 4
  drainAsked a { b with recov := { b.recov with stopWait := b.recov.stopWait ++ [(idx, l)] } } l

/-- A channel that runs, is not in recovery and holds no outstanding work; held tallies do not count. -/
def chSettled (b : Block) (n : Nat) : Bool :=
  (chan b n).recov.isNone && chPower b n == .run && !(conds b n).delays

/-- CH_STOP_DONE. -/
def chStopDone (b : Block) : Block :=
  let ends (e : Nat × List Nat) : Bool := e.2.all (chSettled b)
  (b.recov.stopWait.filter ends).foldl (fun b e =>
    complete (e.2.foldl (fun b n => setChan b n (fun c => { c with stopped := true })) b) e.1 cOkay 0)
    { b with recov := { b.recov with stopWait := b.recov.stopWait.filter (fun e => !ends e) } }

/-- CH_START: a CH_STOP of one of the channels that is not complete ends REFUSED. -/
def chStart (b : Block) (idx : Nat) (t : Taken) : Block :=
  let l := chansOf (fld t.dw0 32 8)
  let meets (e : Nat × List Nat) : Bool := e.2.any (fun n => l.contains n)
  let b := (b.recov.stopWait.filter meets).foldl (fun b e => complete b e.1 cRefused rBusy)
    { b with recov := { b.recov with stopWait := b.recov.stopWait.filter (fun e => !meets e) } }
  let b := l.foldl (fun b n => if (chan b n).stopped then setChan b n (fun c => { c with stopped := false, idleFrom := b.now }) else b) b
  complete b idx cOkay 0

/-! Life cycle, NVM and debug (R342, R344, R347 to R349). -/

/-- LC_ADVANCE. -/
def lcAdvance (a : Arrays) (b : Block) (idx : Nat) (t : Taken) : Block :=
  let target := fld t.dw0 32 2
  if present b = false then privRefuse b idx t rPresence
  else if target ≤ b.bring.lcState then privRefuse b idx t rLifecycle
  else if nvmBusy b idx then complete b idx cRefused rBusy
  else
    let b := startWipe a b 0
    { b with bring := { b.bring with wipeCmd := some idx, wipeTarget := target } }

/-- The image breaks a rule of R327 or R331. -/
def imageRefused (b : Block) (img : List Byte) : Bool :=
  headerCause b.bring.lcState img != 0 || recordsRefused b img

/-- NVM_WRITE: `img` is what its reads through S0 returned, `err` whether one met SUMP_ERR. -/
def nvmWrite (level : BitVec 8) (img : List Byte) (err : Bool) (b : Block) (idx : Nat) (t : Taken) : Block :=
  if present b = false then privRefuse b idx t rPresence
  else if b.bring.lcState = 3 then privRefuse b idx t rLifecycle
  else if isPithead b = false then privRefuse b idx t rNotPithead
  else if nvmBusy b idx then complete b idx cRefused rBusy
  else if err = true ∨ imageRefused b (img.take (fld t.dw2 0 25)) = true then complete b idx cRefused rImage
  else match holdupOk b level with
    | (b, true) => { b with bring := { b.bring with nvmSeq := some (0, some idx) } }
    | (b, false) => privRefuse (deferNvm b 0) idx t rHoldup

/-- DUMP_ERASE. -/
def dumpErase (level : BitVec 8) (b : Block) (idx : Nat) (t : Taken) : Block :=
  if present b = false then privRefuse b idx t rPresence
  else if isPithead b = false then privRefuse b idx t rNotPithead
  else if nvmBusy b idx then complete b idx cRefused rBusy
  else match holdupOk b level with
    | (b, true) => { b with bring := { b.bring with nvmSeq := some (1, some idx) } }
    | (b, false) => privRefuse (deferNvm b 1) idx t rHoldup

/-- DEBUG_UNLOCK. -/
def debugUnlock (b : Block) (idx : Nat) (t : Taken) : Block :=
  if present b = false then privRefuse b idx t rPresence
  else if b.bring.lcState = 1 ∨ b.bring.lcState = 2 then
    complete { b with bring := { b.bring with unlocked := true } } idx cOkay 0
  else privRefuse b idx t rLifecycle

/-! The commands. A take may free or hold requests: every outstanding request is looked at again. -/

/-- NOP (R483); a reserved OPC is taken here, and is MALFORMED. -/
def execNop (s : State) : Host.Outcome State Fault Refusal :=
  done s (takeCmd s.blk (fun o => o == 0 || (opcMask o).isNone) (fun b i _ => complete b i cOkay 0))

/-- APPLY (R404). -/
def execApply (s : State) : Host.Outcome State Fault Refusal :=
  done s (takeOpc s.blk 0x01 (fun b i _ => complete (applyShadow b) i cOkay 0))

/-- STEP_MARK (R216). -/
def execStepMark (s : State) : Host.Outcome State Fault Refusal :=
  done s (takeOpc s.blk 0x02 (fun b i _ => complete (stepBoundary b) i cOkay 0))

/-- ROSTER_SELECT (R217). -/
def execRosterSelect (s : State) : Host.Outcome State Fault Refusal := done s (takeOpc s.blk 0x03 rosterSelect)

/-- SEAM_ASSIGN (R54). -/
def execSeamAssign (s : State) : Host.Outcome State Fault Refusal := done s (takeOpc s.blk 0x08 (seamAssign s.arr))

/-- SEAM_RELEASE (R54). -/
def execSeamRelease (s : State) : Host.Outcome State Fault Refusal := done s (takeOpc s.blk 0x09 seamRelease)

/-- SUMP_VALIDATE (R285). -/
def execSumpValidate (s : State) : Host.Outcome State Fault Refusal := done s (takeOpc s.blk 0x0A sumpValidate)

/-- CTX_OPEN (R376). -/
def execCtxOpen (s : State) : Host.Outcome State Fault Refusal := done s (takeOpc s.blk 0x10 ctxOpenTaken)

/-- CTX_RESET (R376). -/
def execCtxReset (s : State) : Host.Outcome State Fault Refusal :=
  done s (takeOpc s.blk 0x11 (ctxResetTaken s.arr false))

/-- CTX_CLOSE (R376). -/
def execCtxClose (s : State) : Host.Outcome State Fault Refusal :=
  done s (takeOpc s.blk 0x12 (ctxResetTaken s.arr true))

/-- JOB_ABORT (R387). -/
def execJobAbort (s : State) : Host.Outcome State Fault Refusal := done s (takeOpc s.blk 0x13 (jobAbort s.arr))

/-- CH_STOP (R402). -/
def execChStop (s : State) : Host.Outcome State Fault Refusal := done s (takeOpc s.blk 0x18 (chStop s.arr))

/-- CH_START (R402). -/
def execChStart (s : State) : Host.Outcome State Fault Refusal := done s (takeOpc s.blk 0x19 chStart)

/-- CH_RESET (R395). -/
def execChReset (s : State) : Host.Outcome State Fault Refusal :=
  done s (takeOpc s.blk 0x1A (fun b i t => chResetCmd b i (fld t.dw0 32 3) (bit t.dw0 40)))

/-- INST_RESET (R398): it never completes. -/
def execInstReset (s : State) : Host.Outcome State Fault Refusal :=
  done s (takeOpc s.blk 0x1B (fun b _ t => startInstReset s.arr b 1 (bit t.dw0 32)))

/-- BANK_RETIRE (R244, R245). -/
def execBankRetire (s : State) : Host.Outcome State Fault Refusal :=
  done s (takeOpc s.blk 0x1C (fun b i t => retireTrigger s.arr b (fld t.dw0 32 3) (fld t.dw0 40 6) (some i)))

/-- PWR_SET (R355). -/
def execPwrSet (s : State) : Host.Outcome State Fault Refusal :=
  done s (takeOpc s.blk 0x20 (fun b i t => pwrSet s.arr b i (fld t.dw0 32 3) (fld t.dw0 40 8)))

/-- SOUNDING (R460, R461). -/
def execSounding (s : State) : Host.Outcome State Fault Refusal :=
  done s (takeOpc s.blk 0x28 (fun b i t => soundingCmd b i (bit t.dw0 32)))

/-- LC_ADVANCE (R344). -/
def execLcAdvance (s : State) : Host.Outcome State Fault Refusal := done s (takeOpc s.blk 0x30 (lcAdvance s.arr))

/-- NVM_WRITE (R349). -/
def execNvmWrite (level : BitVec 8) (image : List Byte) (readError : Bool) (s : State) : Host.Outcome State Fault Refusal :=
  done s (takeOpc s.blk 0x31 (nvmWrite level image readError))

/-- DEBUG_UNLOCK (R342). -/
def execDebugUnlock (s : State) : Host.Outcome State Fault Refusal := done s (takeOpc s.blk 0x32 debugUnlock)

/-- DUMP_ERASE (R342). -/
def execDumpErase (level : BitVec 8) (s : State) : Host.Outcome State Fault Refusal := done s (takeOpc s.blk 0x33 (dumpErase level))

/-- SEAM_RELEASE_COMPLETE (R54). -/
def execSeamReleaseComplete (seam : Nat) (s : State) : Host.Outcome State Fault Refusal := done s (seamReleased s.blk seam)

/-- SEED_CLEAR_DONE (R67). -/
def execSeedClearDone (seam : Nat) (s : State) : Host.Outcome State Fault Refusal := doneArr s (seedClearDone s.arr s.blk seam)

/-- CH_STOP_DONE (R402). -/
def execChStopDone (s : State) : Host.Outcome State Fault Refusal := done s (chStopDone s.blk)

end Sys2Proof.Machine
end

