-- ==== Sys2Proof/Machine/G0.lean ====
section
/-! DEFINITION. G0 (R466 to R472, R477): one write and one read of the register space, and the rows of the table that are
writes and reads of named registers. -/

namespace Sys2Proof.Machine

/-- G0 takes requests (R471): not while the instance is in reset, in boot step 1, in Off, or without a clock. -/
def g0Open (b : Block) : Bool := !b.bring.inReset && b.bring.phase != 0 && b.power.inst != .off && !b.safety.clkHeld

/-- A request in Deep sleep first wakes the instance to Sleep (R369, R470). -/
def g0Wake (b : Block) : Block :=
  match b.power.inst with
  | .deep => wakeDeep b 3 false
  | _ => b

/-- A response of G0 (R469): RDATA is 0 where the status is not OKAY. -/
def respond0 (b : Block) (status : Nat) (v : Word) : Block :=
  { b with g0 := some { rdata := if status = 0 then v else 0, status := status } }

/-- A request whose PAR fails (R419, R469): one PATH_PARITY record of unit 9 and port 14, and ERROR. -/
def parityError (b : Block) (off : Nat) : Block :=
  respond0 (emit b 0x74 none none (put 0 8 9 ||| put 8 4 14 ||| put 20 17 (off / 8))) 3 0

/-- The offset lies in the debug window. -/
def inWindow (off : Nat) : Bool := decide (0xC0000 ≤ off)

/-- A write that G0 takes (R467, R468, R471, R472, R477): the status, and what it changes. -/
def writeTaken (b : Block) (off : Nat) (v : Word) : Block :=
  if inWindow off && !debugOpen b then respond0 b 1 0
  else if (regAt b off).isNone then respond0 b 2 0
  else if isReady b = false then respond0 b 1 0
  else
    let r := writeReg b off (w1cTaken b off v)
    respond0 r.1 (if r.2 then 0 else 1) 0

/-- A write on G0 of offset `off`, whose PAR holds if `ok`. -/
def g0Write (b : Block) (off : Nat) (v : Word) (ok : Bool) : Block :=
  if g0Open b = false then b
  else
    let b := g0Wake b
    if ok then writeTaken b off v else parityError b off

/-- The addresses that step on a read of their data register (R440, R459, R478). -/
def stepAddress (b : Block) (off : Nat) : Block :=
  match off with
  | 0x0240 => { b with rlog := { b.rlog with addr := (b.rlog.addr + 1) % 8192 } }
  | 0xA2140 => stepTrcRdata b
  | 0xC0018 => { b with dbg := stepDbg b.dbg }
  | _ => b

/-- A read that G0 takes (R467, R468, R477). -/
def readTaken (b : Block) (off : Nat) : Block :=
  if inWindow off && !debugOpen b then respond0 b 1 0
  else match regAt b off with
    | none => respond0 b 2 0
    | some v => stepAddress (respond0 b 0 v) off

/-- A read on G0 of offset `off`, whose PAR holds if `ok`. -/
def g0ReadAt (b : Block) (off : Nat) (ok : Bool) : Block :=
  if g0Open b = false then b
  else
    let b := g0Wake b
    if ok then readTaken b off else parityError b off

/-- The offset that ADDR carries: bits [19:3] (R469). -/
def g0Offset (off : Nat) : Nat := off % 0x100000 / 8 * 8

/-- The offset of a peer port's register (R466). -/
def peerOff (n off : Nat) : Nat := 0x91000 + n * 0x1000 + off

/-- The writes and reads of the table. -/
def regRow (s : State) (off : Nat) (v : Word) : Host.Outcome State Fault Refusal := done s (g0Write s.blk off v true)
/-- A write of a channel's register: the map has eight channel blocks, and the ones of channels the build lacks are unmapped (R466,
R467). -/
def chanRow (s : State) (ch off : Nat) (v : Word) : Host.Outcome State Fault Refusal :=
  guarded (decide (ch < 8)) s (g0Write s.blk (chOff ch off) v true)
/-- A write of a peer port's control register: the map has four peer blocks (R466, R489). -/
def peerCtl (s : State) (n : Nat) (v : Word) : Host.Outcome State Fault Refusal :=
  guarded (decide (n < 4)) s (g0Write s.blk (peerOff n 8) v true)
/-- The same with DISABLE as it stands. -/
def peerRow (s : State) (n : Nat) (v : Word) : Host.Outcome State Fault Refusal := peerCtl s n (v ||| putBit 2 (linkOf s.blk n).disable)

/-- CMDQ_TAIL (R481). -/
def execCmdqTail (v : Word) (s : State) : Host.Outcome State Fault Refusal := regRow s 0x0300 v

/-- CPL_TAIL (R481). -/
def execCplTail (v : Word) (s : State) : Host.Outcome State Fault Refusal := regRow s 0x0318 v

/-- EVT_TAIL (R432). -/
def execEvtTail (v : Word) (s : State) : Host.Outcome State Fault Refusal := regRow s 0x0218 v

/-- EVT_ENABLE (R430): EVT_CTL with EN = 1. -/
def execEvtEnable (v : Word) (s : State) : Host.Outcome State Fault Refusal := regRow s 0x0208 (v ||| 1#64)

/-- EVT_DISABLE (R430): EVT_CTL with EN = 0. -/
def execEvtDisable (v : Word) (s : State) : Host.Outcome State Fault Refusal := regRow s 0x0208 (v &&& ~~~1#64)

/-- CANARY_CLEAR (R166). -/
def execCanaryClear (v : Word) (s : State) : Host.Outcome State Fault Refusal := regRow s 0x0118 v

/-- DMA_RESUME (R228). -/
def execDmaResume (ch : Nat) (s : State) : Host.Outcome State Fault Refusal := chanRow s ch 0x918 1

/-- ENCODE (R240). -/
def execEncode (ch : Nat) (s : State) : Host.Outcome State Fault Refusal := chanRow s ch 0x940 1

/-- RAW_WRITE (R240, R241). -/
def execRawWrite (ch : Nat) (s : State) : Host.Outcome State Fault Refusal := chanRow s ch 0x940 2

/-- RAW_READ (R240, R241). -/
def execRawRead (ch : Nat) (s : State) : Host.Outcome State Fault Refusal := chanRow s ch 0x940 3

/-- DECODE (R240). -/
def execDecode (ch : Nat) (s : State) : Host.Outcome State Fault Refusal := chanRow s ch 0x940 4

/-- CONF_CLR (R64). -/
def execConfClr (ch : Nat) (v : Word) (s : State) : Host.Outcome State Fault Refusal := chanRow s ch 0x848 v

/-- CLR_CNT (R229). -/
def execClrCnt (ch : Nat) (s : State) : Host.Outcome State Fault Refusal := chanRow s ch 0x900 1

/-- OBS_CTL_CLEAR (R448): OBS_CTL with CLEAR = 1. -/
def execObsCtlClear (v : Word) (s : State) : Host.Outcome State Fault Refusal := regRow s 0xA2000 (v ||| 8#64)

/-- OBS_CTL_FREEZE (R446): OBS_CTL with FREEZE as `v` has it, and no CLEAR. -/
def execObsCtlFreeze (v : Word) (s : State) : Host.Outcome State Fault Refusal := regRow s 0xA2000 (v &&& ~~~8#64)

/-- ARM (R454): TRC_CTL with ARM = 1. -/
def execArm (v : Word) (s : State) : Host.Outcome State Fault Refusal := regRow s 0xA2100 (v ||| 2#64)

/-- TRC_STOP (R454): TRC_CTL with STOP = 1. -/
def execTrcStop (v : Word) (s : State) : Host.Outcome State Fault Refusal := regRow s 0xA2100 (v ||| 4#64)

/-- FORCE (R455): TRC_CTL with FORCE = 1. -/
def execForce (v : Word) (s : State) : Host.Outcome State Fault Refusal := regRow s 0xA2100 (v ||| 8#64)

/-- TRAIN (R291, R322). -/
def execTrain (n : Nat) (s : State) : Host.Outcome State Fault Refusal := peerRow s n 1

/-- RETRAIN (R293, R322). -/
def execRetrain (n : Nat) (s : State) : Host.Outcome State Fault Refusal := peerRow s n 2

/-- DISABLE (R291, R322). -/
def execDisable (n : Nat) (on : Bool) (s : State) : Host.Outcome State Fault Refusal :=
  peerCtl s n (putBit 2 on)

/-- CHK_CLR (R322). -/
def execChkClr (n : Nat) (s : State) : Host.Outcome State Fault Refusal := peerRow s n 8

/-- TIME_LOAD (R439). -/
def execTimeLoad (v : Word) (s : State) : Host.Outcome State Fault Refusal := regRow s 0x0250 v

/-- RLOG_DATA (R440). -/
def execRlogData (s : State) : Host.Outcome State Fault Refusal := done s (g0ReadAt s.blk 0x0240 true)

/-- TRC_RDATA (R457, R459). -/
def execTrcRdata (s : State) : Host.Outcome State Fault Refusal := done s (g0ReadAt s.blk 0xA2140 true)

/-- DBG_DATA (R478, R479): a write of a value, or a read. -/
def execDbgData (write : Option Word) (s : State) : Host.Outcome State Fault Refusal :=
  match write with
  | some v => regRow s 0xC0018 v
  | none => done s (g0ReadAt s.blk 0xC0018 true)

/-- HALT (R478, R479). -/
def execHalt (on : Bool) (s : State) : Host.Outcome State Fault Refusal := regRow s 0xC0000 (putBit 0 on)

/-- STEP (R478): HALT keeps its value. -/
def execStep (s : State) : Host.Outcome State Fault Refusal := regRow s 0xC0000 (2#64 ||| putBit 0 s.blk.dbg.halt)

/-- REGISTER_WRITE (R468, R469). -/
def execRegisterWrite (off : Nat) (v : Word) (parOk : Bool) (s : State) : Host.Outcome State Fault Refusal :=
  done s (g0Write s.blk (g0Offset off) v parOk)

/-- G0_READ (R468 to R470). -/
def execG0Read (off : Nat) (parOk : Bool) (s : State) : Host.Outcome State Fault Refusal :=
  done s (g0ReadAt s.blk (g0Offset off) parOk)

end Sys2Proof.Machine
end

