-- ==== Sys2Proof/Machine/Ports.lean ====
section
/-! DEFINITION. The commands of the data ports: request beats, write data beats, read beats, write responses and the
completion of a FENCE (R77 to R108). -/

namespace Sys2Proof.Machine

/-- RD (R82 to R87): a read request of a byte range transfers at a port. -/
def execRd (p : PortId) (r : ReqBeat) (s : State) : Host.Outcome State Fault Refusal :=
  guarded (portOk s.blk p) s (acceptReq s.blk p .rd r)

/-- WR (R82 to R88): a write request of a byte range transfers at a port. -/
def execWr (p : PortId) (r : ReqBeat) (s : State) : Host.Outcome State Fault Refusal :=
  guarded (portOk s.blk p) s (acceptReq s.blk p .wr r)

/-- RED (R84, R147 to R153): a reduce request transfers at a port. -/
def execRed (p : PortId) (r : ReqBeat) (s : State) : Host.Outcome State Fault Refusal :=
  guarded (portOk s.blk p) s (acceptReq s.blk p .red r)

/-- TILE_RD (R117 to R146): a tile read transfers at a port. -/
def execTileRd (p : PortId) (r : ReqBeat) (s : State) : Host.Outcome State Fault Refusal :=
  guarded (portOk s.blk p) s (acceptReq s.blk p .tileRd r)

/-- TILE_WR (R117 to R146): a tile write transfers at a port. -/
def execTileWr (p : PortId) (r : ReqBeat) (s : State) : Host.Outcome State Fault Refusal :=
  guarded (portOk s.blk p) s (acceptReq s.blk p .tileWr r)

/-- TILE_RED (R117 to R146): a tile reduce transfers at a port. -/
def execTileRed (p : PortId) (r : ReqBeat) (s : State) : Host.Outcome State Fault Refusal :=
  guarded (portOk s.blk p) s (acceptReq s.blk p .tileRed r)

/-- GATHER (R168 to R178): a gather transfers at a port. -/
def execGather (p : PortId) (r : ReqBeat) (s : State) : Host.Outcome State Fault Refusal :=
  guarded (portOk s.blk p) s (acceptReq s.blk p .gather r)

/-- SCATTER (R168 to R178): a scatter transfers at a port. -/
def execScatter (p : PortId) (r : ReqBeat) (s : State) : Host.Outcome State Fault Refusal :=
  guarded (portOk s.blk p) s (acceptReq s.blk p .scatter r)

/-- SCATTER_RED (R168 to R178): a scatter reduce transfers at a port. -/
def execScatterRed (p : PortId) (r : ReqBeat) (s : State) : Host.Outcome State Fault Refusal :=
  guarded (portOk s.blk p) s (acceptReq s.blk p .scatterRed r)

/-- FENCE (R104 to R108): a fence transfers at a port. -/
def execFence (p : PortId) (r : ReqBeat) (s : State) : Host.Outcome State Fault Refusal :=
  guarded (portOk s.blk p) s (acceptReq s.blk p .fence r)

/-- TALLY_ACQ (R249 to R254): a tally acquire transfers at a port. -/
def execTallyAcq (p : PortId) (r : ReqBeat) (s : State) : Host.Outcome State Fault Refusal :=
  guarded (portOk s.blk p) s (acceptReq s.blk p .tallyAcq r)

/-- TALLY_EXT (R255): a tally extend transfers at a port. -/
def execTallyExt (p : PortId) (r : ReqBeat) (s : State) : Host.Outcome State Fault Refusal :=
  guarded (portOk s.blk p) s (acceptReq s.blk p .tallyExt r)

/-- TALLY_REL (R256, R257): a tally release transfers at a port. -/
def execTallyRel (p : PortId) (r : ReqBeat) (s : State) : Host.Outcome State Fault Refusal :=
  guarded (portOk s.blk p) s (acceptReq s.blk p .tallyRel r)

/-- WDAT_BEAT (R88 to R92): a write data beat transfers at a port. -/
def execWdatBeat (p : PortId) (t : WBeat) (s : State) : Host.Outcome State Fault Refusal :=
  guarded (portOk s.blk p) s (writeBeat s.blk p t)

/-- RDAT_BEAT (R92 to R95): a read data beat of this ID transfers. -/
def execRdatBeat (p : PortId) (id : BitVec 8) (s : State) : Host.Outcome State Fault Refusal :=
  guarded (portOk s.blk p) s (readBeat s.blk p id)

/-- WRSP_TRANSFER (R93): a write response of this ID transfers. -/
def execWrspTransfer (p : PortId) (id : BitVec 8) (s : State) : Host.Outcome State Fault Refusal :=
  guarded (portOk s.blk p) s (writeResp s.blk p id)

/-- FENCE_COMPLETE (R106): a waiting FENCE of this ID finds its scope performed. -/
def execFenceComplete (p : PortId) (id : BitVec 8) (s : State) : Host.Outcome State Fault Refusal :=
  guarded (portOk s.blk p) s (fenceComplete s.blk p id)

end Sys2Proof.Machine
end

