-- ==== Sys2Proof/Machine/Units.lean ====
section
/-! DEFINITION. The commands of the tile lanes and gather units (R138, R173) and of the tally logic (R253, R263, R264). -/

namespace Sys2Proof.Machine

/-- Descriptors of a channel that have been fetched and stand at the head of their lane or unit. -/
def readyDescs (b : Block) (ch : Nat) : List DescOp :=
  b.descs.filter (fun d => d.ch == ch && d.stage == .ready && decide (d.readyAt ≤ b.now) && laneTurn b d)

/-- DESCRIPTOR_READY on the n-th of them. -/
def descriptorReady (b : Block) (ch n : Nat) : Block :=
  match (readyDescs b ch)[n]? with
  | none => b
  | some d => match txnOf b d.uid with
    | none => b
    | some x => descReady b d x

/-- Gather operations of a channel whose next index line has come. -/
def indexDescs (b : Block) (ch : Nat) : List DescOp :=
  b.descs.filter (fun d => d.ch == ch && d.lane == 8 && d.stage == .expanding && decide (d.readyAt ≤ b.now)
    && d.index.any (fun e => e.no == d.next && decide (e.due ≤ b.now)))

/-- INDEX_LINE_READY on the n-th of them: its rows are classified and issued. -/
def indexReady (b : Block) (ch n : Nat) : Block :=
  match (indexDescs b ch)[n]? with
  | none => b
  | some d => descRun (setDesc b d.uid (fun d => { d with next := d.next + 1 })) d.uid

/-! The commands. -/

/-- DESCRIPTOR_READY (R138, R173). -/
def execDescriptorReady (ch n : Nat) (s : State) : Host.Outcome State Fault Refusal :=
  guarded (chanOk s.blk ch) s (descriptorReady s.blk ch n)

/-- INDEX_LINE_READY (R173). -/
def execIndexLineReady (ch n : Nat) (s : State) : Host.Outcome State Fault Refusal :=
  guarded (chanOk s.blk ch) s (indexReady s.blk ch n)

/-- LEASE_START (R253). -/
def execLeaseStart (t : Nat) (s : State) : Host.Outcome State Fault Refusal := done s (leaseStart s.blk t)

/-- TALLY_LEASE_EXPIRY (R263). -/
def execTallyLeaseExpiry (t : Nat) (s : State) : Host.Outcome State Fault Refusal := done s (leaseExpiry s.arr s.blk t)

/-- TALLY_WAIT (R264). -/
def execTallyWait (w : Waiter) (s : State) : Host.Outcome State Fault Refusal := done s (tallyWaitRow s.blk w)

end Sys2Proof.Machine
end

