-- ==== Sys2Proof/Machine/Dispatch.lean ====
section
/-! DEFINITION. One arm for each command: its meaning. -/

namespace Sys2Proof.Machine

/-- The effect of a command on everything but the queue. -/
def exec (i : Instr) (s : State) : Host.Outcome State Fault Refusal :=
  match i with
  | .rd p r => Sys2Proof.Machine.execRd p r s
  | .wr p r => Sys2Proof.Machine.execWr p r s
  | .red p r => Sys2Proof.Machine.execRed p r s
  | .tileRd p r => Sys2Proof.Machine.execTileRd p r s
  | .tileWr p r => Sys2Proof.Machine.execTileWr p r s
  | .tileRed p r => Sys2Proof.Machine.execTileRed p r s
  | .gather p r => Sys2Proof.Machine.execGather p r s
  | .scatter p r => Sys2Proof.Machine.execScatter p r s
  | .scatterRed p r => Sys2Proof.Machine.execScatterRed p r s
  | .fence p r => Sys2Proof.Machine.execFence p r s
  | .tallyAcq p r => Sys2Proof.Machine.execTallyAcq p r s
  | .tallyExt p r => Sys2Proof.Machine.execTallyExt p r s
  | .tallyRel p r => Sys2Proof.Machine.execTallyRel p r s
  | .wdatBeat p b => Sys2Proof.Machine.execWdatBeat p b s
  | .rdatBeat p id => Sys2Proof.Machine.execRdatBeat p id s
  | .wrspTransfer p id => Sys2Proof.Machine.execWrspTransfer p id s
  | .fenceComplete p id => Sys2Proof.Machine.execFenceComplete p id s
  | .pathGrant p => Sys2Proof.Machine.execPathGrant p s
  | .bankSlotGrant ch bank => Sys2Proof.Machine.execBankSlotGrant ch bank s
  | .checkPoint ch n => Sys2Proof.Machine.execCheckPoint ch n s
  | .mergeBufferEntry ch n => Sys2Proof.Machine.execMergeBufferEntry ch n s
  | .mergeWindowExpiry ch n => Sys2Proof.Machine.execMergeWindowExpiry ch n s
  | .descriptorReady ch n => Sys2Proof.Machine.execDescriptorReady ch n s
  | .indexLineReady ch n => Sys2Proof.Machine.execIndexLineReady ch n s
  | .leaseStart t => Sys2Proof.Machine.execLeaseStart t s
  | .tallyLeaseExpiry t => Sys2Proof.Machine.execTallyLeaseExpiry t s
  | .tallyWait w => Sys2Proof.Machine.execTallyWait w s
  | .rotationStart => Sys2Proof.Machine.execRotationStart s
  | .budgetWindowStart => Sys2Proof.Machine.execBudgetWindowStart s
  | .starve w => Sys2Proof.Machine.execStarve w s
  | .conflictWindowEnd => Sys2Proof.Machine.execConflictWindowEnd s
  | .conflictStorm p => Sys2Proof.Machine.execConflictStorm p s
  | .stepLong => Sys2Proof.Machine.execStepLong s
  | .peerReservationRecheck n => Sys2Proof.Machine.execPeerReservationRecheck n s
  | .rosterRestore ch roster cluster slot readbackOk => Sys2Proof.Machine.execRosterRestore ch roster cluster slot readbackOk s
  | .dredgeStep ch => Sys2Proof.Machine.execDredgeStep ch s
  | .ceWindowStart => Sys2Proof.Machine.execCeWindowStart s
  | .quiesceDone ch => Sys2Proof.Machine.execQuiesceDone ch s
  | .copyDone ch => Sys2Proof.Machine.execCopyDone ch s
  | .verifyDone ch => Sys2Proof.Machine.execVerifyDone ch s
  | .sparingTimeLimit ch => Sys2Proof.Machine.execSparingTimeLimit ch s
  | .s0RequestTransfer => Sys2Proof.Machine.execS0RequestTransfer s
  | .s0ReadBeat b => Sys2Proof.Machine.execS0ReadBeat b s
  | .s0WriteResponse id status => Sys2Proof.Machine.execS0WriteResponse id status s
  | .s0DrainEnd => Sys2Proof.Machine.execS0DrainEnd s
  | .flitReceive n f => Sys2Proof.Machine.execFlitReceive n f s
  | .nak n f => Sys2Proof.Machine.execNak n f s
  | .replayTimeout n => Sys2Proof.Machine.execReplayTimeout n s
  | .requestMessage src => Sys2Proof.Machine.execRequestMessage src s
  | .writeLine src => Sys2Proof.Machine.execWriteLine src s
  | .responseMessage src => Sys2Proof.Machine.execResponseMessage src s
  | .hello n => Sys2Proof.Machine.execHello n s
  | .beacon n => Sys2Proof.Machine.execBeacon n s
  | .image n => Sys2Proof.Machine.execImage n s
  | .imageEnd n => Sys2Proof.Machine.execImageEnd n s
  | .imageAck src => Sys2Proof.Machine.execImageAck src s
  | .start n => Sys2Proof.Machine.execStart n s
  | .abort n => Sys2Proof.Machine.execAbort n s
  | .routeSet src => Sys2Proof.Machine.execRouteSet src s
  | .routeAck src => Sys2Proof.Machine.execRouteAck src s
  | .offReq src => Sys2Proof.Machine.execOffReq src s
  | .offAck src => Sys2Proof.Machine.execOffAck src s
  | .bootReq n => Sys2Proof.Machine.execBootReq n s
  | .offPlanTimeout => Sys2Proof.Machine.execOffPlanTimeout s
  | .offAckTimeout => Sys2Proof.Machine.execOffAckTimeout s
  | .causewayDrainEnd => Sys2Proof.Machine.execCausewayDrainEnd s
  | .routeChangeRelease d => Sys2Proof.Machine.execRouteChangeRelease d s
  | .trainingComplete n t => Sys2Proof.Machine.execTrainingComplete n t s
  | .trainingAttemptTimeout n => Sys2Proof.Machine.execTrainingAttemptTimeout n s
  | .partnerTraining n => Sys2Proof.Machine.execPartnerTraining n s
  | .linkRetry n => Sys2Proof.Machine.execLinkRetry n s
  | .linkError n => Sys2Proof.Machine.execLinkError n s
  | .retrainEnd n t => Sys2Proof.Machine.execRetrainEnd n t s
  | .workerMissing inst => Sys2Proof.Machine.execWorkerMissing inst s
  | .aonRstN p => Sys2Proof.Machine.execAonRstN p s
  | .cwRstN low instNum pitheadSel => Sys2Proof.Machine.execCwRstN low instNum pitheadSel s
  | .instRstN low => Sys2Proof.Machine.execInstRstN low s
  | .boot b => Sys2Proof.Machine.execBoot b s
  | .ready => Sys2Proof.Machine.execReady s
  | .crashDump level => Sys2Proof.Machine.execCrashDump level s
  | .holdupRecheck level => Sys2Proof.Machine.execHoldupRecheck level s
  | .presenceN low => Sys2Proof.Machine.execPresenceN low s
  | .tamperN => Sys2Proof.Machine.execTamperN s
  | .wipeDone => Sys2Proof.Machine.execWipeDone s
  | .wakeN => Sys2Proof.Machine.execWakeN s
  | .idleAfter ch => Sys2Proof.Machine.execIdleAfter ch s
  | .sleepAfter ch => Sys2Proof.Machine.execSleepAfter ch s
  | .handshakeCommit => Sys2Proof.Machine.execHandshakeCommit s
  | .hsLimit => Sys2Proof.Machine.execHsLimit s
  | .stateEntryComplete => Sys2Proof.Machine.execStateEntryComplete s
  | .wakeComplete u => Sys2Proof.Machine.execWakeComplete u s
  | .hangWatchdog p id => Sys2Proof.Machine.execHangWatchdog p id s
  | .channelStallCheck ch => Sys2Proof.Machine.execChannelStallCheck ch s
  | .channelResetDone ch => Sys2Proof.Machine.execChannelResetDone ch s
  | .replayComplete ch => Sys2Proof.Machine.execReplayComplete ch s
  | .replayLimit ch => Sys2Proof.Machine.execReplayLimit ch s
  | .recoveryTimeout ch => Sys2Proof.Machine.execRecoveryTimeout ch s
  | .sweepEnd c => Sys2Proof.Machine.execSweepEnd c s
  | .sweepEscalation c => Sys2Proof.Machine.execSweepEscalation c s
  | .quietTimeEnd c => Sys2Proof.Machine.execQuietTimeEnd c s
  | .retrainRecoveryTimeout => Sys2Proof.Machine.execRetrainRecoveryTimeout s
  | .lockstep mem => Sys2Proof.Machine.execLockstep mem s
  | .heartbeat => Sys2Proof.Machine.execHeartbeat s
  | .clkRootWindow count => Sys2Proof.Machine.execClkRootWindow count s
  | .clockFaultTimeout => Sys2Proof.Machine.execClockFaultTimeout s
  | .refAonFault count => Sys2Proof.Machine.execRefAonFault count s
  | .cfgScrub => Sys2Proof.Machine.execCfgScrub s
  | .eventRecordIssue => Sys2Proof.Machine.execEventRecordIssue s
  | .recordWriteAck w status => Sys2Proof.Machine.execRecordWriteAck w status s
  | .doorbellTimeout => Sys2Proof.Machine.execDoorbellTimeout s
  | .timeSyncFrame v parity => Sys2Proof.Machine.execTimeSyncFrame v parity s
  | .syncWaitTimeout => Sys2Proof.Machine.execSyncWaitTimeout s
  | .freeze high => Sys2Proof.Machine.execFreeze high s
  | .traceTrigger src => Sys2Proof.Machine.execTraceTrigger src s
  | .tracePostDone => Sys2Proof.Machine.execTracePostDone s
  | .traceSync => Sys2Proof.Machine.execTraceSync s
  | .counterSample => Sys2Proof.Machine.execCounterSample s
  | .soundingCopyDone => Sys2Proof.Machine.execSoundingCopyDone s
  | .seamReleaseComplete seam => Sys2Proof.Machine.execSeamReleaseComplete seam s
  | .seedClearDone seam => Sys2Proof.Machine.execSeedClearDone seam s
  | .chStopDone => Sys2Proof.Machine.execChStopDone s
  | .nvmSequenceDone mismatch => Sys2Proof.Machine.execNvmSequenceDone mismatch s
  | .nop => Sys2Proof.Machine.execNop s
  | .apply => Sys2Proof.Machine.execApply s
  | .stepMark => Sys2Proof.Machine.execStepMark s
  | .rosterSelect => Sys2Proof.Machine.execRosterSelect s
  | .seamAssign => Sys2Proof.Machine.execSeamAssign s
  | .seamRelease => Sys2Proof.Machine.execSeamRelease s
  | .sumpValidate => Sys2Proof.Machine.execSumpValidate s
  | .ctxOpen => Sys2Proof.Machine.execCtxOpen s
  | .ctxReset => Sys2Proof.Machine.execCtxReset s
  | .ctxClose => Sys2Proof.Machine.execCtxClose s
  | .jobAbort => Sys2Proof.Machine.execJobAbort s
  | .chStop => Sys2Proof.Machine.execChStop s
  | .chStart => Sys2Proof.Machine.execChStart s
  | .chReset => Sys2Proof.Machine.execChReset s
  | .instReset => Sys2Proof.Machine.execInstReset s
  | .bankRetire => Sys2Proof.Machine.execBankRetire s
  | .pwrSet => Sys2Proof.Machine.execPwrSet s
  | .sounding => Sys2Proof.Machine.execSounding s
  | .lcAdvance => Sys2Proof.Machine.execLcAdvance s
  | .nvmWrite level image readError => Sys2Proof.Machine.execNvmWrite level image readError s
  | .debugUnlock => Sys2Proof.Machine.execDebugUnlock s
  | .dumpErase level => Sys2Proof.Machine.execDumpErase level s
  | .cmdqTail v => Sys2Proof.Machine.execCmdqTail v s
  | .cplTail v => Sys2Proof.Machine.execCplTail v s
  | .evtTail v => Sys2Proof.Machine.execEvtTail v s
  | .evtEnable v => Sys2Proof.Machine.execEvtEnable v s
  | .evtDisable v => Sys2Proof.Machine.execEvtDisable v s
  | .canaryClear v => Sys2Proof.Machine.execCanaryClear v s
  | .dmaResume ch => Sys2Proof.Machine.execDmaResume ch s
  | .encode ch => Sys2Proof.Machine.execEncode ch s
  | .rawWrite ch => Sys2Proof.Machine.execRawWrite ch s
  | .rawRead ch => Sys2Proof.Machine.execRawRead ch s
  | .decode ch => Sys2Proof.Machine.execDecode ch s
  | .eccTestDone ch => Sys2Proof.Machine.execEccTestDone ch s
  | .confClr ch v => Sys2Proof.Machine.execConfClr ch v s
  | .clrCnt ch => Sys2Proof.Machine.execClrCnt ch s
  | .obsCtlClear v => Sys2Proof.Machine.execObsCtlClear v s
  | .obsCtlFreeze v => Sys2Proof.Machine.execObsCtlFreeze v s
  | .arm v => Sys2Proof.Machine.execArm v s
  | .trcStop v => Sys2Proof.Machine.execTrcStop v s
  | .force v => Sys2Proof.Machine.execForce v s
  | .train n => Sys2Proof.Machine.execTrain n s
  | .retrain n => Sys2Proof.Machine.execRetrain n s
  | .disable n on => Sys2Proof.Machine.execDisable n on s
  | .chkClr n => Sys2Proof.Machine.execChkClr n s
  | .timeLoad v => Sys2Proof.Machine.execTimeLoad v s
  | .rlogData => Sys2Proof.Machine.execRlogData s
  | .trcRdata => Sys2Proof.Machine.execTrcRdata s
  | .dbgData write => Sys2Proof.Machine.execDbgData write s
  | .halt on => Sys2Proof.Machine.execHalt on s
  | .step => Sys2Proof.Machine.execStep s
  | .registerWrite off v parOk => Sys2Proof.Machine.execRegisterWrite off v parOk s
  | .bumpSpacingEnd c => Sys2Proof.Machine.execBumpSpacingEnd c s
  | .presenceHold => Sys2Proof.Machine.execPresenceHold s
  | .tamperNRelease => Sys2Proof.Machine.execTamperNRelease s
  | .powerCycleDumpWait => Sys2Proof.Machine.execPowerCycleDumpWait s
  | .heartbeatWrite => Sys2Proof.Machine.execHeartbeatWrite s
  | .flitSend n => Sys2Proof.Machine.execFlitSend n s
  | .t0RecordSend => Sys2Proof.Machine.execT0RecordSend s
  | .g0Read off parOk => Sys2Proof.Machine.execG0Read off parOk s

end Sys2Proof.Machine
end

