-- ==== Sys2Proof/Machine/Tick.lean ====
section
/-! DEFINITION. The passing of one port cycle, which is what a step does while no command waits (log 2): the clocks and timers of
the block (R35 to R40), the ages of requests (R70), the timebase (R436), and the counters that add in every cycle (R444). -/

namespace Sys2Proof.Machine

/-- One REF_AON tick of a request's age: it has stopped with the first response beat, and pauses on another context's tally and
on an auto-wake (R70). -/
def ageTick (b : Block) (x : Txn) : Txn :=
  if isRemote x.org || presented b x || x.stallUs.isSome || x.autoWake then x else { x with age := x.age + 1 }

/-- The ports at which something is outstanding or has been shown. -/
def livePorts (b : Block) : List PortId :=
  let l := b.txns.filterMap (fun x => match x.org with | .loc p => some p | .remote _ _ _ => none)
  (l ++ b.outs.map (fun e => e.1)).eraseDups

/-- A read beat that is presented and not taken stands as it is (R78); D0 halts on a POISON beat (R228). -/
def holdBeat (b : Block) (p : PortId) : Block :=
  match (outOf b p).rdatHeld, offers b p (fun _ => true) with
  | none, some x =>
    let t := beatOut b x
    haltD0 (setOut b p { outOf b p with rdatHeld := some (x.uid, t) }) p x t.status
  | _, _ => b

/-- A cycle of a port: responses that are presented and not taken stand, and count as stalled (R78, R444, R463). -/
def stallTick (b : Block) (p : PortId) : Block :=
  let o := outOf b p
  let rd := offered b p && !(o.rdat.isSome && o.rdatAt == b.now)
  let wr := if o.wrsp.isSome && o.wrspAt == b.now then none else (portTxns b p).find? (fun x => (wrspReady b x).isSome)
  let b := if rd then holdBeat (count b 0x06 { ch := p.ch, port := portCode p.port } 1) p else b
  let o := outOf b p
  setOut b p { o with
    rdatStall := if rd then o.rdatStall + 1 else 0
    wrspStall := if wr.isSome then o.wrspStall + 1 else 0
    wrspHeld := match o.wrspHeld with | some u => some u | none => wr.map (fun x => x.uid) }

/-- The events that are counted in every port cycle (R444). -/
def cycleCounts (b : Block) : Block :=
  let b := count b 0x01 {} 1
  let b := b.txns.foldl (fun b x =>
    let t : Tap := { ch := x.org.chan, port := x.org.code, cls := x.req.cls.toNat }
    let b := if isRemote x.org then b else count b 0x05 t 1
    if x.stallUs.isSome then count b 0x27 { ch := x.org.chan, port := x.org.code, ctx := x.req.ctx.toNat } 1 else b) b
  let b := b.ops.foldl (fun b o => if o.stage = .merge ∧ o.full = true then count b 0x23 { ch := o.ch } 1 else b) b
  count b 0x32 {} b.sump.out.length

/-- One REF_AON edge (R436, R388, R70). -/
def refTick (b : Block) : Block :=
  let b := abortPeriod (timeEdge b)
  { b with txns := b.txns.map (ageTick b) }

/-- One CLK_BANK edge (R190, R221): the first after ready is the rotation origin. -/
def bankTick (b : Block) : Block :=
  if isReady b && b.power.inst == .on && !b.safety.clkHeld then
    inactiveCheck (if b.arb.fresh then { b with arb := { b.arb with fresh := false } }
      else { b with arb := { b.arb with bankCycles := b.arb.bankCycles + 1 } })
  else b

/-- One CLK_TRC edge (R42, R452). -/
def traceTick (b : Block) : Block :=
  if trcRuns b then { b with obs := { b.obs with stamp := (b.obs.stamp + 1) % 2 ^ 32 } } else b

/-- One µs tick (R39): what the always-on domain and the sequencer watch. -/
def usTick (b : Block) : Block := beatTimer (retrainCheck (refreshHold b))

/-- One CLK_CTL cycle of a handshake: every channel that is asked answers again; its merge buffer drains, and one that has come to hold
tallies refuses (R355, R356, R363). -/
def askTick (a : Arrays) (b : Block) : Block :=
  match b.power.hs with
  | some h => if hsOpen h then checkRefuse (drainAsked a b (askedChans b h)) else b
  | none => b

/-- The clock edges that fall on the cycle that begins. -/
def edges (b : Block) : Block :=
  let b := if b.now % Config.refCycles = 0 then refTick b else b
  let b := if (b.now - b.usBase) % Config.usCycles = 0 then usTick b else b
  let b := if b.now % 2 = 0 then bankTick b else b
  if b.now % 8 = 0 then traceTick b else b

/-- What the pipelines do in the cycle that begins: accepted requests are decoded, lines come back at stage C, operations pass stage F, tally operations get to the tally logic, and what waits at the
ports, lanes and gather units issues (R32, R116). -/
def pipes (a : Arrays) (b : Block) : Block :=
  if isReady b && b.power.inst == .on && !b.safety.clkHeld then
    pump (tallyLogic a (drainAtF a (stageF a (stageC (decodeAll b))))) else b

/-- A port cycle passes. -/
def tick (a : Arrays) (b : Block) : Block :=
  let b := (livePorts b).foldl stallTick (cycleCounts b)
  let b := pipes a (edges { b with now := b.now + 1 })
  let b := if b.now % 4 = 0 then askTick a { b with ctlClear := w1cClear b } else b
  let b := if isReady b then idleTimers (flushRemote b) else b
  (List.range b.build.peers).foldl flushViolations b

end Sys2Proof.Machine
end

