-- ==== Sys2Proof/WellFormed.lean ====
section
/-! DEFINITION. Well-formed commands: those that name only units the build has, or a register that G0 has an offset for. Every other
command changes nothing: the build has no such pin, queue or timer (log 6). -/

namespace Sys2Proof

/-- A channel of the build (R489). -/
def Instr.chanIn (b : Machine.Build) (ch : Nat) : Bool := decide (ch < b.channels)

/-- A peer port of the build (R489). -/
def Instr.peerIn (b : Machine.Build) (n : Nat) : Bool := decide (n < b.peers)

/-- A port that takes requests from outside: X0 is internal (R24). -/
def Instr.portIn (b : Machine.Build) (p : PortId) : Bool := Instr.chanIn b p.ch && decide (p.port ≠ .X0)

/-- A shared path of the build (R111): the spine inputs of the eight clusters, X0 and the bridge outputs. -/
def Instr.pathIn (b : Machine.Build) (p : PathId) : Bool :=
  match p with
  | .spine c k => Instr.chanIn b c && decide (k < 8)
  | .x0e c | .brX0 c => Instr.chanIn b c
  | .brS0 | .brCw => true

/-- A place where messages enter the causeway. -/
def Instr.cwIn (b : Machine.Build) (i : CwIn) : Bool :=
  match i with
  | .peer n => Instr.peerIn b n
  | .loc => true

/-- One of the 64 contexts (R374). -/
def Instr.ctxIn (c : Nat) : Bool := decide (c < 64)

/-- The command names only units of the build. A row of G0 names a register of the map, which has the blocks of eight channels and four
peer ports whatever the build is (R466): what the build lacks is unmapped, and answered so (R467). -/
def Instr.wf (b : Machine.Build) (c : Instr) : Bool :=
  match c with
  | .rd p _ | .wr p _ | .red p _ | .tileRd p _ | .tileWr p _ | .tileRed p _ | .gather p _ | .scatter p _ | .scatterRed p _
  | .fence p _ | .tallyAcq p _ | .tallyExt p _ | .tallyRel p _ | .wdatBeat p _ | .rdatBeat p _ | .wrspTransfer p _
  | .fenceComplete p _ | .hangWatchdog p _ => Instr.portIn b p
  | .pathGrant p => Instr.pathIn b p
  | .bankSlotGrant ch bank => Instr.chanIn b ch && decide (bank < 66)
  | .checkPoint ch _ | .mergeBufferEntry ch _ | .mergeWindowExpiry ch _ | .descriptorReady ch _ | .indexLineReady ch _
  | .rosterRestore ch _ _ _ _ | .dredgeStep ch | .quiesceDone ch | .copyDone ch | .verifyDone ch | .sparingTimeLimit ch
  | .idleAfter ch | .sleepAfter ch | .channelStallCheck ch | .channelResetDone ch | .replayComplete ch | .replayLimit ch
  | .recoveryTimeout ch | .eccTestDone ch => Instr.chanIn b ch
  | .dmaResume ch | .encode ch | .rawWrite ch | .rawRead ch | .decode ch | .confClr ch _ | .clrCnt ch => decide (ch < 8)
  | .train n | .retrain n | .disable n _ | .chkClr n => decide (n < 4)
  | .conflictStorm p => Instr.chanIn b p.ch
  | .starve w => (match w with | .bank ch _ => Instr.chanIn b ch | .path p _ => Instr.pathIn b p)
  | .wakeComplete u => (match u with | .chan ch => Instr.chanIn b ch | .inst => true)
  | .peerReservationRecheck n | .flitReceive n _ | .nak n _ | .replayTimeout n | .hello n | .beacon n | .image n | .imageEnd n
  | .start n | .abort n | .bootReq n | .trainingComplete n _ | .trainingAttemptTimeout n | .partnerTraining n | .linkRetry n
  | .linkError n | .retrainEnd n _ | .flitSend n => Instr.peerIn b n
  | .requestMessage i | .writeLine i | .responseMessage i | .imageAck i | .routeSet i | .routeAck i | .offReq i
  | .offAck i => Instr.cwIn b i
  | .sweepEnd c | .sweepEscalation c | .quietTimeEnd c | .bumpSpacingEnd c => Instr.ctxIn c
  | .leaseStart _ | .tallyLeaseExpiry _ | .tallyWait _ | .rotationStart | .budgetWindowStart | .conflictWindowEnd | .stepLong
  | .ceWindowStart | .s0RequestTransfer | .s0ReadBeat _ | .s0WriteResponse _ _ | .s0DrainEnd | .offPlanTimeout | .offAckTimeout
  | .causewayDrainEnd | .routeChangeRelease _ | .workerMissing _ | .aonRstN _ | .cwRstN _ _ _ | .instRstN _ | .boot _ | .ready
  | .crashDump _ | .holdupRecheck _ | .presenceN _ | .tamperN | .wipeDone | .wakeN | .handshakeCommit | .hsLimit
  | .stateEntryComplete | .retrainRecoveryTimeout | .lockstep _ | .heartbeat | .clkRootWindow _ | .clockFaultTimeout
  | .refAonFault _ | .cfgScrub | .eventRecordIssue | .recordWriteAck _ _ | .doorbellTimeout | .timeSyncFrame _ _
  | .syncWaitTimeout | .freeze _ | .traceTrigger _ | .tracePostDone | .traceSync | .counterSample | .soundingCopyDone
  | .seamReleaseComplete _ | .seedClearDone _ | .chStopDone | .nvmSequenceDone _ | .nop | .apply | .stepMark | .rosterSelect
  | .seamAssign | .seamRelease | .sumpValidate | .ctxOpen | .ctxReset | .ctxClose | .jobAbort | .chStop | .chStart | .chReset
  | .instReset | .bankRetire | .pwrSet | .sounding | .lcAdvance | .nvmWrite _ _ _ | .debugUnlock | .dumpErase _ | .cmdqTail _
  | .cplTail _ | .evtTail _ | .evtEnable _ | .evtDisable _ | .canaryClear _ | .obsCtlClear _ | .obsCtlFreeze _ | .arm _
  | .trcStop _ | .force _ | .timeLoad _ | .rlogData | .trcRdata | .dbgData _ | .halt _ | .step | .registerWrite _ _ _
  | .presenceHold | .tamperNRelease | .powerCycleDumpWait | .heartbeatWrite | .t0RecordSend | .g0Read _ _ => true

end Sys2Proof
end

