-- ==== Sys2Proof/Safety.lean ====
section
/-! DEFINITION. What counts as safe, and the frames that statements speak of. -/

namespace Sys2Proof.Machine

/-- Both arrays are in their canonical form: equal contents are equal data. -/
def Arrays.wf (a : Arrays) : Bool := Memory.wf a.mem && Memory.wf a.tags

/-- The invariant of every step. -/
def State.Safe (s : State) : Prop := s.arr.wf = true

/-- A safe step: it answers a next state that is safe again. -/
def State.StepsSafely (s : State) : Prop := ∃ t, step s = .next t ∧ t.Safe

/-- Everything of a block that a look at the outstanding requests in a tick (`pump`) leaves alone: what such a look may change
is put out of sight. Those are the requests and the work they issue, the ports' issue limits, counters of the channels,
and what a wake of a channel brings (its power state, a record, the timebase's restart, the trace). -/
def Block.still (b : Block) : Block :=
  { b with serial := 0, txns := [], xfers := [], ops := [], descs := [], outs := [], chans := [],
           power := { b.power with ch := [], waking := [], lastWake := 0 },
           ev := Events.init, rlog := RLog.init, time := TimeBase.init, obs := Observe.init }

/-- Everything of a block that a record leaves alone: it enters the retention log, the pending queue and the trace. -/
def Block.quiet (b : Block) : Block := { b with ev := Events.init, rlog := RLog.init, obs := Observe.init }

/-- The instance has booted and runs: it is ready, powered, out of reset and clocked (R338, R471). -/
def Block.running (b : Block) : Prop :=
  b.bring.phase = 5 ∧ b.bring.inReset = false ∧ b.power.inst = .on ∧ b.safety.clkHeld = false

/-- No operation of a bank has had its slot behind a turn of its line, and has yet to act on the line. -/
def Block.noneHeld (b : Block) (ch bank : Nat) : Prop := ∀ o ∈ b.ops, o.ch = ch → o.bank = bank → o.stage ≠ .line ∧ o.unread = false

/-- The arbiter of a bank decides in this cycle and gives `slot` to `choice`, under the entry its roster has for the slot; no waiting
operation needs a merge entry drained first, and the slot finds no operation behind a turn, roster error, tag repair or patrol read to
note. -/
def Block.decides (b : Block) (ch bank slot : Nat) (choice : Pick) : Prop :=
  let c := chan b ch
  let r := rosterOf b slot
  let k := bank / 8
  chanOk b ch = true ∧ bank < 64 ∧ banksRun b ch = true ∧ slotNow b bank = some slot ∧ (bankOf c bank).lastSlot ≠ some slot
    ∧ parOk (slotEntry c r k (slot % 256)) = true ∧ (∀ e ∈ c.tagFix, e.2.isEmpty = false) ∧ c.dredge.reads.contains bank = false
    ∧ (∀ o ∈ b.ops, waitsAt b.now ch bank o = true → c.merge.any (entryBefore o) = false)
    ∧ b.noneHeld ch bank
    ∧ pick { b with arb := { b.arb with active := r } } ch bank slot (slotOwner c r k (slot % 256)) (slotOwner c r k ((slot + 1) % 256))
        = choice

/-- `Block.decides` for a line operation of some rank, while no turn of its line is on its way to K. -/
def Block.grants (b : Block) (ch bank slot rank : Nat) (op : LineOp) : Prop :=
  b.decides ch bank slot (.op op rank) ∧ ∀ o ∈ b.ops, o.stage = .chkK → o.ch = ch → o.bank = bank → o.row ≠ op.row

/-- The n-th operation that stands at a check point of the channel in this cycle, where nothing fails the canary's check, and no
operation of the bank waits behind it. -/
def Block.checks (a : Arrays) (b : Block) (ch n : Nat) (op : LineOp) : Prop :=
  chanOk b ch = true ∧ (dueChecks b ch)[n]? = some op ∧ failsNow a b = [] ∧ b.noneHeld ch op.bank

/-- The command at CMDQ_HEAD is `t`, well formed and of this OPC, and it can be taken (R484, R486). -/
def Block.takes (b : Block) (opc : Nat) (t : Taken) : Prop :=
  canTake b = true ∧ t = { idx := b.cmdq.head, dw0 := headDw b 0, dw1 := headDw b 1, dw2 := headDw b 2 }
    ∧ fld t.dw0 0 8 = opc ∧ cmdOk b t (headDw b 3) = true

/-- The block once a command has been taken: CMDQ_HEAD has passed it, and it runs (R481, R486). -/
def Block.taken (b : Block) (t : Taken) : Block :=
  { b with cmdq := { b.cmdq with head := b.cmdq.head + 1, running := b.cmdq.running ++ [t] } }

/-- The row of the management command with an OPC (R483); NOP's takes the reserved ones. `level`, `img` and `err` are what NVM_WRITE
and DUMP_ERASE find. -/
def opcRow (level : BitVec 8) (img : List Byte) (err : Bool) (opc : Nat) : Instr :=
  match opc with
  | 0x01 => .apply | 0x02 => .stepMark | 0x03 => .rosterSelect | 0x08 => .seamAssign | 0x09 => .seamRelease | 0x0A => .sumpValidate
  | 0x10 => .ctxOpen | 0x11 => .ctxReset | 0x12 => .ctxClose | 0x13 => .jobAbort | 0x18 => .chStop | 0x19 => .chStart
  | 0x1A => .chReset | 0x1B => .instReset | 0x1C => .bankRetire | 0x20 => .pwrSet | 0x28 => .sounding | 0x30 => .lcAdvance
  | 0x31 => .nvmWrite level img err | 0x32 => .debugUnlock | 0x33 => .dumpErase level | _ => .nop

/-- The seam that a SEAM command names passes its checks: it is VALID, with PRESENT and no tamper response where it is SECURE, and no
earlier command of it runs (R54, R342, R346). -/
def Block.seamFree (b : Block) (i n : Nat) : Prop :=
  (seamOf b n).valid = true ∧ ((seamOf b n).secure = true → present b = true ∧ b.bring.tamper = false ∧ b.bring.wiping = false)
    ∧ seamBusy b i n = false

/-- The row of a request operation (R83). -/
def reqRow (o : Op) (p : PortId) (r : ReqBeat) : Instr :=
  match o with
  | .rd => .rd p r | .wr => .wr p r | .red => .red p r | .tileRd => .tileRd p r | .tileWr => .tileWr p r | .tileRed => .tileRed p r
  | .gather => .gather p r | .scatter => .scatter p r | .scatterRed => .scatterRed p r | .fence => .fence p r
  | .tallyAcq => .tallyAcq p r | .tallyExt => .tallyExt p r | .tallyRel => .tallyRel p r

end Sys2Proof.Machine

namespace Sys2Proof

/-- The commands that may change the arrays. -/
def Instr.touchesArrays (c : Instr) : Bool :=
  match c with
  | .bankSlotGrant _ _ | .checkPoint _ _ | .dredgeStep _ | .boot _ | .imageEnd _ | .wipeDone | .seedClearDone _ => true
  | _ => false

end Sys2Proof
end

