-- ==== Sys2Proof/Certificates/Slice0/Obligations.lean ====
section
/-! DEFINITION. The statements for the provers. Each names the rules of the manual it states; where a clause rests on a choice of
the model, the log entry is named. A completion statement gives the exact next state: every field that the record update
does not name keeps its value, so it is its own frame. `emit` makes a record, whose effect is `Obligations.RecordEffect`; `pump`, by
which the outstanding requests go on in a tick, has `Obligations.LookAgainFrame`. -/

open Sys2Proof Sys2Proof.Machine

/-! The machine. -/

/-- A step with a command in the queue is that command's effect on the state with the rest of the queue. With nothing in the queue a
port cycle passes: the block ticks, the arrays and the queue stay. The tick is the model's choice (log 2). -/
def Obligations.StepRunsFrontCommand : Prop :=
  (∀ (c : Instr) (rest : List Instr) (s : State), s.pending = c :: rest → step s = exec c { s with pending := rest })
  ∧ ∀ s : State, s.pending = [] → ∃ t, step s = .next t ∧ t.arr = s.arr ∧ t.pending = [] ∧ t.blk.now = s.blk.now + 1

/-- No command changes the queue of the commands that wait behind it. -/
def Obligations.CommandsKeepTheQueue : Prop :=
  ∀ (c : Instr) (s t : State), exec c s = .next t → t.pending = s.pending

/-- A bank slot, a check point, the dredge, boot, the end of an image, and the ends of a wipe and of a seam's clearing may change the
arrays. Every other command leaves every byte of both arrays as it is. -/
def Obligations.OnlySevenCommandsTouchArrays : Prop :=
  ∀ (c : Instr) (s t : State), exec c s = .next t → c.touchesArrays = false →
    t.arr = s.arr ∧ ∀ k, readByte t.arr.mem k = readByte s.arr.mem k ∧ readByte t.arr.tags k = readByte s.arr.tags k

/-- Every step from a safe state that answers a next state answers a safe one: the arrays keep their canonical form. -/
def Obligations.StepKeepsSafe : Prop :=
  ∀ s t : State, s.Safe → step s = .next t → t.Safe

/-- The state after reset is safe. -/
def Obligations.ResetIsSafe : Prop := State.reset.Safe

/-- Every command answers a next state, and one that names a unit the build does not have changes nothing (R489; log 6). -/
def Obligations.EveryCommandCompletes : Prop :=
  ∀ (c : Instr) (s : State), (∃ t, exec c s = .next t) ∧ (Instr.wf s.blk.build c = false → exec c s = .next s)

/-! Frames of the shared operations. -/

/-- A look at the outstanding requests in a tick issues their work, and may wake an idle channel; nothing else of the block changes. -/
def Obligations.LookAgainFrame : Prop :=
  ∀ b : Block, (pump b).still = b.still

/-- A record enters the retention log if its type has one, the pending queue of 64 while it has room, and is counted as lost
otherwise; beside them only the trace may change (R428, R435). In the queue it stands behind every record that arose before it, and
before those of its own cycle that come after it in the order of R424 (the unit that detects a cause is deduced, log 107). -/
def Obligations.RecordEffect : Prop :=
  ∀ (b : Block) (ty : Nat) (ch : Option Nat) (ctx : Option (Nat × BitVec 8)) (p3 p4 p5 p6 : Word),
    let r := mkRecord b ty ch ctx p3 p4 p5 p6
    let t := emit b ty ch ctx p3 p4 p5 p6
    t.quiet = b.quiet
    ∧ t.rlog = (if r.logged then rlogWrite b.rlog r else b.rlog)
    ∧ (b.ev.queue.length < 64 → ∃ l m, b.ev.queue = l ++ m ∧ t.ev = { b.ev with queue := l ++ r :: m }
        ∧ (∀ q ∈ l, recordBefore r q = false) ∧ ∀ q ∈ m.head?, recordBefore r q = true ∧ q.born = b.now)
    ∧ (64 ≤ b.ev.queue.length → t.ev.queue = b.ev.queue ∧ t.ev.lost = satAdd (2 ^ 32 - 1) b.ev.lost 1 ∧ t.ev.lostLast = r.time)

/-- Reset leaves the registers as the manual's register tables have them: HANG_CTL (R71), ARB_CTL (R203), TALLY_CTL (R269),
RECOV_CTL (R407), the pointers of the command queue (R480), the retention log and the event ring empty (R435, R440), every
context CLOSED under shift 0 (R401, R407), every channel stopped with its rosters OPEN (R193, R407), and nothing listed in the arrays.
What the arrays, the internal queues and the kept fields hold at power-on is the model's choice (logs 4, 14, 15). -/
def Obligations.ResetValues : Prop :=
  let b := State.reset.blk
  b.regs.hangCtl = 2000 ∧ b.regs.arbCtl = 0x0000040000000000#64 ∧ b.regs.tallyCtl = 1000 ∧ b.regs.recovCtl = 0x07D00040003C0007#64
  ∧ b.cmdq.head = 0 ∧ b.cmdq.tail = 0 ∧ b.cmdq.cplHead = 0 ∧ b.cmdq.cplTail = 0
  ∧ b.rlog.writeCount = 0 ∧ b.rlog.next = 4 ∧ b.ev.head = 0 ∧ b.ev.tail = 0 ∧ evtOn b.ev = false
  ∧ (∀ c < 64, (ctxOf b c).state = .closed ∧ (ctxOf b c).shift = 0)
  ∧ (∀ n < 8, (chan b n).stopped = true ∧ ∀ r < 4, ∀ k < 8, ∀ slot < 256, slotEntry (chan b n) r k slot = 0x80)
  ∧ (∀ k, readByte State.reset.arr.mem k = 0) ∧ State.reset.pending = []

/-! The data ports. -/

/-- A request beat that a port takes is outstanding from then on with its payload, and no other request comes or goes; the port
takes its next beat in the next cycle (R78, R100). -/
def Obligations.PortTakesRequest : Prop :=
  ∀ (o : Op) (p : PortId) (r : ReqBeat) (s : State),
    portOk s.blk p = true → canAccept s.blk p = true → (outOf s.blk p).reqFree ≤ s.blk.now →
    ∃ t, exec (reqRow o p r) s = .next t ∧ t.arr = s.arr ∧ t.pending = s.pending
      ∧ t.blk.txns.map (fun x => x.uid) = s.blk.txns.map (fun x => x.uid) ++ [freshUid s.blk]
      ∧ (∃ x ∈ t.blk.txns, x.uid = freshUid s.blk ∧ x.org = .loc p ∧ x.op = o ∧ x.req = r ∧ x.acceptedAt = s.blk.now)
      ∧ (outOf t.blk p).reqFree = s.blk.now + 1
      ∧ { t.blk.still with power := s.blk.power } = { s.blk.still with power := s.blk.power }

/-- A request whose context is not open, is FAULTED or stands under another shift is answered with ABORTED and does nothing else:
it is not decoded (R98). The answer is presented two cycles later (R502). -/
def Obligations.ContextCheckAborts : Prop :=
  ∀ (o : Op) (p : PortId) (r : ReqBeat) (s : State),
    portOk s.blk p = true → canAccept s.blk p = true → (outOf s.blk p).reqFree ≤ s.blk.now →
    ((ctxOf s.blk r.ctx.toNat).state ≠ .open ∨ (ctxOf s.blk r.ctx.toNat).shift ≠ r.shift ∨ (ctxOf s.blk r.ctx.toNat).faulted = true) →
    ∃ t, exec (reqRow o p r) s = .next t ∧ t.arr = s.arr ∧ t.blk.ops = s.blk.ops ∧ t.blk.xfers = s.blk.xfers ∧ t.blk.descs = s.blk.descs
      ∧ t.blk.txns = s.blk.txns ++
          [{ newTxn s.blk (freshUid s.blk) (.loc p) o r with phase := .answered .aborted, due := s.blk.now + 2 }]

/-- A request of an open context that breaks a rule of its beat, or carries a reserved operation code, is answered with UNSUP, before its
address is decoded (R97, R99). -/
def Obligations.BadBeatIsUnsupported : Prop :=
  ∀ (o : Op) (p : PortId) (r : ReqBeat) (s : State),
    portOk s.blk p = true → canAccept s.blk p = true → (outOf s.blk p).reqFree ≤ s.blk.now →
    ctxOpen s.blk r.ctx.toNat r.shift = true → (beatOk p.port o r = false ∨ (reservedCode r).isSome = true) →
    ∃ t, exec (reqRow o p r) s = .next t ∧ t.arr = s.arr ∧ t.blk.ops = s.blk.ops ∧ t.blk.xfers = s.blk.xfers ∧ t.blk.descs = s.blk.descs
      ∧ t.blk.txns = s.blk.txns ++
          [{ newTxn s.blk (freshUid s.blk) (.loc p) o r with phase := .answered .unsup, due := s.blk.now + 2 }]

/-- A request that keeps the rules of its beat is decoded in the cycle after its acceptance (R100), and starts there where nothing stands in
its way: nothing else outstanding, no tally, no handshake, no CH_STOP, and its channel runs. A FENCE waits for its scope (R106); a
range operation goes to its lines (R86), a tally operation sets out for the tally logic by the path of a write to its line (R253),
and a descriptor operation of the port's own channel is queued at its lane or gather unit (R137, R172). -/
def Obligations.RequestStarts : Prop :=
  (∀ (o : Op) (p : PortId) (r : ReqBeat) (s : State),
    portOk s.blk p = true → canAccept s.blk p = true → (outOf s.blk p).reqFree ≤ s.blk.now →
    ctxOpen s.blk r.ctx.toNat r.shift = true → reservedCode r = none → beatOk p.port o r = true →
    (o.isTally = true → instOf r.addr = s.blk.cw.instNum) →
    ∃ t, exec (reqRow o p r) s = .next t ∧ t.arr = s.arr ∧ t.blk.ops = s.blk.ops ∧ t.blk.xfers = s.blk.xfers ∧ t.blk.descs = s.blk.descs
      ∧ t.blk.txns = s.blk.txns ++ [{ newTxn s.blk (freshUid s.blk) (.loc p) o r with
          phase := if o = .fence then .waiting .fence else .waiting .decode }])
  ∧ ∀ (b : Block) (x : Txn) (p : PortId) (n : Nat),
    let c := chanAt b n (localOf x.req.addr)
    b.txns = [x] → x.org = .loc p → x.phase = .waiting .decode → x.acceptedAt < b.now → x.op ≠ .fence → x.wbeats = [] →
    x.gotLast = false → x.mismatch = false → x.unlocked = false → b.tallies = [] → b.power.hs = none → b.recov.stopWait = [] →
    (chan b c).stopped = false → (chan b c).recov = none → chPower b c = .run →
    instOf x.req.addr = b.cw.instNum → localOf x.req.addr < Config.sumpBase → decodeReq b x.op x.req = .seam n →
    ∃ y, (pump (decodeAll b)).txns = [y] ∧ y.uid = x.uid ∧ y.org = x.org ∧ y.op = x.op ∧ y.req = x.req
      ∧ y.phase = .active ∧ y.seam = some n
      ∧ (x.op.isRange = true → y.total = (reqLines x.req).length)
      ∧ (x.op.isTally = true → (y.total = 1 ∧ y.due = b.now + 2) ∨ ∃ v ∈ (pump (decodeAll b)).xfers, v.payload = .tally x.uid)
      ∧ (x.op.isDesc = true → p.ch = c → ∃ d ∈ (pump (decodeAll b)).descs, d.uid = x.uid ∧ d.ch = c)

/-- A write data beat joins the oldest request of its port that still owes data, unless the request is answered, held or wrong
(R88 to R91); the port takes its next beat in the next cycle (R78). -/
def Obligations.WriteBeatJoins : Prop :=
  ∀ (p : PortId) (w : WBeat) (s : State) (x : Txn),
    portOk s.blk p = true → portClk s.blk p = true → p.port ≠ .I0 → (outOf s.blk p).wdatFree ≤ s.blk.now →
    (portTxns s.blk p).find? (fun x => x.op.hasData && !x.gotLast) = some x →
    x.mismatch = false → (x.phase = .active ∨ ∃ h, x.phase = .waiting h) → beatBreaksRed x x.wbeats.length w = false →
    (∀ e, beatsDue x = some e → (w.last = true ↔ x.wbeats.length + 1 = e)) →
    ∃ t y, exec (.wdatBeat p w) s = .next t ∧ t.arr = s.arr ∧ t.pending = s.pending
      ∧ y ∈ t.blk.txns ∧ y.uid = x.uid ∧ y.wbeats = x.wbeats ++ [w] ∧ y.gotLast = w.last
      ∧ (w.last = true → y.lastAt = s.blk.now)
      ∧ (outOf t.blk p).wdatFree = s.blk.now + 1
      ∧ t.blk.still = s.blk.still

/-- Responses transfer. The read beat that stands presented transfers as it is (R78); with none presented, the port presents and
transfers the next beat of the response whose turn it is (R95, R101). A write response transfers, and its request's place is free (R78,
R93, R100). -/
def Obligations.ResponsesTransfer : Prop :=
  (∀ (p : PortId) (id : BitVec 8) (s : State), portOk s.blk p = true → portClk s.blk p = true →
    ((outOf s.blk p).rdat = none ∨ (outOf s.blk p).rdatAt < s.blk.now) →
    (∀ u b, (outOf s.blk p).rdatHeld = some (u, b) → b.id = id →
      ∃ t, exec (.rdatBeat p id) s = .next t ∧ t.arr = s.arr ∧ t.pending = s.pending
        ∧ (outOf t.blk p).rdat = some b ∧ (outOf t.blk p).rdatAt = s.blk.now ∧ (outOf t.blk p).rdatHeld = none)
    ∧ (∀ x, (outOf s.blk p).rdatHeld = none → offers s.blk p (fun x => x.req.id == id) = some x →
      ∃ t, exec (.rdatBeat p id) s = .next t ∧ t.arr = s.arr ∧ t.pending = s.pending
        ∧ (outOf t.blk p).rdat = some (beatOut s.blk x) ∧ (outOf t.blk p).rdatAt = s.blk.now
        ∧ ((beatOut s.blk x).last = true → (outOf t.blk p).current = none ∧ ∀ y ∈ t.blk.txns, y.uid ≠ x.uid)
        ∧ ((beatOut s.blk x).last = false → (outOf t.blk p).current = some x.uid)))
  ∧ ∀ (p : PortId) (id : BitVec 8) (s : State) (x : Txn) (st : Status), portOk s.blk p = true → portClk s.blk p = true →
    ((outOf s.blk p).wrsp = none ∨ (outOf s.blk p).wrspAt < s.blk.now) → (outOf s.blk p).wrspHeld = none →
    (portTxns s.blk p).find? (fun x => x.req.id == id && (wrspReady s.blk x).isSome) = some x → wrspReady s.blk x = some st →
    ∃ t, exec (.wrspTransfer p id) s = .next t ∧ t.arr = s.arr ∧ t.pending = s.pending
      ∧ (outOf t.blk p).wrsp = some { id := x.req.id, status := st, shift := x.req.shift }
      ∧ (outOf t.blk p).wrspAt = s.blk.now ∧ ∀ y ∈ t.blk.txns, y.uid ≠ x.uid

/-- A FENCE whose earlier operations in scope have all presented their final responses is answered OKAY, in the next cycle at the
earliest (R106); nothing else changes. -/
def Obligations.FenceCompletes : Prop :=
  ∀ (p : PortId) (id : BitVec 8) (s : State) (f : Txn), portOk s.blk p = true →
    (portTxns s.blk p).find? (fun x => x.op == .fence && x.req.id == id && x.phase == .waiting .fence) = some f →
    (fenceDone s.blk f = true →
      exec (.fenceComplete p id) s = .next { s with blk := answer s.blk f.uid .okay (max (s.blk.now + 1) (f.acceptedAt + 2)) })
    ∧ (fenceDone s.blk f = false → exec (.fenceComplete p id) s = .next s)


/-! Paths, banks, check points and the merge buffer. -/

/-- The transfer that a path's decision gives the grant passes: the path is busy for its beats and parked on its source. Behind a
spine input its lines reach their cluster two cycles later, two lines a beat; a line behind an X0 egress, whose beat no other line of
its request shares here, bids for the bridge output of its channel two cycles later, with its own channel as its source; behind a bridge
output its lines are two cycles from stage F (R111 to R113). A line carries its wait count on (R202), and the cycle that a transfer
from another source waits at an idle path is counted as parking (R114). A path that gives no grant changes nothing. -/
def Obligations.PathGrantPasses : Prop :=
  (∀ (p : PathId) (s : State), pathOk s.blk p = true → pathPick s.blk p = none → exec (.pathGrant p) s = .next s)
  ∧ ∀ (p : PathId) (s : State) (x : Xfer), pathOk s.blk p = true → pathPick s.blk p = some x →
    let b := s.blk
    let st := pathOf b p
    let more := (pathNext b p).isNone && x.cls != 0 && x.beats == 1
    let paths := aset b.paths p { st with last := some x.src, freeAt := b.now + max 1 x.beats, cont := if more then x.uid else none }
    let left := b.xfers.filter (fun y => y.serial != x.serial || decide (y.path ≠ x.path))
    let wait := x.waited + (b.now - x.readyAt)
    let park := if x.readyAt + 1 = b.now ∧ st.freeAt ≤ x.readyAt ∧ st.last ≠ some x.src then 1 else 0
    let line (op : LineOp) : LineOp := { op with park := op.park + park, waited := wait, reported := x.reported }
    (∀ ch k l, p = .spine ch k → x.path = p → x.payload = .lines l → ∃ c, exec (.pathGrant p) s = .next { s with blk := c }
      ∧ c.paths = paths ∧ c.xfers = left
      ∧ c.ops = b.ops ++ l.zipIdx.map (fun e => { line e.1 with
          readyAt := max (b.now + e.2 / 2) e.1.readyAt + 2
          stage := match e.1.kind with | .write => if isNarrow e.1.be e.1.wp then .merge else .chkE | _ => .bank })
      ∧ c.txns.map (fun y => y.uid) = b.txns.map (fun y => y.uid)
      ∧ { c with ops := b.ops, xfers := b.xfers, paths := b.paths, txns := b.txns } = b)
    ∧ (∀ ch op, p = .x0e ch → x.path = p → x.payload = .lines [op] → beatPast b (.brX0 op.ch) op = false →
        b.xfers.any (beatMate (.brX0 op.ch) { op with readyAt := max b.now op.readyAt + 2 }) = false →
        ∃ c v, exec (.pathGrant p) s = .next { s with blk := c } ∧ c.paths = paths ∧ c.xfers = left ++ [v] ∧ c.ops = b.ops
          ∧ v.path = .brX0 op.ch ∧ v.src = ch ∧ v.org = op.org ∧ v.cls = op.cls ∧ v.qos = op.qos ∧ v.beats = 1 ∧ v.waited = wait
          ∧ v.readyAt = max b.now op.readyAt + 2 ∧ v.payload = .lines [{ line op with readyAt := max b.now op.readyAt + 2 }])
    ∧ (∀ ch l, p = .brX0 ch → x.path = p → x.payload = .lines l → ∃ c, exec (.pathGrant p) s = .next { s with blk := c }
      ∧ c.paths = paths ∧ c.xfers = left
      ∧ c.ops = b.ops ++ l.zipIdx.map (fun e => { line e.1 with readyAt := max (b.now + e.2 / 2) e.1.readyAt + 2, stage := .fwd })
      ∧ c.txns.map (fun y => y.uid) = b.txns.map (fun y => y.uid)
      ∧ { c with ops := b.ops, xfers := b.xfers, paths := b.paths, txns := b.txns } = b)

/-- A read, a descriptor fetch or an index read that a bank's slot is given to goes on to stage C, four cycles after P, with the line
as it is stored, the merge buffer's entry laid over it, and the words that the slot before has just written marked as collided
(R109, R115, R234). The arrays keep every byte. The line holds no word in error here; what a read notes then is
R229's. -/
def Obligations.SlotReadsLine : Prop :=
  ∀ (s : State) (ch bank slot rank : Nat) (op : LineOp), s.blk.grants ch bank slot rank op →
    (op.kind = .read ∨ op.kind = .desc ∨ op.kind = .index) →
    let ds := opLine s.arr s.blk op
    (∀ d ∈ ds, d.verdict = .clean) →
    let coll := fresherWords (bankOf (chan s.blk ch) bank) slot op
    let v := withMerge s.blk op.ch op.line (lineData ds) (badWords ds)
    ∃ c, exec (.bankSlotGrant ch bank) s = .next { s with blk := c }
      ∧ c.ops = s.blk.ops.filter (fun o => o.serial != op.serial) ++
          [{ op with
              stage := .ret, readyAt := phaseEnd s.blk op + 4, data := freeWords s.blk coll v.1, wp := v.2, coll := coll
              back := backHops s.blk op, grantAt := s.blk.now, unread := false }]
      ∧ (let m := bankOf (chan c ch) bank
         m.lastSlot = some slot ∧ m.lastAt = s.blk.now ∧ m.lastSrc = some op.src ∧ m.wroteRow = op.row ∧ m.wroteWords = 0)
      ∧ (chan c ch).grants = (chan s.blk ch).grants + 1 ∧ (chan c ch).merge = (chan s.blk ch).merge
      ∧ { c with chans := s.blk.chans, ops := s.blk.ops, obs := s.blk.obs, free := s.blk.free } = s.blk

/-- A committed write that a bank's slot is given to stores its words: each word that it enables, with fresh check bits, or the
poison pattern where it is poisoned (R115, R222, R224). Every other byte of both arrays stays, and the line is
acknowledged to its request. No zero tag has been set past it here. -/
def Obligations.SlotStoresLine : Prop :=
  ∀ (s : State) (ch bank slot rank : Nat) (op : LineOp), s.blk.grants ch bank slot rank op → op.kind = .write → op.stage = .store →
    op.old = false → s.blk.zeroLines.contains (lineKey op.ch op.bank op.row) = false →
    let key := servedKey s.blk op.ch op.bank op.row
    let stores (k : Nat) : Bool := bit op.wp k || wordAny op.be k
    let hops := retHops op.org op.ch (opCluster op)
    ∃ a c, exec (.bankSlotGrant ch bank) s = .next { s with arr := a, blk := c } ∧ a.tags = s.arr.tags
      ∧ (∀ k, k < 16 → stores k = true → readWord a.mem (key + 16 * k) = storeWord (bit op.wp k) (lineWord (overlay 0 op.data op.be) k))
      ∧ (∀ i, (∀ k, k < 16 → stores k = true → i < key + 16 * k ∨ key + 16 * k + 9 ≤ i) → readByte a.mem i = readByte s.arr.mem i)
      ∧ c.ops = s.blk.ops.filter (fun o => o.serial != op.serial)
      ∧ c.txns = (ackLine s.blk op (max (op.readyAt + 2) (s.blk.now + 1) + hops) (writeLat op.org op.ch (opCluster op) false) false).txns
      ∧ (bankOf (chan c ch) bank).lastSlot = some slot ∧ (bankOf (chan c ch) bank).wroteWords = changedWords op
      ∧ { c with chans := s.blk.chans, ops := s.blk.ops, obs := s.blk.obs, txns := s.blk.txns } = s.blk

/-- A reduce turn that a bank's slot is given to reads its line and stands at check point K six cycles after P; it has stored nothing
yet (R153). The line holds no word in error here. -/
def Obligations.SlotStartsTurn : Prop :=
  ∀ (s : State) (ch bank slot rank r : Nat) (op : LineOp), s.blk.grants ch bank slot rank op → op.kind = .reduce r → op.stage = .bank →
    (∀ d ∈ opLine s.arr s.blk op, d.verdict = .clean) →
    ∃ c, exec (.bankSlotGrant ch bank) s = .next { s with blk := c }
      ∧ c.ops = s.blk.ops.map (fun o => if o.serial = op.serial then
          { op with
            stage := .chkK, readyAt := phaseEnd s.blk op + 6, grantAt := s.blk.now, unread := false
            coll := fresherWords (bankOf (chan s.blk ch) bank) slot op } else o)
      ∧ (bankOf (chan c ch) bank).lastSlot = some slot ∧ (bankOf (chan c ch) bank).wroteWords = 0xFFFF#16
      ∧ { c with chans := s.blk.chans, ops := s.blk.ops, obs := s.blk.obs } = s.blk

/-- A write at check point E. Passed, it commits: it stands at the array input register one cycle later, with nothing else of the block
changed where the merge buffer has no entry of its line, and with that entry draining where it has one (R115, R160, R233). Rejected
by the fence of its tripped context, it is dropped: nothing is stored, and it is acknowledged as rejected (R163, R164). -/
def Obligations.WriteAtCheckPointE : Prop :=
  ∀ (s : State) (ch n : Nat) (op : LineOp), s.blk.checks s.arr ch n op → op.stage = .chkE → op.kind = .write →
    (rejected s.blk op (some (opCluster op)) = false →
      ∃ c, exec (.checkPoint ch n) s = .next { s with blk := c }
        ∧ (∃ o ∈ c.ops, o = { op with stage := .store, readyAt := s.blk.now + 1 })
        ∧ (mergeFind (chan s.blk op.ch) op.line = none →
            c.ops = s.blk.ops.map (fun o => if o.serial = op.serial then { op with stage := .store, readyAt := s.blk.now + 1 } else o)
            ∧ { c with ops := s.blk.ops, obs := s.blk.obs } = s.blk)
        ∧ (∀ e, mergeFind (chan s.blk op.ch) op.line = some e → e.draining = false →
            ∃ m ∈ (chan c op.ch).merge, m.serial = e.serial ∧ m.draining = true))
    ∧ (rejected s.blk op (some (opCluster op)) = true →
      ∃ c, exec (.checkPoint ch n) s = .next { s with blk := c }
        ∧ c.ops = s.blk.ops.filter (fun o => o.serial != op.serial) ∧ c.txns = (ackOp s.blk op true).txns
        ∧ { c with ops := s.blk.ops, obs := s.blk.obs, txns := s.blk.txns } = s.blk)

/-- A reduce turn that passes check point K stores the line of its results, element by element, with a word poisoned where it was or
where the turn's word is; every byte outside the line stays, and the turn is acknowledged (R149 to R153). No zero tag stands over the
line, or has been set past the turn, here. -/
def Obligations.TurnStoresAtK : Prop :=
  ∀ (s : State) (ch n r : Nat) (op : LineOp), s.blk.checks s.arr ch n op → op.stage = .chkK → op.kind = .reduce r → op.old = false →
    rejected s.blk op (some (opCluster op)) = false → s.blk.zeroLines.contains (lineKey op.ch op.bank op.row) = false →
    let key := servedKey s.blk op.ch op.bank op.row
    let v := checkValue s.arr s.blk op
    ∃ a c, exec (.checkPoint ch n) s = .next { s with arr := a, blk := c } ∧ a.tags = s.arr.tags
      ∧ (∀ k, k < 16 → readWord a.mem (key + 16 * k) = storeWord (bit v.2 k) (lineWord v.1 k))
      ∧ (∀ i, (i < key ∨ key + 256 ≤ i) → readByte a.mem i = readByte s.arr.mem i)
      ∧ c.ops = s.blk.ops.filter (fun o => o.serial != op.serial) ∧ c.txns = (ackOp s.blk op false).txns
      ∧ { c with ops := s.blk.ops, obs := s.blk.obs, txns := s.blk.txns } = s.blk

/-- A zero-line write at check point F sets its line's tag and stores nothing in the array (R181); the operations of the line past stage
F lie behind the tag from then on (R183). No write has taken the line's zeros here. -/
def Obligations.ZeroWriteSetsTag : Prop :=
  ∀ (s : State) (ch n : Nat) (op : LineOp), s.blk.checks s.arr ch n op → op.stage = .chkF →
    rejected s.blk op (some (opCluster op)) = false → op.noTag = false →
    s.blk.zeroLines.contains (lineKey op.ch op.bank op.row) = false →
    let key := tagKey op.ch op.row
    let d := (tagDecode s.arr op.ch op.row).data ||| (1#64 <<< op.bank)
    ∃ a c, exec (.checkPoint ch n) s = .next { s with arr := a, blk := c } ∧ a.mem = s.arr.mem
      ∧ readWord a.tags key = (d, eccEncode d)
      ∧ (∀ i, (i < key ∨ key + 9 ≤ i) → readByte a.tags i = readByte s.arr.tags i)
      ∧ c.ops = (s.blk.ops.filter (fun o => o.serial != op.serial)).map (fun o =>
          if o.stage ≠ .fwd ∧ o.ch = op.ch ∧ o.bank = op.bank ∧ o.row = op.row then { o with old := true } else o)
      ∧ c.zeroLines = s.blk.zeroLines

/-- A value that fails the check while its context's flag is 0 trips: the flag of that context is set, no other, and the site holds
the place (R161, R165). Of several in one cycle the lowest place counts; here there is one. -/
def Obligations.CanaryTrips : Prop :=
  ∀ (s : State) (ch n point e cause : Nat) (op : LineOp), chanOk s.blk ch = true →
    failsNow s.arr s.blk = [(op, point, e, cause)] → bit s.blk.regs.canaryFlag op.ctx = false → (∀ k, s.blk.noneHeld ch k) →
    ∃ t, exec (.checkPoint ch n) s = .next t
      ∧ t.blk.regs = { s.blk.regs with canaryFlag := s.blk.regs.canaryFlag ||| (1#64 <<< op.ctx) }
      ∧ (ctxOf t.blk op.ctx).site = siteWord op point e cause
      ∧ ∀ c, c ≠ op.ctx → ctxOf t.blk c = ctxOf s.blk c

/-- A narrow write enters the merge buffer: into a free entry where the buffer holds none of its line, which commits the elements it
enables in full; or into the entry of its line and context (R230 to R232). It is acknowledged three cycles later (R115). An entry of
the line of another context starts to drain, and the write waits (R233). One write stands at the buffer here, of a seam that is not
watched (the canary's checks are R158's), and its bank is not being quiesced.
64 cycles after its allocation an entry that still waits starts to drain, as a write where its words are all enabled in full and
else as a turn of its line; before that nothing happens (R233). No zero tag stands over its line here, and nothing joins it in this
cycle. -/
def Obligations.MergeBufferWorks : Prop :=
  (∀ (s : State) (ch n : Nat) (op : LineOp), chanOk s.blk ch = true → dueMerges s.blk ch = [op] → failsNow s.arr s.blk = [] →
    watched s.blk op = false →
    let c := chan s.blk op.ch
    (isNarrow op.be op.wp = true → (c.spare.phase ≠ 1 ∨ c.spare.bank ≠ op.bank) → mergeFind c op.line = none → c.merge.length < 32 →
      ∃ b e, exec (.mergeBufferEntry ch n) s = .next { s with blk := b } ∧ (chan b op.ch).merge = c.merge ++ [e]
        ∧ e.line = op.line ∧ e.bank = op.bank ∧ e.row = op.row ∧ e.ctx = op.ctx ∧ e.alloc = s.blk.now ∧ e.draining = false
        ∧ e.data = op.data &&& spread op.be ∧ e.mask = op.be ∧ e.wp = op.wp ∧ e.checked = fullElems op.fmt op.be
        ∧ b.ops = s.blk.ops.filter (fun o => o.serial != op.serial) ∧ b.txns = (ackOp s.blk op false).txns)
    ∧ (∀ e, mergeFind c op.line = some e → e.ctx = op.ctx → e.draining = false → drainsNow c (mergeInto op e) = false →
        (∀ m ∈ c.merge, m.serial = e.serial → m = e) →
        ∃ b, exec (.mergeBufferEntry ch n) s = .next { s with blk := b }
          ∧ (chan b op.ch).merge = c.merge.map (fun m => if m.serial = e.serial then mergeInto op e else m)
          ∧ b.ops = s.blk.ops.filter (fun o => o.serial != op.serial) ∧ b.txns = (ackOp s.blk op false).txns)
    ∧ (∀ e, mergeFind c op.line = some e → e.ctx ≠ op.ctx → e.draining = false →
        ∃ b, exec (.mergeBufferEntry ch n) s = .next { s with blk := b } ∧ op ∈ b.ops
          ∧ ∃ m ∈ (chan b op.ch).merge, m.serial = e.serial ∧ m.draining = true))
  ∧ ∀ (s : State) (ch n : Nat) (e : MergeEntry), chanOk s.blk ch = true → (chan s.blk ch).merge[n]? = some e → e.draining = false →
    (s.blk.now < e.alloc + 64 → exec (.mergeWindowExpiry ch n) s = .next s)
    ∧ (e.alloc + 64 ≤ s.blk.now → failsNow s.arr s.blk = [] → (∀ op ∈ dueMerges s.blk ch, op.line ≠ e.line) →
        (∀ m ∈ (chan s.blk ch).merge, m.serial = e.serial → m = e) → tagSeen s.arr s.blk ch e.bank e.row = false →
        s.blk.zeroLines.contains (lineKey ch e.bank e.row) = false →
        ∃ t o, exec (.mergeWindowExpiry ch n) s = .next t ∧ t.arr = s.arr ∧ t.blk.ops = s.blk.ops ++ [o]
          ∧ o.kind = .drain ∧ o.ch = ch ∧ o.bank = e.bank ∧ o.row = e.row ∧ o.line = e.line ∧ o.data = e.data ∧ o.be = e.mask
          ∧ o.wp = e.wp ∧ o.ctx = e.ctx ∧ o.org = e.org ∧ o.id = e.id ∧ o.no = e.serial ∧ o.readyAt = s.blk.now + 1
          ∧ o.stage = (if entryFull e then .chkE else .bank)
          ∧ (∃ m ∈ (chan t.blk ch).merge, m.serial = e.serial ∧ m.draining = true)
          ∧ { t.blk with ops := s.blk.ops, chans := s.blk.chans, obs := s.blk.obs, serial := s.blk.serial } = s.blk)

/-! Tile lanes and gather units. -/

/-- A fetched descriptor at the head of its lane or unit is checked. A malformed one performs nothing: its request is answered with
UNSUP and leaves the lane, two cycles later at the earliest. One of a port of this instance whose ranges do not decode holds its
request unanswered. A good one begins its expansion two cycles later (R138, R143, R173). An index line that a gather unit waits for is taken,
and the rows behind it may issue in the next cycle (R178). The unit takes no index line again. -/
def Obligations.DescriptorsRun : Prop :=
  (∀ (s : State) (ch n : Nat) (d : DescOp) (x : Txn), chanOk s.blk ch = true → (readyDescs s.blk ch)[n]? = some d →
    txnOf s.blk d.uid = some x → x.uid = d.uid →
    let ok := !d.bad && (if x.op.isGather then gatherFieldsOk d.desc x.req.ff else tileFieldsOk x.op (reqRedop x.req) d.desc)
    let plan := if x.op.isGather || !ok then [] else tilePlan x.op (reqWidth x) (tileOf d.desc)
    let v := if x.op.isGather then gatherVerdict s.blk x d else tileVerdict s.blk x d plan
    ∃ c, exec (.descriptorReady ch n) s = .next { s with blk := (laneFetch c d.ch d.lane) }
      ∧ (v = .malformed → c.descs = s.blk.descs.filter (fun e => decide (e.uid ≠ d.uid))
          ∧ ∃ due, s.blk.now + 2 ≤ due ∧ c.txns = (answer s.blk d.uid .unsup due).txns)
      ∧ (v = .held → (∃ p, x.org = .loc p) → c.descs = s.blk.descs.filter (fun e => decide (e.uid ≠ d.uid))
          ∧ c.txns = (setTxn s.blk d.uid (fun y => { y with phase := .decodeHeld 4 })).txns)
      ∧ (v = .go → ∃ start, s.blk.now + 2 ≤ start
          ∧ c.descs = (setDesc s.blk d.uid (fun e => { e with stage := .expanding, readyAt := start, snap := (ctxOf s.blk x.req.ctx.toNat).rng, plan := plan })).descs
          ∧ (c.txns.map (fun y => y.uid) = s.blk.txns.map (fun y => y.uid)))
      ∧ c.ops = s.blk.ops ∧ c.xfers = s.blk.xfers ∧ c.chans = s.blk.chans)
  ∧ ∀ (s : State) (ch n : Nat) (d : DescOp), chanOk s.blk ch = true → (indexDescs s.blk ch)[n]? = some d →
    ∃ c, exec (.indexLineReady ch n) s = .next { s with blk := (descRun c d.uid) }
      ∧ c.descs = s.blk.descs.map (fun e => if e.uid = d.uid then { e with next := e.next + 1 } else e)
      ∧ { c with descs := s.blk.descs } = s.blk

/-! Tallies. -/

/-- The lease of a granted tally starts once no work of another context on its lines is on the way, and its acquire is answered:
BROKEN over a mark, which it clears, else OKAY; until then nothing happens (R253, R266). A held tally is lost when its lease has run
out, with its record, and its lines are free for the waiting ones, of which its channel has none here; before that it stays (R263). A
tally that waits longer than WAIT_REPORT µs makes one record, which names the tally it waits on; a WAIT_REPORT of 0 makes none
(R264). -/
def Obligations.TallyTimersRun : Prop :=
  ∀ (s : State) (i : Nat) (e : Tally), tallyAt s.blk i = some e →
    (∀ x, e.granting = true → txnOf s.blk e.uid = some x →
      (spanBusy s.blk e = true → exec (.leaseStart i) s = .next { s with blk := s.blk })
      ∧ (spanBusy s.blk e = false →
          let l := locOf s.blk.build (seamOf s.blk (x.seam.getD 0)) e.line
          let broken := s.blk.marks.any (fun m => spansMeet m.line m.span e.line e.span)
          exec (.leaseStart i) s = .next { s with blk := ({ s.blk with
            marks := s.blk.marks.filter (fun m => !spansMeet m.line m.span e.line e.span)
            tallies := s.blk.tallies.map (fun t => if t.idx = i then { t with granting := false } else t)
            txns := s.blk.txns.map (fun y => if y.uid = x.uid then answerTxn (if broken then .broken else .okay) (tallyDue s.blk x l.ch (l.bank / 8)) y else y) }) }))
    ∧ (e.state = .held →
      (usDue s.blk e.leaseUs e.lease = false → exec (.tallyLeaseExpiry i) s = .next { s with blk := s.blk })
      ∧ (usDue s.blk e.leaseUs e.lease = true → (∀ w ∈ s.blk.tallies, w.state = .waiting → w.ch ≠ e.ch) →
          ∃ c o, exec (.tallyLeaseExpiry i) s = .next { s with blk := { c with obs := o } }
            ∧ c = emit { s.blk with tallies := s.blk.tallies.map (fun t => if t.idx = i then { t with state := .lost } else t) } 0x30
                (some e.ch) (some (e.ctx, e.shift)) (spanWord e.line e.span)))
    ∧ (∀ x k, e.state = .waiting → txnOf s.blk e.uid = some x → blocker s.blk x.org e.ctx e.line e.span = some k → k.idx ≠ i →
      let l := fld s.blk.regs.tallyCtl 0 16
      ((l = 0 ∨ usDue s.blk e.fromUs l = false ∨ e.waitReported = true) → exec (.tallyWait (.entry i)) s = .next s)
      ∧ (l ≠ 0 → usDue s.blk e.fromUs l = true → e.waitReported = false →
          exec (.tallyWait (.entry i)) s = .next { s with blk := (
            emit { s.blk with tallies := s.blk.tallies.map (fun t => if t.idx = i then { t with waitReported := true } else t) } 0x31
              (some e.ch) (some (e.ctx, e.shift)) (put 0 35 e.line ||| put 36 4 (min 16 e.span - 1) ||| put 40 6 k.ctx ||| put 48 4 x.org.code)) }))

/-! Arbitration. -/

/-- The four windows of arbitration turn over when they are due and not before: a rotation of 256 bank cycles, with the roster switch
that is due (R190, R217, R218); the budget window of its rotations, which clears the budgets (R200, R204); the conflict
window, which clears the conflict counts of the window (R65); the correction window, counted in REF_AON edges, which clears the
correction counts (R244).
Nothing else of the block changes. -/
def Obligations.WindowsTurnOver : Prop :=
  ∀ s : State,
    let b := s.blk
    (let next := b.arb.rotation + 1
     let due := switchDue b (bankStart b (next * 256))
     let arb : Arb := { b.arb with
       rotation := next, active := if due then b.arb.pend.getD b.arb.active else b.arb.active, pend := if due then none else b.arb.pend }
     (b.arb.fresh = false → next * 256 ≤ b.arb.bankCycles → exec .rotationStart s = .next { s with blk := { b with arb := arb } })
     ∧ (b.arb.bankCycles < next * 256 → exec .rotationStart s = .next { s with blk := b }))
    ∧ (let n := fld b.regs.bgBudgetA 56 8 + 1
       (b.arb.budgetRot + n ≤ b.arb.rotation → ∃ t, exec .budgetWindowStart s = .next t
          ∧ (∀ ch, (chan t.blk ch) = { chan b ch with budget := [], starveRep := [] })
          ∧ t.blk.arb = { b.arb with budgetRot := b.arb.rotation, cwStarveRep := false }
          ∧ { t with blk := { t.blk with chans := b.chans, arb := b.arb } } = s)
       ∧ (b.arb.rotation < b.arb.budgetRot + n → exec .budgetWindowStart s = .next s))
    ∧ ((b.arb.fresh = false → b.arb.confFrom + b.arb.confLen ≤ b.arb.bankCycles → ∃ t, exec .conflictWindowEnd s = .next t
          ∧ (∀ ch, (chan t.blk ch) = { chan b ch with confWin := [], confBank := [], confRep := [] })
          ∧ t.blk.arb = { b.arb with confFrom := b.arb.confFrom + b.arb.confLen, confLen := max 1 (fld b.regs.conflictCtl 0 20) }
          ∧ { t with blk := { t.blk with chans := b.chans, arb := b.arb } } = s)
       ∧ (b.arb.bankCycles < b.arb.confFrom + b.arb.confLen → exec .conflictWindowEnd s = .next s))
    ∧ (let due := b.arb.ceFrom + b.arb.ceLen * 100000000
       let cycle := b.now / Config.refCycles
       (isReady b = true → due ≤ cycle → ∃ t, exec .ceWindowStart s = .next t
          ∧ (∀ ch k, bankOf (chan t.blk ch) k = { bankOf (chan b ch) k with ceWin := 0 })
          ∧ t.blk.arb = { b.arb with ceFrom := due, ceLen := max 1 (fld b.regs.ceCtl 16 16) }
          ∧ (∀ ch, { chan t.blk ch with banks := (chan b ch).banks } = chan b ch)
          ∧ { t with blk := { t.blk with chans := b.chans, arb := b.arb } } = s)
       ∧ (cycle < due → exec .ceWindowStart s = .next s))

/-- The reports of arbitration, each one record where it is due and not made yet, and nothing otherwise: a port whose lost slots reach the
threshold of its window (R65), a step that has lasted longer than its limit (R220), and an operation that waits at a bank for
its limit (R204, R205), whose channel and source have not reported in this budget window. -/
def Obligations.ArbitrationReports : Prop :=
  (∀ (s : State) (p : PortId), chanOk s.blk p.ch = true →
    let c := chan s.blk p.ch
    let k := portCode p.port
    let due := bit s.blk.regs.conflictCtl 24 && decide (max 1 (fld s.blk.regs.conflictCtl 32 20) ≤ tget 0 c.confWin k) && !c.confRep.contains k
    (due = true → exec (.conflictStorm p) s = .next { s with blk :=
        (emit (setChan s.blk p.ch (fun c => { c with confRep := c.confRep ++ [k] })) 0x12 (some p.ch) none
          (put 0 4 k ||| put 4 6 (tget 0 c.confBank k))) })
    ∧ (due = false → exec (.conflictStorm p) s = .next s))
  ∧ (∀ (s : State) (us : Nat) (at_ : Word), s.blk.arb.stepFrom = some (us, at_) →
    let l := fld s.blk.regs.stepCtl 0 32
    (l ≠ 0 → s.blk.arb.stepReported = false → usDue s.blk us l = true →
      exec .stepLong s = .next { s with blk :=
        (emit { s.blk with arb := { s.blk.arb with stepReported := true } } 0x19 none none at_ (put 0 32 l)) })
    ∧ ((l = 0 ∨ s.blk.arb.stepReported = true ∨ usDue s.blk us l = false) → exec .stepLong s = .next s))
  ∧ (∀ (s : State) (ch n : Nat) (op : LineOp), chanOk s.blk ch = true → (bankWaiters s.blk ch)[n]? = some op →
    let src := min 8 op.src
    let limit := if starveForces s.blk then 2 * starveLimit s.blk else starveLimit s.blk
    ((opOwned s.blk op = true ∨ op.reported = true ∨ opWait s.blk op < limit) → exec (.starve (.bank ch n)) s = .next s)
    ∧ (opOwned s.blk op = false → op.reported = false → limit ≤ opWait s.blk op → (chan s.blk ch).starveRep.contains src = false →
      ∃ c, exec (.starve (.bank ch n)) s = .next { s with blk :=
          (emit c 0x13 (some ch) none (put 8 3 (opCluster op) ||| put 0 4 src ||| put 4 3 op.cls ||| put 32 14 (min 8192 (opWait s.blk op)))) }
        ∧ (chan c ch).starved = (chan s.blk ch).starved ||| (1#9 <<< src) ∧ (chan c ch).starveRep = (chan s.blk ch).starveRep ++ [src]
        ∧ { c with ops := s.blk.ops, chans := s.blk.chans } = s.blk))

/-- The word of a roster entry with bad parity is rewritten from the sequencer's copy, in that channel and roster alone. Read back right,
its entries are no longer marked. Read back wrong, the roster loses its admission, with a record and a safety flag; if it was the
active one, the lowest other admitted roster is selected at the next rotation (R221, R417). An entry that is not marked is left
alone. A peer port whose link carries fewer slots than an admitted roster reserves on it degrades the roster, with one record, and the
roster recovers, with one record, when the link carries them again (R211). One admitted roster reserves slots on the port here. -/
def Obligations.RostersAreKept : Prop :=
  (∀ (s : State) (ch r k slot : Nat) (ok : Bool), chanOk s.blk ch = true →
    let key := slotKey r k slot
    let word := (List.range 8).map (fun i => slotKey r k (slot / 8 * 8 + i))
    let vals := word.map (fun w => (w, tget 0x80 s.blk.arb.copy (ch * 8192 + w)))
    let good := ok && vals.all (fun v => parOk v.2)
    ((chan s.blk ch).rosterBad.contains key = false → exec (.rosterRestore ch r k slot ok) s = .next s)
    ∧ ((chan s.blk ch).rosterBad.contains key = true → ∃ t, exec (.rosterRestore ch r k slot ok) s = .next t ∧ t.arr = s.arr
        ∧ (chan t.blk ch).roster = vals ++ (chan s.blk ch).roster.filter (fun e => !word.contains e.1)
        ∧ (∀ c, c ≠ ch → chan t.blk c = chan s.blk c)
        ∧ (good = true → (chan t.blk ch).rosterBad = (chan s.blk ch).rosterBad.filter (fun w => !word.contains w)
            ∧ { t.blk with chans := s.blk.chans } = s.blk)
        ∧ (good = false → t.blk.arb.admitted = s.blk.arb.admitted &&& ~~~(1#4 <<< r)
            ∧ t.blk.safety.flags = s.blk.safety.flags ||| 0x20#6
            ∧ (s.blk.arb.active ≠ r → t.blk.arb.pend = s.blk.arb.pend))))
  ∧ ∀ (s : State) (n r : Nat), peerOk s.blk n = true → r < 4 → bit s.blk.arb.admitted r = true → 0 < rosterPeer s.blk r n →
    (∀ q, q < 4 → q ≠ r → rosterPeer s.blk q n = 0 ∨ bit s.blk.arb.admitted q = false) →
    let enough := decide (rosterPeer s.blk r n ≤ peerSlots (linkWidth (linkOf s.blk n)))
    let was := s.blk.arb.degraded.contains (r, n)
    let p3 := put 0 2 r ||| put 4 2 n
    (enough = false → was = false → exec (.peerReservationRecheck n) s = .next { s with blk :=
      (emit { s.blk with arb := { s.blk.arb with degraded := s.blk.arb.degraded ++ [(r, n)] } } 0x15 none none p3) })
    ∧ (enough = true → was = true → exec (.peerReservationRecheck n) s = .next { s with blk :=
      (emit { s.blk with arb := { s.blk.arb with degraded := s.blk.arb.degraded.filter (fun e => e != (r, n)) } } 0x16 none none p3) })
    ∧ (enough ≠ was → exec (.peerReservationRecheck n) s = .next s)

/-! Data integrity. -/

/-- The dredge begins a pass at row 0 and goes on to the next row when its step has ended and the next is due: then every bank that is
not being spared, and each free spare, waits for its read (R236, R237). A step in progress goes on, and no pass begins before the start
that the pass before it left. The row's tag word is clean here. -/
def Obligations.DredgeSteps : Prop :=
  ∀ (s : State) (ch : Nat), chanOk s.blk ch = true → banksRun s.blk ch = true → (∀ e ∈ (chan s.blk ch).tagFix, e.2.isEmpty = false) →
    let d := (chan s.blk ch).dredge
    let at_ (row from_ : Nat) : Dredge := { d with running := true, row := row, passStart := from_, reads := stepReads (chan s.blk ch), turns := [] }
    (d.running = false → d.passStart ≤ usNow s.blk → (tagDecode s.arr ch 0).verdict = .clean →
      exec (.dredgeStep ch) s = .next { s with blk := (setChan (setChan s.blk ch (fun c => { c with dredge := { c.dredge with passStart := usNow s.blk } })) ch
        (fun c => { c with dredge := at_ 0 (usNow s.blk) })) })
    ∧ (d.running = false → usNow s.blk < d.passStart → exec (.dredgeStep ch) s = .next s)
    ∧ (d.running = true → (d.reads ≠ [] ∨ d.turns ≠ []) → exec (.dredgeStep ch) s = .next s)
    ∧ (d.running = true → d.reads = [] → d.turns = [] → d.row + 1 < linesPerBank s.blk.build → (tagDecode s.arr ch (d.row + 1)).verdict = .clean →
        (d.row + 1) * dredgeInterval s.blk ≤ (usNow s.blk - d.passStart) * linesPerBank s.blk.build →
        exec (.dredgeStep ch) s = .next { s with blk := setChan s.blk ch (fun c => { c with dredge := at_ (d.row + 1) d.passStart }) })

/-- The sparing of a bank (R245, R247). Once its merge entries, its repair lines and its turns are done, its quiesce ends and the copy
begins; until then nothing happens. Each slot of the bank then copies one row: the spare holds the data that the bank's words decode
to, with no word in error here. After the last row the verify begins, and each slot compares one row with the spare's, which are
clean here. A row that differs makes the spare one that has failed, and the other one is taken. A verify that finds no row different
makes the spare serve the bank, completes the command and writes the record and the retirement list's entry. A sparing that has not
switched 400 µs after its start fails with its record. -/
def Obligations.SparingMovesBank : Prop :=
  ∀ (s : State) (ch : Nat), chanOk s.blk ch = true →
    let b := s.blk
    let sp := (chan b ch).spare
    let from_ := rawLine s.arr.mem (storeKey b ch (spareSource b ch) sp.row)
    let onto := storeKey b ch sp.onto sp.row
    let spared (slot : Nat) (f : Sparing → Sparing) : Block :=
      setChan (markBank b ch sp.bank slot none 0 0 none) ch (fun c => { c with spare := f c.spare })
    let ended (t : Sparing) : Sparing := { t with phase := 0, bank := 0, onto := 0, cmd := none, row := 0, redo := false, bad := false, waiting := none }
    let free := sp.phase = 1 ∧ (chan b ch).merge.any (fun e => e.bank == sp.bank) = false
      ∧ (chan b ch).repair.any (fun e => e.1 == sp.bank) = false ∧ bankBusy b ch sp.bank = false
    (free → exec (.quiesceDone ch) s = .next { s with blk := setChan b ch (fun c => { c with spare := { c.spare with phase := 2 } }) })
    ∧ (¬ free → exec (.quiesceDone ch) s = .next s)
    ∧ (∀ slot, b.decides ch sp.bank slot .spareRow → sp.row < linesPerBank b.build → sp.bad = false → sp.redo = false →
        (∀ d ∈ from_, d.verdict = .clean) →
        (sp.phase = 2 → ∃ a, exec (.bankSlotGrant ch sp.bank) s = .next { s with arr := a, blk := spared slot (fun t => { t with row := t.row + 1 }) }
          ∧ a.tags = s.arr.tags
          ∧ (∀ k, k < 16 → readWord a.mem (onto + 16 * k) = storeWord false (wordAt from_ k).data)
          ∧ ∀ i, (i < onto ∨ onto + 256 ≤ i) → readByte a.mem i = readByte s.arr.mem i)
        ∧ (sp.phase = 3 → (∀ d ∈ rawLine s.arr.mem onto, d.verdict = .clean) → exec (.bankSlotGrant ch sp.bank) s = .next { s with blk :=
            (spared slot (fun t => if rowDiffers from_ (rawLine s.arr.mem onto) then { t with bad := true } else { t with row := t.row + 1 })) }))
    ∧ (sp.phase = 2 → linesPerBank b.build ≤ sp.row →
        exec (.copyDone ch) s = .next { s with blk := setChan b ch (fun c => { c with spare := { c.spare with phase := 3, row := 0 } }) })
    ∧ ((sp.phase ≠ 2 ∨ sp.row < linesPerBank b.build) → exec (.copyDone ch) s = .next s)
    ∧ (sp.phase = 3 → sp.bad = true → ∀ other, freeSpare (failSpare sp.onto sp) = some other →
        ∃ t, exec (.verifyDone ch) s = .next t ∧ t.arr = s.arr ∧ { t.blk with chans := b.chans } = b ∧ (∀ c, c ≠ ch → chan t.blk c = chan b c)
          ∧ (chan t.blk ch).spare = { failSpare sp.onto sp with phase := 2, onto := other, row := 0, redo := false, bad := false })
    ∧ (sp.phase = 3 → sp.bad = false → sp.row < linesPerBank b.build → exec (.verifyDone ch) s = .next s)
    ∧ (sp.phase = 3 → sp.bad = false → linesPerBank b.build ≤ sp.row → sp.waiting = none →
        let e := emit b 0x25 (some ch) none (put 0 6 sp.bank ||| putBit 6 (sp.onto == 65))
        let c := completeIf { e with rlog := retireAppend e.rlog sp.bank ch (sp.onto - 64) } sp.cmd cOkay 0 (put 0 1 (sp.onto - 64))
        exec (.verifyDone ch) s = .next { s with blk := (setChan c ch (fun c => { c with spare := switchSpare (ended c.spare) sp.bank sp.onto })) })
    ∧ (sp.phase ≠ 0 → usDue b sp.startUs 400 = true → sp.waiting = none →
        exec (.sparingTimeLimit ch) s = .next { s with blk := (setChan
          (completeIf (emit b 0x26 (some ch) none (put 0 6 sp.bank ||| putBit 6 (sp.onto == 65) ||| put 8 4 1)) sp.cmd cRefused rSpareFail) ch
          (fun c => { c with spare := ended c.spare })) })
    ∧ ((sp.phase = 0 ∨ usDue b sp.startUs 400 = false) → exec (.sparingTimeLimit ch) s = .next s)

/-! The sump. -/

/-- The request at the head of the queue transfers on S0 where it has come through the bridge, the block runs and drains nothing, fewer than
MAX_OUT requests are outstanding, and a read finds room in the return buffer (R273, R274, R278, R281, R282): it alone leaves the queue,
and is outstanding there. A write of an invalidated seam that covers FILL, with every byte from there on enabled, moves FILL behind
itself, and the seam is valid where that is its end (R285). A read that reaches FILL does not transfer: the bridge answers it, with
every line poisoned, and counts it (R284). Where one of the conditions does not hold nothing happens. -/
def Obligations.S0RequestTransfers : Prop :=
  ∀ (s : State) (r : S0Req) (rest : List S0Req), s.blk.sump.queue = r :: rest →
    let b := s.blk
    let out := b.sump.out ++ [{ r with since := b.now }]
    (r.since ≤ b.now → b.bring.inReset = false → b.recov.draining = none → b.power.inst = .on → b.sump.out.length < maxOut b →
      (r.write = true ∨ s0Reserved b + r.len + 1 ≤ 262144) →
      ((∀ u, r.who ≠ .data u) → ∃ o, exec .s0RequestTransfer s = .next { s with blk :=
          ({ b with obs := o, sump := { b.sump with queue := rest, out := out } }) })
      ∧ (∀ u x, r.who = .data u → txnOf b u = some x → beyondFill b x = false → r.write = false →
          exec .s0RequestTransfer s = .next { s with blk := { b with sump := { b.sump with queue := rest, out := out } } })
      ∧ (∀ u x, r.who = .data u → txnOf b u = some x → beyondFill b x = false → r.write = true →
          let n := x.seam.getD 0
          let q := seamOf b n
          let moves := q.sumpInvalid = true ∧ reqLo x ≤ q.fill ∧ q.fill ≤ reqHi x ∧ ∀ k, q.fill ≤ k → k ≤ reqHi x → byteEnabled x k = true
          ∃ o l, exec .s0RequestTransfer s = .next { s with blk :=
              ({ b with obs := o, seams := l, sump := { b.sump with queue := rest, out := out } }) }
            ∧ (moves → ∀ m, tget Seam.init l m =
                if m = n then { q with fill := reqHi x + 1, sumpInvalid := decide (reqHi x + 1 < seamHi q) } else seamOf b m)
            ∧ (¬ moves → l = b.seams))
      ∧ (∀ u x, r.who = .data u → txnOf b u = some x → beyondFill b x = true →
          exec .s0RequestTransfer s = .next { s with blk := ({ b with
            sump := { b.sump with queue := rest, invalidRd := min 65535 (b.sump.invalidRd + 1) }
            txns := b.txns.map (fun y => if y.uid = x.uid then { y with results := poisonLines y (b.now + 5) } else y) }) })
      ∧ (∀ u, r.who = .data u → txnOf b u = none → exec .s0RequestTransfer s = .next { s with blk := { b with sump := { b.sump with queue := rest } } }))
    ∧ (s0Free b r = false → exec .s0RequestTransfer s = .next s)

/-- A beat of S0 belongs to the oldest read of its ID: its two lines come back to their request five cycles later, and the last beat
ends the request on S0 (R276, R277). A write response ends the oldest data write of its ID and answers its request. A beat or a
response that no request on S0 awaits is a protocol fault with its record (R277), and outside a reset one only. -/
def Obligations.S0ResponsesReturn : Prop :=
  ∀ (s : State) (r : S0Req) (u : Nat), r.who = .data u → staleShift s.blk r.ctx r.shift = false →
    (∀ t : S0Beat, s.blk.sump.out.find? (fun r => !r.write && r.id == t.id) = some r → r.beats < s0Beats r →
        (t.last = true ↔ r.beats + 1 = s0Beats r) → t.status = 0 →
        ∃ c, exec (.s0ReadBeat t) s = .next { s with blk := c }
          ∧ c.txns = s.blk.txns.map (fun x => if x.uid = u then { x with results := x.results ++ beatLines x r.beats t.data t.pmask .okay (s.blk.now + 5) } else x)
          ∧ c.sump.out = (if t.last then s.blk.sump.out.erase r else s.blk.sump.out.map (fun q => if q = r then { r with beats := r.beats + 1 } else q))
          ∧ { c with txns := s.blk.txns, sump := s.blk.sump, obs := s.blk.obs } = s.blk)
    ∧ (∀ id st, s.blk.sump.out.find? (fun r => r.write && r.id == id && (match r.who with | .data _ => true | _ => false)) = some r → (st = 0 ∨ st = 1) →
        exec (.s0WriteResponse id st) s = .next { s with blk := ({ s.blk with
          sump := { s.blk.sump with out := s.blk.sump.out.erase r }
          txns := s.blk.txns.map (fun x => if x.uid = u then answerTxn (if st = 0 then .okay else .poison) (s.blk.now + 5) x else x) }) })
    ∧ (∀ t : S0Beat, s.blk.sump.out.find? (fun r => !r.write && r.id == t.id) = none → s.blk.bring.inReset = false →
        exec (.s0ReadBeat t) s = .next { s with blk :=
          (emit { s.blk with sump := { s.blk.sump with proto := min 65535 (s.blk.sump.proto + 1) } } 0x38 none none
            (put 0 3 (if s.blk.sump.stale.contains t.id then 4 else 2) ||| put 8 8 t.id.toNat)) })

/-! Resets and boot. -/

/-- The reset inputs and the drain of S0 (R39, R281, R288, R303, R378, R398, R401, R435, R496). AON_RST_N low is a power-on: the registers,
the retention log, the contexts, the seams and the timebase stand at their power-on values, and the fuses and the dumps of the NVM device
stay. Its release starts the µs ticks at the last REF_AON edge, and samples the straps. INST_RST_N low on a
powered core and the end of the drain reset the core: nothing is outstanding, the registers and the command queue stand at their
reset values, every context is CLOSED under the next shift, and the retention log's records stay. CW_RST_N low resets the causeway
too, and its release samples the straps. Off ignores INST_RST_N (R498). A reset is released when no input is low. -/
def Obligations.ResetsReset : Prop :=
  ∀ s : State,
    let b := s.blk
    let cleared (c : Block) : Prop :=
      c.txns = [] ∧ c.ops = [] ∧ c.xfers = [] ∧ c.descs = [] ∧ c.seams = [] ∧ c.chans = [] ∧ c.tallies = [] ∧ c.marks = [] ∧ c.regs = Regs.init
        ∧ c.arb = Arb.init ∧ c.cmdq = CmdQ.init ∧ c.dbg = Debug.init ∧ c.bring.phase = 0 ∧ evtOn c.ev = false
        ∧ (∀ k, k < 64 → (ctxOf c k).state = .closed ∧ (ctxOf c k).shift = (ctxOf b k).shift + 1 ∧ (ctxOf c k).job = 0)
        ∧ c.rlog.retired = b.rlog.retired
    (∀ i p, ∃ t, exec (.aonRstN ⟨true, i, p⟩) s = .next t ∧ t.arr = s.arr ∧ t.blk.regs = Regs.init ∧ t.blk.rlog = RLog.init ∧ t.blk.time = TimeBase.init
        ∧ t.blk.ctxs = [] ∧ t.blk.seams = [] ∧ t.blk.chans = [] ∧ t.blk.txns = [] ∧ t.blk.ev = Events.init ∧ t.blk.bring.inReset = true
        ∧ t.blk.bring.lcState = b.bring.lcState ∧ t.blk.bring.bankFuse = b.bring.bankFuse ∧ t.blk.bring.rowFuse = b.bring.rowFuse
        ∧ t.blk.bring.dumps = b.bring.dumps)
    ∧ (∀ i p, b.bring.pins &&& 4#3 ≠ 0 → ∃ t, exec (.aonRstN ⟨false, i, p⟩) s = .next t ∧ t.arr = s.arr
        ∧ t.blk.usBase = b.now - b.now % Config.refCycles ∧ t.blk.cw = Causeway.init i.toNat p)
    ∧ (∀ low, b.power.inst = .off → exec (.instRstN low) s = .next s)
    ∧ (∀ low i p, b.power.inst = .off →
        exec (.cwRstN low i p) s = .next { s with blk := { b with bring := { b.bring with straps := (i.toNat, p) } } })
    ∧ (b.power.inst ≠ .off → b.bring.inReset = false → ∃ t, exec (.instRstN true) s = .next t ∧ t.arr = s.arr ∧ cleared t.blk
        ∧ t.blk.bring.inReset = true ∧ t.blk.cw.jobs = [])
    ∧ (∀ i p, b.power.inst ≠ .off → b.bring.inReset = false → ∃ t, exec (.cwRstN true i p) s = .next t ∧ t.arr = s.arr ∧ cleared t.blk
        ∧ t.blk.bring.inReset = true ∧ t.blk.cw = Causeway.init i.toNat p)
    ∧ (∀ i p, b.power.inst ≠ .off → ∃ t, exec (.cwRstN false i p) s = .next t ∧ t.arr = s.arr ∧ t.blk.cw = Causeway.init i.toNat p
        ∧ (b.bring.pins &&& ~~~2#3 = 0 → b.safety.clkHeld = false → t.blk.bring.inReset = false)
        ∧ (b.bring.pins &&& ~~~2#3 ≠ 0 → t.blk.bring.inReset = b.bring.inReset))
    ∧ (∀ f, b.recov.draining = some f → b.bring.inReset = false →
        ((b.sump.out = [] ∨ drainLimit b = 0 ∨ usDue b f (drainLimit b) = true) → ∃ t, exec .s0DrainEnd s = .next t ∧ t.arr = s.arr ∧ cleared t.blk
          ∧ t.blk.recov.draining = none ∧ (b.bring.pins = 0 → b.safety.clkHeld = false → t.blk.bring.inReset = false))
        ∧ (b.sump.out ≠ [] → drainLimit b ≠ 0 → usDue b f (drainLimit b) = false → exec .s0DrainEnd s = .next s))

/-- A boot whose known-answer run finds no cell fault clears every tag, tally and mark, and goes on to step 5 or, on a cold worker, waits for
its image (R334, R336, R339). A cold boot clears every line too: a worker's arrays are then empty, and a pithead's hold the store
of its image at most, where the image passes its checks (R331, R332). Where a unit vector fails, the boot has failed with its cause
(R335, R340). It needs the reset released and nothing booted since (R333). -/
def Obligations.BootClearsArrays : Prop :=
  ∀ (s : State) (i : BootInput),
    (bootable s.blk = false → exec (.boot i) s = .next s)
    ∧ (bootable s.blk = true → i.faults = [] → i.unitsOk = true → ∃ t, exec (.boot i) s = .next t
        ∧ (t.blk.bring.phase = 3 ∨ t.blk.bring.phase = 4 ∨ t.blk.bring.phase = 15)
        ∧ t.arr.tags = [] ∧ t.blk.zeroLines = [] ∧ t.blk.tallies = [] ∧ t.blk.marks = []
        ∧ (isPithead s.blk = false → s.blk.bring.coreLost = true →
            t.blk.bring.phase = 3 ∧ t.blk.bring.store = [] ∧ t.arr = { mem := [], tags := [] })
        ∧ (isPithead s.blk = true → s.blk.bring.coreLost = true → t.arr = { mem := [], tags := [] }
            ∨ (headerCause s.blk.bring.lcState i.image = 0
              ∧ ∃ c, c.build = s.blk.build ∧ t.arr = writeStore { mem := [], tags := [] } c (i.image.take (imgLength i.image)))))
    ∧ (bootable s.blk = true → i.faults = [] → i.unitsOk = false → ∃ t, exec (.boot i) s = .next t ∧ t.arr = s.arr
        ∧ t.blk.bring.phase = 15 ∧ t.blk.bring.cause = 6)

/-- READY opens the ports: the phase is READY, every channel of the build starts, the lowest admitted roster is active, and the next
bank cycle is the rotation origin (R190, R210, R338). Without a boot that has come so far nothing happens. A recovery with RETRAIN
that is not settled after 2 s has failed, as if the boot had (R397, R398). -/
def Obligations.ReadyOpensPorts : Prop :=
  ∀ s : State,
    let b := s.blk
    ((b.bring.phase ≠ 4 ∨ b.bring.inReset = true) → exec .ready s = .next s)
    ∧ (b.bring.phase = 4 → b.bring.inReset = false → b.recov.retrain = false → ∃ t, exec .ready s = .next t ∧ t.arr = s.arr
        ∧ isReady t.blk = true ∧ (∀ n, n < b.build.channels → (chan t.blk n).stopped = false)
        ∧ t.blk.arb.fresh = true ∧ t.blk.arb.bankCycles = 0 ∧ t.blk.arb.rotation = 0
        ∧ (∀ r, r < 4 → bit b.arb.admitted r = true → (∀ q, q < r → bit b.arb.admitted q = false) → t.blk.arb.active = r)
        ∧ (b.arb.admitted = 0 → t.blk.arb.fallback = true ∧ t.blk.arb.active = 0)
        ∧ t.blk.txns = b.txns ∧ t.blk.seams = b.seams ∧ t.blk.ctxs = b.ctxs ∧ t.blk.regs = b.regs)
    ∧ (b.recov.retraining = false → exec .retrainRecoveryTimeout s = .next s)
    ∧ (b.recov.retraining = true → (b.sump.queue ++ b.sump.out).any (fun r => decide (r.who = .probe)) = true →
        usDue b b.recov.resetUs 2000000 = true → hasDumpArea b = false →
        exec .retrainRecoveryTimeout s = .next { s with blk := { b with recov := { b.recov with
          retraining := false, lastLevel := if bit b.regs.recovCtl 3 then 4 else b.recov.lastLevel
          pwrCycleReq := b.recov.pwrCycleReq || bit b.regs.recovCtl 3 } } })

/-! Presence, tamper, wipe, and the NVM device. -/

/-- PRESENCE_N and TAMPER_N. A change of PRESENCE_N starts its time anew (R341); HOLD_MS follows it, and below 100 ms debug access that
DEBUG_UNLOCK opened is closed (R342). The first low of TAMPER_N is recorded; on a core that is awake it starts a wipe, which empties
the owner sets of the SECURE seams (R345, R346). A bank slot that a wipe, or the clearing of a re-seeded seam, is given stores one line of
its seam as zeros and no other byte, and the next line of the seam in that bank bids (R67, R345). The wipe ends once no line of its
seams is left (R345); it stores nothing then but the tags of a ZMAP seam. -/
def Obligations.TamperWipesSecureSeams : Prop :=
  ∀ s : State,
    let b := s.blk
    (∀ low, low = b.bring.presenceLow → exec (.presenceN low) s = .next s)
    ∧ (∀ low, low ≠ b.bring.presenceLow → ∃ t, exec (.presenceN low) s = .next t ∧ t.blk.bring.presenceLow = low
        ∧ t.blk.bring.presenceFrom = usNow b ∧ t.blk.bring.holdMs = 0 ∧ t.blk.bring.unlocked = false)
    ∧ (∃ t, exec .presenceHold s = .next t ∧ t.blk.bring.holdMs = holdNow b
        ∧ (holdNow b < 100 → t.blk.bring.unlocked = false) ∧ (100 ≤ holdNow b → t.blk.bring.unlocked = b.bring.unlocked ∧ t.blk.dbg = b.dbg))
    ∧ (b.bring.tamper = true → exec .tamperN s = .next s)
    ∧ (b.bring.tamper = false → isReady b = true → b.power.inst = .on → b.safety.clkHeld = false → b.bring.wiping = false → b.power.hs = none →
        coreState b ≤ 1 → ∃ t, exec .tamperN s = .next t ∧ t.blk.bring.tamper = true ∧ t.blk.bring.tampered = true ∧ t.blk.bring.wiping = true
          ∧ t.blk.bring.wipeCause = 1
          ∧ (∀ n e, (n, e) ∈ b.seams → e.valid = true → e.secure = true → (n, { e with owners := 0 }) ∈ t.blk.seams ∧ n ∈ t.blk.bring.wipeSeams))
    ∧ exec .tamperNRelease s = .next { s with blk := { b with bring := { b.bring with tamper := false } } }
    ∧ ((b.bring.wiping = false ∨ b.bring.wipeSeams.all (seamZeroed b) = false) → exec .wipeDone s = .next s)
    ∧ (b.bring.wiping = true → wipeReady b = true → b.bring.wipeSeams.all (seamZeroed b) = true → ∃ t, exec .wipeDone s = .next t
        ∧ t.arr.mem = s.arr.mem ∧ ((∀ n ∈ b.bring.wipeSeams, (seamOf b n).zmap = false) → t.arr.tags = s.arr.tags)
        ∧ t.blk.bring.wiping = false ∧ t.blk.bring.wipeSeams = [] ∧ t.blk.seams = b.seams)
    ∧ (∀ ch bank slot rank op, b.grants ch bank slot rank op → (op.kind = .wipe ∨ op.kind = .clear) →
        let key := servedKey b ch bank op.row
        ∃ t, exec (.bankSlotGrant ch bank) s = .next t ∧ t.arr.tags = s.arr.tags
          ∧ (∀ k, k < 16 → readWord t.arr.mem (key + 16 * k) = storeWord false 0)
          ∧ (∀ i, (i < key ∨ key + 256 ≤ i) → readByte t.arr.mem i = readByte s.arr.mem i)
          ∧ ∀ line, lineIn b (seamOf b op.seam) ch bank (op.row + 1) = some line →
              ∃ o ∈ t.blk.ops, o.kind = op.kind ∧ o.ch = ch ∧ o.bank = bank ∧ o.row = op.row + 1 ∧ o.line = line ∧ o.seam = op.seam
                ∧ o.stage = .bank)

/-- Crash dumps and sequences on N0. A dump that is due, with a dump area and a free slot, begins where the hold-up level reaches its
minimum, and is deferred with its record where it does not (R348, R350); it is tried again after a millisecond (R348). The running
sequence ends with its command's completion: a dump erase empties every slot, a crash dump fills the lowest free one with BOOT_STAT, the
time and the retention log, and an image
that reads back differently has its record and is refused (R349, R350). A power cycle waits for its dump at most 100 ms (R400). -/
def Obligations.NvmSequencesRun : Prop :=
  ∀ s : State,
    let b := s.blk
    (∀ level : BitVec 8, dumpDue b = true → hasDumpArea b = true → emptySlot b ≠ none →
      let kept : Block := { b with bring := { b.bring with holdupLevel := level.toNat } }
      let began : Block := { b with bring := { b.bring with holdupLevel := level.toNat, nvmSeq := some (2, none), dumpDeferred := none } }
      (b.bring.dumpDeferred = none → b.bring.holdupMin ≤ level.toNat → exec (.crashDump level) s = .next { s with blk := began })
      ∧ (b.bring.dumpDeferred = none → level.toNat < b.bring.holdupMin → ∃ t, exec (.crashDump level) s = .next t
          ∧ t.blk.bring.dumpDeferred = some (usNow b) ∧ t.blk.bring.deferrals = min 65535 (b.bring.deferrals + 1) ∧ t.blk.bring.nvmSeq = none)
      ∧ (∀ from_, b.bring.dumpDeferred = some from_ → usDue b from_ 1000 = true →
          (b.bring.holdupMin ≤ level.toNat → exec (.holdupRecheck level) s = .next { s with blk := began })
          ∧ (level.toNat < b.bring.holdupMin → exec (.holdupRecheck level) s =
              .next { s with blk := { kept with bring := { kept.bring with dumpDeferred := some (usNow b) } } })))
    ∧ (∀ level, b.bring.dumpPending = false → exec (.crashDump level) s = .next s)
    ∧ (b.bring.nvmSeq = none → ∀ m, exec (.nvmSequenceDone m) s = .next s)
    ∧ (∀ cmd, b.bring.nvmSeq = some (0, cmd) →
        exec (.nvmSequenceDone none) s = .next { s with blk := (completeIf { b with bring := { b.bring with nvmSeq := none } } cmd cOkay 0) })
    ∧ (∀ cmd off, b.bring.nvmSeq = some (0, cmd) → exec (.nvmSequenceDone (some off)) s = .next { s with blk := (
        completeIf (emit { b with bring := { b.bring with nvmSeq := none } } 0x56 none none (put 0 24 off)) cmd cRefused rVerify (put 0 24 off)) })
    ∧ (∀ cmd m, b.bring.nvmSeq = some (1, cmd) → exec (.nvmSequenceDone m) s = .next { s with blk := (
        completeIf { b with bring := { b.bring with nvmSeq := none, dumpSlots := 0, dumps := [] } } cmd cOkay 0) })
    ∧ (∀ m k, b.bring.nvmSeq = some (2, none) → b.recov.dumpWait = none → emptySlot b = some k →
        exec (.nvmSequenceDone m) s = .next { s with blk := (
          { b with bring := { b.bring with
            nvmSeq := none, dumpSlots := b.bring.dumpSlots ||| (1#4 <<< k), dumpPending := false
            dumps := tset b.bring.dumps k { bootStat := bootStat b, time := b.time.ns, log := b.rlog } } }) })
    ∧ (∀ from_, b.recov.dumpWait = some from_ →
        (usDue b from_ 100000 = true →
          exec .powerCycleDumpWait s = .next { s with blk := { b with recov := { b.recov with dumpWait := none, pwrCycleReq := true } } })
        ∧ (usDue b from_ 100000 = false → exec .powerCycleDumpWait s = .next s))

/-! Power. -/

/-- The power handshake (R354 to R363). A channel without work that has stood idle for its limit asks for Idle, an idle one for Sleep.
A channel that holds tallies refuses, and the entry is abandoned.
A handshake that every channel agrees to commits at the next CLK_CTL edge: it goes on to enter its state, or, for Off, sends OFF_REQ
first. The state it enters is that of the channels it names, the others keep theirs. At HS_LIMIT it is abandoned with its reason, and
so is one whose OFF_ACK does not come in 20 ms. -/
def Obligations.PowerHandshakeRuns : Prop :=
  (∀ (s : State) (ch : Nat), chanOk s.blk ch = true → autoReady s.blk ch = true →
    let b := s.blk
    let h (target : Nat) : Handshake :=
      { target := target, mask := [ch], auto := true, cmd := none, phase := .ask, granted := false, usedUs := 0, fromUs := usNow b, drainUs := 0 }
    let asks (target : Nat) : Block := { b with power := { b.power with hs := some (h target) } }
    let n := fld b.regs.pwrPolicy 0 16
    let m := fld b.regs.pwrPolicy 16 32
    (chPower b ch = .run → n ≠ 0 → (chan b ch).idleFrom + n ≤ b.now → noWork b ch = true → rosterOwned b ch = false →
      exec (.idleAfter ch) s = .next { s with blk := asks 1 })
    ∧ ((n = 0 ∨ b.now < (chan b ch).idleFrom + n ∨ noWork b ch = false) → exec (.idleAfter ch) s = .next s)
    ∧ (chPower b ch = .idle → m ≠ 0 → usDue b (tget 0 b.power.idleUs ch) m = true → noWork b ch = true →
      exec (.sleepAfter ch) s = .next { s with blk := asks 2 })
    ∧ ((chPower b ch ≠ .idle ∨ m = 0) → exec (.sleepAfter ch) s = .next s))
  ∧ (∀ (s : State) (h : Handshake), s.blk.power.hs = some h →
    let b := s.blk
    let with_ (h : Handshake) : Block := { b with power := { b.power with hs := some h } }
    (h.phase = .ask → allAgree b h = true → b.now % 4 = 0 →
      (h.target < 3 → exec .handshakeCommit s = .next { s with blk := (with_ { h with phase := .entering }) })
      ∧ (h.target = 3 → sumpQuiet b = true → b.bring.wiping = false →
          exec .handshakeCommit s = .next { s with blk := (with_ { h with phase := .entering }) })
      ∧ (h.target = 4 → sumpQuiet b = true → b.bring.wiping = false → h.granted = false → ∃ t, exec .handshakeCommit s = .next t
          ∧ ∃ k, t.blk.power.hs = some k ∧ k.phase = .offAck ∧ k.target = 4)
      ∧ (h.target = 4 → sumpQuiet b = true → b.bring.wiping = false → h.granted = true → ∃ t, exec .handshakeCommit s = .next t
          ∧ t.blk.power.hs = some { h with phase := .drain, drainUs := usNow b } ∧ t.blk.cw.stopTransit = true))
    ∧ (∀ n, h.phase = .ask → refuser b (askedChans b h) = some n → ∃ t, exec .handshakeCommit s = .next t ∧ t.blk.power.hs = none
        ∧ t.blk.power.refuseReason = 1 ∧ t.blk.power.refuseCh = n)
    ∧ (h.phase ≠ .ask → exec .handshakeCommit s = .next { s with blk := b } ∧ exec .hsLimit s = .next { s with blk := b })
    ∧ (∀ code ch, h.phase = .ask → usDue b h.fromUs (max 1 (fld b.regs.pwrPolicy 48 12) - h.usedUs) = true → hsReason b h = some (code, ch) →
        ∃ t, exec .hsLimit s = .next t ∧ t.blk.power.hs = none ∧ t.blk.power.refuseReason = code ∧ t.blk.power.refuseCh = ch)
    ∧ (h.phase = .offAck → usDue b h.fromUs 20000 = true → ∃ t, exec .offAckTimeout s = .next t
        ∧ t.blk.power.hs = none ∧ t.blk.power.refuseReason = 7)
    ∧ (h.phase ≠ .offAck → exec .offAckTimeout s = .next { s with blk := b })
    ∧ (h.phase = .entering → h.target = 1 ∨ h.target = 2 → ∃ c, exec .stateEntryComplete s = .next { s with blk := c } ∧ c.power.hs = none
        ∧ (b.power.inst = .on → ∀ n, chPower c n = if n ∈ h.mask then (if h.target = 1 then .idle else .sleep) else chPower b n)))

/-- Entering Off resets the causeway and leaves the core without power (R361, R401), once the causeway is empty or 1 ms has passed, when
what is queued is lost. -/
def Obligations.OffIsEntered : Prop :=
  ∀ (s : State) (h : Handshake), s.blk.power.hs = some h → h.target = 4 →
    let b := s.blk
    let empty := (List.range b.build.peers).all (fun n => portEmpty (linkOf b n)) && b.cw.held.isEmpty
    (h.phase = .drain → (empty = true ∨ usDue b h.drainUs 1000 = true) → ∃ t, exec .causewayDrainEnd s = .next t
        ∧ t.blk.power.hs = some { h with phase := .entering } ∧ t.blk.cw.held = []
        ∧ ∀ n, n < b.build.peers → (linkOf t.blk n).tx = [] ∧ (linkOf t.blk n).replay = [] ∧ (linkOf t.blk n).sentAt = [])
    ∧ (h.phase = .drain → empty = false → usDue b h.drainUs 1000 = false → exec .causewayDrainEnd s = .next s)
    ∧ (h.phase = .entering → b.power.wakingInst = none → ∃ t, exec .stateEntryComplete s = .next t ∧ t.blk.power.inst = .off
        ∧ t.blk.power.hs = none ∧ t.blk.cw = Causeway.init b.bring.straps.1 b.bring.straps.2 ∧ t.blk.bring.coreLost = true)

/-- Wakes (R366 to R370): a channel that wakes runs, with nothing else about the channels' power changed; a wake of the instance to Run
makes every channel run; WAKE_N in Deep sleep powers the core, and in Off resets it for a cold boot. -/
def Obligations.WakesRunChannels : Prop :=
  ∀ s : State,
    let b := s.blk
    (∀ ch src, chanOk b ch = true → b.power.waking.find? (fun e => e.1 == ch) = some (ch, src) → committed b ch = false → b.power.inst = .on →
        chPower b ch ≠ .run → ∃ c, exec (.wakeComplete (.chan ch)) s = .next { s with blk := (afterWake s.arr c) }
          ∧ chPower c ch = .run ∧ (∀ n, n ≠ ch → chPower c n = chPower b n) ∧ c.power.lastWake = src
          ∧ c.power.waking = b.power.waking.filter (fun e => e.1 != ch))
    ∧ (∀ src, b.power.wakingInst = some src → b.power.inst = .on → b.power.hs = none →
        ∃ c, exec (.wakeComplete .inst) s = .next { s with blk := (afterWake s.arr c) }
          ∧ (∀ n, chPower c n = .run) ∧ c.power.wakingInst = none ∧ c.power.waking = [])
    ∧ (b.power.wakingInst = none → exec (.wakeComplete .inst) s = .next s)
    ∧ (b.power.inst = .deep → ∃ t, exec .wakeN s = .next t ∧ t.blk.power.inst = .on ∧ t.blk.power.wakingInst ≠ none)
    ∧ (b.power.inst = .off → ∃ t, exec .wakeN s = .next t ∧ t.blk.power.inst = .on ∧ t.blk.bring.phase = 0 ∧ t.blk.bring.coreLost = true
        ∧ t.blk.chans = [] ∧ t.blk.bring.store = [])

/-! Safety mechanisms. -/

/-- The safety controller (R412 to R418). A lockstep mismatch has its record and flag; where the cores run, the reaction is a power
cycle or an instance reset. A heartbeat that is late resets the instance. The timer starts anew with each write. A window of CLK_ROOT
that is out of its bounds holds both resets, and 100 good ones in a row end it; after 1 s a power cycle is asked for where AUTO_PWR
was 1. A REF_AON fault stops the ports. The scrub rewrites a route that differs from the copy. -/
def Obligations.SafetyReacts : Prop :=
  ∀ s : State,
    let b := s.blk
    let flagged (b : Block) (k : Nat) : Block := { b with safety := { b.safety with flags := b.safety.flags ||| (1#6 <<< k) } }
    let counted (b : Block) : Block := { b with safety := { b.safety with faults := min 255 (b.safety.faults + 1) } }
    let cycled (b : Block) : Block := { b with recov := { b.recov with lastLevel := 4, pwrCycleReq := true } }
    (∀ mem, coresClocked b = true →
      (coresHalted b = true → exec (.lockstep mem) s = .next { s with blk := (flagged (emit b 0x70 none none (putBit 0 mem)) 0) })
      ∧ (coresHalted b = false → b.safety.lockstepReact = true →
          exec (.lockstep mem) s = .next { s with blk := (cycled (counted (flagged (emit b 0x70 none none (putBit 0 mem)) 0))) })
      ∧ (coresHalted b = false → b.safety.lockstepReact = false → ∃ t, exec (.lockstep mem) s = .next t ∧ t.arr = s.arr
          ∧ t.blk.bring.phase = 0 ∧ t.blk.txns = [] ∧ t.blk.regs = Regs.init ∧ t.blk.safety.faults = min 255 (b.safety.faults + 1)
          ∧ bit t.blk.safety.flags 0 = true))
    ∧ (∀ mem, coresClocked b = false → exec (.lockstep mem) s = .next s)
    ∧ ((beatArmed b = false ∨ usDue b b.safety.lastBeat (b.safety.heartbeatMs * 1000) = false) → exec .heartbeat s = .next s)
    ∧ (beatArmed b = true → usDue b b.safety.lastBeat (b.safety.heartbeatMs * 1000) = true → ∃ t, exec .heartbeat s = .next t
        ∧ t.arr = s.arr ∧ t.blk.bring.phase = 0 ∧ t.blk.txns = [] ∧ t.blk.regs = Regs.init ∧ bit t.blk.safety.flags 1 = true)
    ∧ (isReady b = true → exec .heartbeatWrite s =
        .next { s with blk := { b with safety := { b.safety with lastBeat := usNow b, lastBeatTime := b.time.ns } } })
    ∧ (∀ n, b.power.inst = .on → b.safety.clkHeld = false → windowBad b n = false → exec (.clkRootWindow n) s = .next s)
    ∧ (∀ n, b.power.inst = .on → b.safety.clkHeld = false → windowBad b n = true → ∃ t, exec (.clkRootWindow n) s = .next t
        ∧ t.blk.safety.clkHeld = true ∧ t.blk.safety.good = 0 ∧ t.blk.bring.inReset = true ∧ t.blk.cw = Causeway.init b.bring.straps.1 b.bring.straps.2)
    ∧ (∀ n, b.power.inst = .on → b.safety.clkHeld = true → windowBad b n = false →
        (b.safety.good + 1 < 100 → exec (.clkRootWindow n) s = .next { s with blk := { b with safety := { b.safety with good := b.safety.good + 1 } } })
        ∧ (b.safety.good = 99 → ∃ t, exec (.clkRootWindow n) s = .next t ∧ t.blk.safety.clkHeld = false
            ∧ (b.bring.pins = 0 → t.blk.bring.inReset = false)))
    ∧ (b.safety.clkHeld = true → b.safety.faultPwr = true → usDue b b.safety.faultUs 1000000 = true →
        exec .clockFaultTimeout s = .next { s with blk := cycled b })
    ∧ ((b.safety.clkHeld = false ∨ b.safety.faultPwr = false ∨ usDue b b.safety.faultUs 1000000 = false) → exec .clockFaultTimeout s = .next s)
    ∧ (∀ n, coresClocked b = true → (n < 98 ∨ 102 < n) → ∃ t, exec (.refAonFault n) s = .next t ∧ t.blk.safety.portsStopped = true
        ∧ bit t.blk.safety.flags 3 = true ∧ t.blk.recov.pwrCycleReq = true ∧ t.blk.txns = b.txns)
    ∧ (∀ n, 98 ≤ n → n ≤ 102 → exec (.refAonFault n) s = .next s)
    ∧ (usDue b b.safety.scrubUs (b.safety.scrubMs * 1000) = false → exec .cfgScrub s = .next s)
    ∧ (isReady b = true → coresClocked b = true → coresHalted b = false → b.cmdq.running = [] →
        usDue b b.safety.scrubUs (b.safety.scrubMs * 1000) = true → ∃ t, exec .cfgScrub s = .next t
          ∧ t.blk.safety.scrubUs = usNow b ∧ t.blk.cw.nbr = b.safety.nbrCopy)

/-! Recovery and contexts. -/

/-- Hangs and channel recovery (R70 to R74, R391 to R397). A held decode failure that reaches HANG_LIMIT marks its context FAULTED. A
channel that has granted nothing to a waiting operation for 2 µs is frozen where AUTO_CH is 1: its suspects are fixed and flagged;
before the 2 µs nothing happens. Its reset leaves no operation before its point of no return in it, breaks its tallies and ends
its DMA halt, and the suspects' replay begins. A suspect whose replay completes is innocent, one that exceeds REPLAY_LIMIT is
guilty, and the next one replays: the lines that its last operation would touch bid for their bank slots (R393). A recovery that exceeds 500 µs is late once. -/
def Obligations.ChannelRecoveryRuns : Prop :=
  (∀ (s : State) (p : PortId) (id : BitVec 8) (x : Txn) (code : Nat), portOk s.blk p = true →
    (portTxns s.blk p).find? (fun x => x.req.id == id && !x.hung && decide (hangLimit s.blk ≤ x.age)) = some x → x.phase = .decodeHeld code →
    code ≠ 0 → (ctxOf s.blk x.req.ctx.toNat).state = .open →
    ∃ c, exec (.hangWatchdog p id) s = .next { s with blk := c } ∧ (ctxOf c x.req.ctx.toNat).faulted = true
      ∧ ∀ y ∈ c.txns, y.uid = x.uid → y.hung = true)
  ∧ (∀ (s : State) (p : PortId) (id : BitVec 8), portOk s.blk p = true →
    (portTxns s.blk p).find? (fun x => x.req.id == id && !x.hung && decide (hangLimit s.blk ≤ x.age)) = none →
    exec (.hangWatchdog p id) s = .next { s with blk := s.blk })
  ∧ (∀ (s : State) (ch : Nat) (r : Recov), chanOk s.blk ch = true → (chan s.blk ch).recov = some r →
    let b := s.blk
    let recOf (c : Block) : Option Recov := (chan c ch).recov
    let left (b : Block) (l : List Nat) : Block := setChan b ch (fun c => { c with recov := some { r with left := l, replayUs := usNow b } })
    (r.phase = .check → usDue b r.fromUs 2 = false → exec (.channelStallCheck ch) s = .next { s with blk := b })
    ∧ (r.phase = .check → usDue b r.fromUs 2 = true → (chan b ch).grants = r.grants0 → bit b.regs.recovCtl 1 = true → b.power.hs = none →
        (bankWaiters b ch).any (fun o => decide (o.readyAt ≤ r.startAt)) = true →
        ∃ c, exec (.channelStallCheck ch) s = .next { s with blk := c } ∧ recOf c = some { r with phase := .reset, suspects := suspectsOf b ch }
          ∧ (∀ k ∈ suspectsOf b ch, (ctxOf c k).suspect = true) ∧ c.txns = b.txns ∧ c.ops = b.ops)
    ∧ (r.phase = .reset → r.replay = true → r.suspects ≠ [] → (chan b ch).spare.phase = 0 →
        ∃ c q, exec (.channelResetDone ch) s = .next { s with blk := c } ∧ recOf c = some q ∧ q.phase = .replay ∧ q.left = r.suspects
          ∧ q.guilty = r.guilty ∧ q.suspects = r.suspects ∧ (chan c ch).dmaHalt = false
          ∧ (∀ o ∈ c.ops, o.ch = ch → beforeCommit o = false)
          ∧ (∀ t ∈ c.tallies, t.ch = ch → t.state = .held → ∃ e ∈ b.tallies, e.idx = t.idx ∧ e.state ≠ .held))
    ∧ (r.phase = .replay → b.ops.any (fun o => o.kind == .replay && o.no == ch) = true → exec (.replayComplete ch) s = .next { s with blk := b })
    ∧ (∀ k k' rest, r.phase = .replay → r.left = k :: k' :: rest → b.ops.any (fun o => o.kind == .replay && o.no == ch) = false →
        (r.last.find? (fun e => e.1 == k') = none → exec (.replayComplete ch) s = .next { s with blk := left b (k' :: rest) })
        ∧ (∀ u x, r.last.find? (fun e => e.1 == k') = some (k', u) → txnOf b u = some x →
            ∃ l n, exec (.replayComplete ch) s = .next { s with blk := { left b (k' :: rest) with ops := b.ops ++ l, serial := n } }
              ∧ l.map (fun o => o.line) = replayLines s.arr (left b (k' :: rest)) x
              ∧ ∀ o ∈ l, o.kind = .replay ∧ o.stage = .bank ∧ o.no = ch ∧ o.uid = u ∧ o.readyAt = b.now + 1))
    ∧ (∀ k k' rest, r.phase = .replay → r.left = k :: k' :: rest → r.last.find? (fun e => e.1 == k') = none →
        (usDue b r.replayUs (replayLimit b) = true → exec (.replayLimit ch) s = .next { s with blk := (setChan
          { b with ops := b.ops.filter (fun o => o.kind != .replay || o.no != ch) } ch (fun c => { c with recov := (
            some { r with left := k' :: rest, guilty := r.guilty ++ [k], replayUs := usNow b }) })) })
        ∧ (usDue b r.replayUs (replayLimit b) = false → exec (.replayLimit ch) s = .next { s with blk := b }))
    ∧ (r.phase ≠ .check → r.late = false → usDue b r.fromUs 500 = true → bit b.regs.recovCtl 2 = false →
        exec (.recoveryTimeout ch) s = .next { s with blk := (setChan b ch (fun c => { c with recov := some { r with late := true } })) })
    ∧ ((r.phase = .check ∨ r.late = true ∨ usDue b r.fromUs 500 = false) → exec (.recoveryTimeout ch) s = .next s))

/-- A sweep ends once its context has no work past its point of no return and every removed request has been answered and taken (R383,
R384): the context goes to its final state, a FAULTED mark goes with a reset, and nothing of another context changes. One that
stands 50 µs with its work in a channel asks for a recovery of that channel (R397), by its record alone where AUTO_CH is 0. -/
def Obligations.SweepEnds : Prop :=
  ∀ (s : State) (k : Nat) (w : Sweep), k < 64 → (ctxOf s.blk k).sweep = some w →
    let b := s.blk
    (sweepBusy b k = true → exec (.sweepEnd k) s = .next { s with blk := b })
    ∧ (sweepBusy b k = false → b.txns.any (ofCtx k) = true → ∃ c, exec (.sweepEnd k) s = .next { s with blk := c } ∧ c.ctxs = b.ctxs
        ∧ c.txns = b.txns.map (fun x => if x.phase = .swept ∧ ofCtx k x = true then { x with phase := .answered .aborted, due := b.now + 1 } else x))
    ∧ (sweepBusy b k = false → b.txns.any (ofCtx k) = false → ∃ c, exec (.sweepEnd k) s = .next { s with blk := c }
        ∧ ctxOf c k = { ctxOf b k with state := w.final, faulted := (ctxOf b k).faulted && w.abortOnly, sweep := none }
        ∧ (∀ j, j ≠ k → ctxOf c j = ctxOf b j) ∧ c.txns = b.txns ∧ c.ops = b.ops
        ∧ (w.abortOnly = false → ∀ t ∈ c.tallies, t.ctx = k → t.state ≠ .lost))
    ∧ (∀ n, w.escalated = false → usDue b w.limitUs 50 = true → b.chans.any (fun e => e.2.recov.isSome) = false → sweepChan b k = some n →
        bit b.regs.recovCtl 1 = false → exec (.sweepEscalation k) s = .next { s with blk := (
          (recoveryRecord (setCtx b k (fun x => { x with sweep := some { w with escalated := true } })) (some n) k 2)) })
    ∧ ((w.escalated = true ∨ usDue b w.limitUs 50 = false) → exec (.sweepEscalation k) s = .next { s with blk := b })

/-- The commands of a context (R376 to R379, R383, R487). CTX_OPEN of a CLOSED context whose quiet time is over opens it with its
job, and its canary is clear; in quiet time it waits for its end; of another it is refused. CTX_RESET and CTX_CLOSE of an OPEN
context whose last bump is far enough start its sweep: it is RESETTING under the next shift, and no request of it is left waiting; of
a CLOSED one they are refused. A bump that comes too soon waits for its spacing. A JOB_ABORT puts its pair on the abort outputs (R387,
R388). -/
def Obligations.ContextCommandsAct : Prop :=
  ∀ (s : State) (t : Taken),
    let b := s.blk.taken t
    let k := fld t.dw0 32 6
    let x := ctxOf s.blk k
    let i := t.idx.toNat
    let job := BitVec.ofNat 32 (fld t.dw1 0 32)
    let pkg := BitVec.ofNat 14 (fld t.dw1 32 14)
    (s.blk.takes 0x10 t → x.wait = [] →
      (x.state ≠ .closed → exec .ctxOpen s = .next { s with blk := complete b i cRefused rState })
      ∧ (x.state = .closed → inQuiet s.blk k = true → exec .ctxOpen s = .next { s with blk := (
          setCtx b k (fun y => { y with wait := [.openQuiet i job pkg] })) })
      ∧ (x.state = .closed → inQuiet s.blk k = false → ∃ u, exec .ctxOpen s = .next u ∧ u.arr = s.arr
          ∧ ctxOf u.blk k = { x with state := .open, faulted := false, job := job, pkg := pkg, site := x.site &&& ~~~(1#64 <<< 63), trip := [] }
          ∧ u.blk.regs = { b.regs with canaryFlag := b.regs.canaryFlag &&& ~~~(1#64 <<< k) }
          ∧ (∀ j, j ≠ k → ctxOf u.blk j = ctxOf s.blk j) ∧ u.blk.txns = s.blk.txns
          ∧ u.blk.cmdq = (complete b i cOkay 0 (put 0 8 x.shift.toNat)).cmdq))
    ∧ ((s.blk.takes 0x11 t ∨ s.blk.takes 0x12 t) → x.wait = [] →
      let row : Instr := if fld t.dw0 0 8 = 0x11 then .ctxReset else .ctxClose
      let fin : CState := if fld t.dw0 0 8 = 0x11 then .open else .closed
      (x.state = .closed → exec row s = .next { s with blk := (complete b i cRefused rState) })
      ∧ (x.state = .open → x.sweep = none → bit t.dw0 40 = false → bumpReady s.blk k = true → ∃ c, exec row s = .next { s with blk := c }
          ∧ (ctxOf c k).state = .resetting ∧ (ctxOf c k).shift = x.shift + 1 ∧ (ctxOf c k).job = x.job
          ∧ (∃ w, (ctxOf c k).sweep = some w ∧ w.abortOnly = false ∧ w.final = fin ∧ w.cmds = [i] ∧ w.startAt = s.blk.now)
          ∧ (∀ y ∈ c.txns, ofCtx k y = true → y.phase = .swept ∨ ∃ st, y.phase = .answered st)
          ∧ (∀ j, j ≠ k → ctxOf c j = ctxOf s.blk j))
      ∧ (x.state = .open → x.sweep = none → bumpReady s.blk k = false → exec row s = .next { s with blk := (
          (setCtx b k (fun y => { y with wait := [.bump i (bit t.dw0 40) (fld t.dw0 0 8 == 0x12)] }))) }))
    ∧ (s.blk.takes 0x13 t → s.blk.recov.abortOut = [] → s.blk.recov.abortNow = none → ∃ u, exec .jobAbort s = .next u ∧ u.arr = s.arr
        ∧ u.blk.recov.abortOut = [some (job, pkg)] ∧ u.blk.cw.aseq = (s.blk.cw.aseq + 1) % 256)

/-- The end of a context's quiet time lets its waiting command act, and so does the end of a bump's spacing; before it nothing happens
(R376, R379, R389). One CTX_OPEN, or one CTX_CLOSE of an OPEN context, waits here. -/
def Obligations.ContextWaitsEnd : Prop :=
  ∀ (s : State) (k : Nat), k < 64 →
    let b := s.blk
    (inQuiet b k = true → exec (.quietTimeEnd k) s = .next { s with blk := b })
    ∧ (∀ cmd job pkg, inQuiet b k = false → (ctxOf b k).wait = [.openQuiet cmd job pkg] → (ctxOf b k).state = .closed →
        ∃ u, exec (.quietTimeEnd k) s = .next u ∧ (ctxOf u.blk k).state = .open ∧ (ctxOf u.blk k).job = job ∧ (ctxOf u.blk k).pkg = pkg
          ∧ (ctxOf u.blk k).wait = [] ∧ ∀ j, j ≠ k → ctxOf u.blk j = ctxOf b j)
    ∧ (bumpReady b k = false → exec (.bumpSpacingEnd k) s = .next { s with blk := b })
    ∧ (∀ cmd, bumpReady b k = true → (ctxOf b k).wait = [.bump cmd false true] → (ctxOf b k).state = .open → (ctxOf b k).sweep = none →
        ∃ u, exec (.bumpSpacingEnd k) s = .next u ∧ (ctxOf u.blk k).state = .resetting ∧ (ctxOf u.blk k).shift = (ctxOf b k).shift + 1
          ∧ (ctxOf u.blk k).wait = [] ∧ ∀ j, j ≠ k → ctxOf u.blk j = ctxOf b j)

/-! Events and time. -/

/-- The event ring and its doorbell (R427 to R434). The oldest record takes the next SEQ and bids for S0: one to issue again before an
OVERFLOW, and that before the pending queue. Acknowledged in order, a record is covered by EVT_HEAD; one that fails stops the ring,
and it and the later ones are kept to be issued again. A doorbell is rung at its timeout. -/
def Obligations.EventRingIssues : Prop :=
  ∀ s : State,
    let b := s.blk
    let e := b.ev
    let wr (ev : Events) (pl : Payload) : Block := ownWrite { b with ev := ev } pl
    (evtOn e = true → s0Reach b = true → ringFree e = true →
      (∀ r rest, e.again = r :: rest → exec .eventRecordIssue s = .next { s with blk := (
          wr { e with again := rest, nextSeq := e.nextSeq + 1, issued := e.issued ++ [(e.nextSeq, false, r)] } (.record e.nextSeq)) })
      ∧ (∀ r rest, e.again = [] → uncovered e < 32 → e.lost = 0 → e.queue = r :: rest → exec .eventRecordIssue s = .next { s with blk := (
          wr { e with queue := rest, nextSeq := e.nextSeq + 1, issued := e.issued ++ [(e.nextSeq, false, r)] } (.record e.nextSeq)) })
      ∧ (e.again = [] → uncovered e < 32 → 0 < e.lost → ∃ u r, exec .eventRecordIssue s = .next u ∧ r.type = 1
          ∧ r.p3 = BitVec.ofNat 64 e.lost ∧ r.p4 = e.lostFirst ∧ r.p5 = e.lostLast
          ∧ u.blk.ev = { e with lost := 0, nextSeq := e.nextSeq + 1, issued := e.issued ++ [(e.nextSeq, false, r)] }))
    ∧ ((evtOn e = false ∨ s0Reach b = false ∨ ringFree e = false) → exec .eventRecordIssue s = .next s)
    ∧ (∀ r q seq rest (id : BitVec 8), b.sump.out.find? (fun r => r.id == id && match r.who with | .record _ => true | _ => false) = some r → r.who = .record seq →
        e.issued = (seq, false, q) :: rest → (∀ x ∈ rest, x.1 ≠ seq ∧ x.2.1 = false) → fld e.dbCtl 0 16 = 0 →
        exec (.recordWriteAck ⟨id, false⟩ 0) s = .next { s with blk := { b with
          sump := { b.sump with out := b.sump.out.erase r }
          ev := { e with head := e.head + 1, issued := rest, dbFromUs := some (e.dbFromUs.getD (usNow b)) } } })
    ∧ (∀ r seq (id : BitVec 8), b.sump.out.find? (fun r => r.id == id && match r.who with | .record _ => true | _ => false) = some r → r.who = .record seq →
        e.issued.any (fun x => x.1 == seq) = true → ∃ u, exec (.recordWriteAck ⟨id, false⟩ 10) s = .next u ∧ evtOn u.blk.ev = false
          ∧ u.blk.ev.writeErr = true ∧ u.blk.ev.head = e.head ∧ u.blk.ev.issued = e.issued.takeWhile (fun x => x.1 != seq)
          ∧ u.blk.ev.again = (e.issued.dropWhile (fun x => x.1 != seq)).map (fun x => x.2.2) ++ e.again)
    ∧ (∀ f, e.dbFromUs = some f → fld e.dbCtl 32 16 ≠ 0 → evtOn e = true → usDue b f (fld e.dbCtl 32 16) = true →
        (e.dbOut = false → exec .doorbellTimeout s = .next { s with blk := (
          wr { e with dbOut := true, dbDue := false, dbValue := e.head, dbFromUs := none } .doorbell) })
        ∧ (e.dbOut = true → exec .doorbellTimeout s = .next { s with blk := { b with ev := { e with dbDue := true, dbFromUs := none } } }))
    ∧ (e.dbFromUs = none → exec .doorbellTimeout s = .next s)

/-- The timebase (R436 to R439). A frame with bad parity is counted and nothing else; a good one is counted, and loads its value, 10 ns
on, where the timebase is not synchronised or has drifted beyond the tolerance. Without a frame in SYNC_WAIT after a resumption there
is one TIME_GAP record. Nothing but the timebase changes else. -/
def Obligations.TimebaseFollowsFrames : Prop :=
  ∀ (s : State) (v : Word) (parity : Bool),
    let b := s.blk
    let t := b.time
    let counted : TimeBase := { t with frames := (t.frames + 1) % 2 ^ 32 }
    let good := (ones v % 2 == 1) == parity
    (t.syncEn = false → exec (.timeSyncFrame v parity) s = .next s)
    ∧ (t.syncEn = true → good = false →
        exec (.timeSyncFrame v parity) s = .next { s with blk := { b with time := { t with badFrames := min 65535 (t.badFrames + 1) } } })
    ∧ (t.syncEn = true → good = true → (t.frozen = true ∨ (t.synced = true ∧ timeDist v t.ns ≤ t.tol)) →
        exec (.timeSyncFrame v parity) s = .next { s with blk := { b with time := counted } })
    ∧ (t.syncEn = true → good = true → t.frozen = false → t.synced = false →
        exec (.timeSyncFrame v parity) s = .next { s with blk := { b with time := { counted with loadPending := some (v + 10, 0) } } })
    ∧ (t.syncEn = true → good = true → t.frozen = false → t.synced = true → t.tol < timeDist v t.ns →
        exec (.timeSyncFrame v parity) s = .next { s with blk := { b with time := { counted with loadPending := some (v + 10, 1) } } })
    ∧ (∀ u, t.resumedUs = some u → t.synced = false → usDue b u (max 1 t.syncWait) = true → exec .syncWaitTimeout s = .next { s with blk := (
        emit { b with time := { t with resumedUs := none } } 0x02 none none t.frozenAt t.ns t.ns 3) })
    ∧ ((t.resumedUs = none ∨ t.synced = true) → exec .syncWaitTimeout s = .next s)

/-! Observation. -/

/-- The observation unit (R446, R452 to R460). FREEZE's level is sampled, and a change that freezes the counters counts one freeze. A
trigger that is due puts the trace from ARMED to TRIGGERED; when its last record has entered, the trace stops. A SYNC enters 2^20
cycles after the last, a counter sample every CNT_PERIOD, and in STREAM mode the oldest record leaves by T0. A sounding's copy ends
with its command's completion. None of them touches anything but the observation unit and the command queue. -/
def Obligations.ObservationRuns : Prop :=
  ∀ s : State,
    let b := s.blk
    let o := b.obs
    (∀ high, ∃ p, exec (.freeze high) s = .next { s with blk := { b with obs := p } } ∧ p.pin = high
        ∧ p.freezes = (if obsFrozen o = false ∧ (o.freeze = true ∨ (o.pinEn = true ∧ high = true) ∨ o.trigFrozen = true)
            then (o.freezes + 1) % 2 ^ 32 else o.freezes))
    ∧ (∀ src, o.trigDue = true → fld o.trcTrig 60 3 = src → o.trcState = .armed → ∃ p, exec (.traceTrigger src) s = .next { s with blk := { b with obs := p } }
        ∧ p.trcState = .triggered ∧ p.postLeft = o.post ∧ (bit o.trcTrig 63 = true → p.trigFrozen = true))
    ∧ (∀ src, o.trigDue = false → exec (.traceTrigger src) s = .next s)
    ∧ (o.trcState = .triggered → o.postLeft = 0 → ∃ p, exec .tracePostDone s = .next { s with blk := { b with obs := p } } ∧ p.trcState = .stopped)
    ∧ ((o.trcState ≠ .triggered ∨ o.postLeft ≠ 0) → exec .tracePostDone s = .next s)
    ∧ (trcRuns b = true → 2 ^ 20 ≤ stampSince o o.syncAt → ∃ p, exec .traceSync s = .next { s with blk := { b with obs := p } } ∧ p.syncAt = o.stamp)
    ∧ (stampSince o o.syncAt < 2 ^ 20 → exec .traceSync s = .next s)
    ∧ (let per := fld o.trcCtl 48 16 * 1024
       (clsOn o 0 = true → per ≠ 0 → trcRuns b = true → trcLive o = true → per ≤ stampSince o o.sampleFrom →
         ∃ p, exec .counterSample s = .next { s with blk := { b with obs := p } } ∧ p.sampleFrom = (o.sampleFrom + per) % 2 ^ 32 ∧ p.ocnt = o.ocnt)
       ∧ ((per = 0 ∨ trcLive o = false) → exec .counterSample s = .next s))
    ∧ (∀ r rest, o.buffer = r :: rest → o.stream = true → trcRuns b = true → (o.t0 = none ∨ o.t0At + 16 ≤ b.now) →
        exec .t0RecordSend s = .next { s with blk := { b with obs := { o with
          buffer := rest, oldest := (o.oldest + 1) % 16384, t0 := some (r.w0, r.w1), t0At := b.now } } })
    ∧ ((o.buffer = [] ∨ o.stream = false) → exec .t0RecordSend s = .next s)
    ∧ (o.sndBusy = true → exec .soundingCopyDone s = .next { s with blk := (
        completeIf { b with obs := { o with sndBusy := false, sndHeld := true, sndCmd := none } } o.sndCmd cOkay 0) })
    ∧ (o.sndBusy = false → exec .soundingCopyDone s = .next s)

/-! Management commands. -/

/-- The command queue (R481 to R486). While nothing can be taken no row takes anything. A command that is malformed, a reserved OPC
among them, is taken and completes MALFORMED at once. NOP completes OKAY. -/
def Obligations.CommandsAreTaken : Prop :=
  ∀ (s : State) (level : BitVec 8) (img : List Byte) (err : Bool) (t : Taken),
    let b := s.blk.taken t
    let i := t.idx.toNat
    let row (opc : Nat) : Instr := opcRow level img err opc
    (∀ opc, canTake s.blk = false → exec (row opc) s = .next s)
    ∧ (canTake s.blk = true → t = { idx := s.blk.cmdq.head, dw0 := headDw s.blk 0, dw1 := headDw s.blk 1, dw2 := headDw s.blk 2 } →
        cmdOk s.blk t (headDw s.blk 3) = false →
        exec (row (fld t.dw0 0 8)) s = .next { s with blk := complete b i cMalformed 0 })
    ∧ (s.blk.takes 0 t → exec .nop s = .next { s with blk := complete b i cOkay 0 })

/-- A step boundary is the completion of STEP_MARK; the SHADOW fields, which are CLASS_LIMIT's and BG_BUDGET's, take effect at a step
boundary and at APPLY (R216). A step boundary also begins the step, and lets a roster switch that waits for it go on. -/
def Obligations.ShadowsTakeEffect : Prop :=
  ∀ (s : State) (t : Taken),
    let b := s.blk.taken t
    let i := t.idx.toNat
    let shadow : Regs := { b.regs with classLimitA := b.regs.classLimitW, bgBudgetA := b.regs.bgBudgetW }
    (s.blk.takes 0x01 t → exec .apply s = .next { s with blk := (complete { b with regs := shadow } i cOkay 0) })
    ∧ (s.blk.takes 0x02 t → exec .stepMark s = .next { s with blk := ((complete { b with
        regs := shadow
        arb := { b.arb with
          stepFrom := some (usNow b, b.time.ns), stepReported := false
          pendFrom := if b.arb.pendStep then b.now else b.arb.pendFrom, pendStep := false } } i cOkay 0)) })

/-- What the commands of rosters and seams do (R54, R67, R185, R217, R266, R285). ROSTER_SELECT of an admitted roster makes its switch pending.
SEAM_ASSIGN adds owners, or seeds an unowned seam, which is first cleared unless it is of the sump: in every bank its first line bids for
a slot (`TamperWipesSecureSeams` says what the slot does), and a ZMAP seam is cleared by its tags, once no entry of the merge buffer holds
a line of it (R489's banks have up to 8,192 lines). Then it gets its owners. SEAM_RELEASE empties the owner set, and completes, without
the seam's broken marks, once no request uses the seam. SUMP_VALIDATE makes an invalidated seam readable as a whole. -/
def Obligations.SeamCommandsAct : Prop :=
  ∀ (s : State) (t : Taken),
    let b := s.blk.taken t
    let i := t.idx.toNat
    let n := fld t.dw0 32 8
    let q := seamOf s.blk n
    (s.blk.takes 0x03 t →
        (selectable b (fld t.dw0 32 2) = true → exec .rosterSelect s = .next { s with blk := (complete { b with
          arb := { b.arb with pend := some (fld t.dw0 32 2), pendStep := !bit t.dw0 34, pendFrom := b.now } } i cOkay 0) })
        ∧ (selectable b (fld t.dw0 32 2) = false → exec .rosterSelect s = .next { s with blk := complete b i cRefused rNotAdmitted }))
    ∧ (s.blk.takes 0x08 t →
        (q.valid = false → exec .seamAssign s = .next { s with blk := complete b i cRefused rState })
        ∧ (q.valid = true → q.secure = true → present b = false → exec .seamAssign s = .next { s with blk := privRefuse b i t rPresence })
        ∧ (b.seamFree i n →
          (bit t.dw0 40 = false →
            exec .seamAssign s = .next { s with blk := complete (setSeam b n (fun e => { e with owners := e.owners ||| t.dw1 })) i cOkay 0 })
          ∧ (bit t.dw0 40 = true → q.owners ≠ 0 → exec .seamAssign s = .next { s with blk := complete b i cRefused rState })
          ∧ (bit t.dw0 40 = true → q.owners = 0 → q.sump = true → exec .seamAssign s = .next { s with blk := (
              complete (copySeams (setSeam b n (fun e => { e with seed := fld t.dw0 44 12, owners := t.dw1 }))) i cOkay 0) })
          ∧ (bit t.dw0 40 = true → q.owners = 0 → q.sump = false →
              let e : Seam := { q with seed := fld t.dw0 44 12, clearing := true }
              let row := seamLo q / 128 / 2 ^ (6 + logCh b.build)
              ∃ c, exec .seamAssign s = .next { s with blk := c } ∧ seamOf c n = e ∧ (∀ k, k ≠ n → seamOf c k = seamOf b k) ∧ c.cmdq = b.cmdq
                ∧ c.txns = b.txns
                ∧ (q.zmap = false → ∀ ch bank line, ch < b.build.channels → bank < 64 → lineIn b e ch bank row = some line →
                    ∃ o ∈ c.ops, o.kind = .clear ∧ o.stage = .bank ∧ o.ch = ch ∧ o.bank = bank ∧ o.row = row ∧ o.line = line ∧ o.seam = n)
                ∧ (q.zmap = true → b.chans.any (fun h => h.2.merge.any (fun m => m.seam == n)) = false → c.ops = b.ops))))
    ∧ (s.blk.takes 0x09 t → b.seamFree i n →
        exec .seamRelease s = .next { s with blk := setSeam b n (fun e => { e with owners := 0 }) })
    ∧ (s.blk.takes 0x0A t →
        ((q.valid = false ∨ q.sump = false) → exec .sumpValidate s = .next { s with blk := complete b i cRefused rState })
        ∧ (q.valid = true → q.sump = true → seamBusy b i n = false → q.sumpInvalid = true → exec .sumpValidate s = .next { s with blk := (
            complete (setSeam b n (fun e => { e with sumpInvalid := false, fill := seamHi q })) i cOkay 0) })
        ∧ (q.valid = true → q.sump = true → seamBusy b i n = false → q.sumpInvalid = false →
            exec .sumpValidate s = .next { s with blk := complete b i cOkay 0 }))
    ∧ (∀ m r, seamCmd s.blk 9 m = some r →
        (seamInUse s.blk m = true → exec (.seamReleaseComplete m) s = .next s)
        ∧ (seamInUse s.blk m = false → ∃ l, exec (.seamReleaseComplete m) s = .next { s with blk := (
              complete { s.blk with marks := l } r.idx.toNat cOkay 0) }
            ∧ ∀ k, k ∈ l ↔ k ∈ s.blk.marks ∧ (k.line * 128 < seamLo (seamOf s.blk m) ∨ seamHi (seamOf s.blk m) ≤ k.line * 128)))
    ∧ (∀ m, ((seamOf s.blk m).clearing = false ∨ seamZeroed s.blk m = false) → exec (.seedClearDone m) s = .next s)
    ∧ (∀ m r, (seamOf s.blk m).clearing = true → seamZeroed s.blk m = true → seamCmd s.blk 8 m = some r →
        ∃ a c, exec (.seedClearDone m) s = .next { s with
          arr := a
          blk := (complete (setSeam c m (fun e => { e with clearing := false, owners := r.dw1 })) r.idx.toNat cOkay 0) }
        ∧ a.mem = s.arr.mem ∧ { c with ops := s.blk.ops, zeroLines := s.blk.zeroLines } = s.blk
        ∧ ((seamOf s.blk m).zmap = false → a = s.arr ∧ c = s.blk)
        ∧ ((seamOf s.blk m).zmap = true → s.blk.build.bankSize ≤ 2 →
            c.zeroLines = s.blk.zeroLines.filter (fun k => !keyIn s.blk (seamOf s.blk m) k)
            ∧ ∀ ch row, ch < s.blk.build.channels → row < linesPerBank s.blk.build →
              let w := seamTagMask s.blk (seamOf s.blk m) ch row
              let d := (tagDecode s.arr ch row).data ||| w
              readWord a.tags (tagKey ch row) = if w = 0 then readWord s.arr.tags (tagKey ch row) else (d, eccEncode d)))

/-- What the commands of channels, power, sounding, the life cycle, NVM and debug do (R244, R245, R248, R342, R344, R347 to R349, R355, R395,
R398, R402, R460, R461). CH_STOP holds its channels until they are settled, and then stops them; CH_START lets them run, and ends a
CH_STOP of one of them. CH_RESET freezes its channel as a recovery does, without replays. INST_RESET begins the drain. BANK_RETIRE
begins a sparing, or is refused. PWR_SET asks, wakes, or is refused. SOUNDING captures. A privileged command without PRESENT is refused
with a record. Each has its command complete as the manual says, or waits. -/
def Obligations.ChannelAndPrivilegedCommandsAct : Prop :=
  ∀ (s : State) (t : Taken),
    let b := s.blk.taken t
    let i := t.idx.toNat
    let n := fld t.dw0 32 3
    let l := chansOf (fld t.dw0 32 8)
    (s.blk.takes 0x18 t → ∃ c, exec .chStop s = .next { s with blk := c }
        ∧ { c.still with zeroLines := [] } =
            { ({ b with recov := { b.recov with stopWait := b.recov.stopWait ++ [(i, l)] } } : Block).still with zeroLines := [] })
    ∧ (∀ k m, s.blk.recov.stopWait = [(k, m)] →
        (m.all (chSettled s.blk) = false → exec .chStopDone s = .next s)
        ∧ (m.all (chSettled s.blk) = true → ∃ c, exec .chStopDone s = .next { s with blk := complete c k cOkay 0 } ∧ c.recov.stopWait = []
            ∧ (∀ j, chan c j = if m.contains j then { chan s.blk j with stopped := true } else chan s.blk j)
            ∧ { c with chans := s.blk.chans, recov := s.blk.recov } = s.blk))
    ∧ (s.blk.takes 0x19 t →
        (s.blk.recov.stopWait = [] → ∃ c, exec .chStart s = .next { s with blk := (complete c i cOkay 0) }
          ∧ (∀ j, chan c j = if l.contains j && (chan b j).stopped then { chan b j with stopped := false, idleFrom := b.now } else chan b j)
          ∧ { c with chans := b.chans } = b)
        ∧ (∀ k m, s.blk.recov.stopWait = [(k, m)] → m.any (fun j => l.contains j) = true → ∃ c,
            exec .chStart s = .next { s with blk := (complete c i cOkay 0) } ∧ c.recov.stopWait = []
            ∧ c.cmdq = (complete b k cRefused rBusy).cmdq))
    ∧ (s.blk.takes 0x1A t →
        (chFrozen b n = true → exec .chReset s = .next { s with blk := (complete b i cRefused rBusy) })
        ∧ (chFrozen b n = false → b.power.hs = none → b.obs.sndBusy = false → ∃ c r, exec .chReset s = .next { s with blk := c }
            ∧ (chan c n).recov = some r ∧ r.phase = .reset ∧ r.replay = false ∧ r.abort = bit t.dw0 40 ∧ r.cmd = some i
            ∧ c.recov = { b.recov with chRecoveries := min 65535 (b.recov.chRecoveries + 1), lastLevel := 2 }
            ∧ (∀ k, k ≠ n → chan c k = chan b k) ∧ c.txns = b.txns ∧ c.ops = b.ops ∧ c.cmdq = b.cmdq
            ∧ c.obs.sndBusy = true ∧ c.obs.sndCause = 2))
    ∧ (s.blk.takes 0x1B t → b.recov.draining = none → b.bring.inReset = false → jobPairs b = [] → ∃ c,
        exec .instReset s = .next { s with blk := { c with
          bring := { b.bring with dumpPending := b.bring.dumpPending || isPithead b }
          recov := { b.recov with draining := some (usNow b), cause := 1, retrain := bit t.dw0 32, resetUs := usNow b } } }
        ∧ c = emit { b with cw := { b.cw with jobs := [] } } 0x64 none none (put 0 4 1 ||| putBit 4 (bit t.dw0 32)))
    ∧ (s.blk.takes 0x1C t →
        let sp := (chan b n).spare
        let bank := fld t.dw0 40 6
        (sp.phase ≠ 0 → (sp.bank = bank ∨ sp.waiting.isSome = true) → exec .bankRetire s = .next { s with blk := complete b i cRefused rBusy })
        ∧ (sp.phase ≠ 0 → sp.bank ≠ bank → sp.waiting = none → exec .bankRetire s = .next { s with blk := (
            setChan b n (fun c => { c with spare := { sp with waiting := some { bank := bank, cmd := some i } } })) })
        ∧ (∀ onto, sp.phase = 0 → freeSpare sp = some onto → (chan b n).merge.any (fun e => e.bank == bank) = false →
            let skip (l : List Nat) : List Nat := l.filter (fun k => k != bank && k != onto)
            exec .bankRetire s = .next { s with blk := (setChan b n (fun c => { c with
              spare := { sp with phase := 1, bank := bank, onto := onto, startUs := usNow b, cmd := some i, row := 0, redo := false, bad := false }
              dredge := { c.dredge with reads := skip c.dredge.reads, turns := skip c.dredge.turns } })) })
        ∧ (sp.phase = 0 → freeSpare sp = none → sp.noSpare.contains bank = true →
            exec .bankRetire s = .next { s with blk := complete b i cRefused rNoSpare }))
    ∧ (s.blk.takes 0x20 t →
        let m := fld t.dw0 40 8
        let lower := (chansOf m).filter (fun k => decide (levelOf b k < n))
        let h (mask : List Nat) : Handshake :=
          { target := n, mask := mask, auto := false, cmd := some i, phase := .ask, granted := false, usedUs := 0, fromUs := usNow b, drainUs := 0 }
        (∀ g, b.power.hs = some g → g.auto = false → exec .pwrSet s = .next { s with blk := (
            (complete { b with power := { b.power with refuseReason := 9, refuseCh := 0 } } i cRefused 9)) })
        ∧ (b.power.hs = none → n = 0 → b.power.runWait = [] → (∀ k ∈ chansOf m, chPower b k = .run) →
            exec .pwrSet s = .next { s with blk := (complete b i cOkay 0) })
        ∧ (b.power.hs = none → 0 < n → n ≤ 2 → lower = [] → exec .pwrSet s = .next { s with blk := (complete b i cOkay 0) })
        ∧ (b.power.hs = none → 0 < n → n ≤ 2 → lower ≠ [] → (∀ k ∈ lower, (chan b k).merge = [] ∧ holdsTallies b k = false) →
            exec .pwrSet s = .next { s with blk := { b with power := { b.power with hs := some (h lower) } } })
        ∧ (b.power.hs = none → 3 ≤ n → (∀ k, k < b.build.channels → (chan b k).merge = [] ∧ holdsTallies b k = false) →
            exec .pwrSet s = .next { s with blk := { b with power := { b.power with hs := some (h []) } } }))
    ∧ (s.blk.takes 0x28 t →
        (b.obs.sndBusy = true → exec .sounding s = .next { s with blk := complete b i cRefused rBusy })
        ∧ (b.obs.sndBusy = false → b.obs.sndHeld = true → bit t.dw0 32 = false →
            exec .sounding s = .next { s with blk := complete b i cRefused rState })
        ∧ (b.obs.sndBusy = false → (b.obs.sndHeld = false ∨ bit t.dw0 32 = true) → ∃ v, exec .sounding s = .next { s with blk := { b with
            obs := { b.obs with sndBusy := true, sndCause := 1, sndCmd := some i, snapshot := v } } }))
    ∧ (∀ opc level img err, [0x30, 0x31, 0x32, 0x33].contains opc = true → s.blk.takes opc t → present b = false →
        exec (opcRow level img err opc) s = .next { s with blk := privRefuse b i t rPresence })
    ∧ (s.blk.takes 0x30 t → present b = true →
        (fld t.dw0 32 2 ≤ b.bring.lcState → exec .lcAdvance s = .next { s with blk := privRefuse b i t rLifecycle })
        ∧ (b.bring.lcState < fld t.dw0 32 2 → nvmBusy b i = true → exec .lcAdvance s = .next { s with blk := complete b i cRefused rBusy })
        ∧ (b.bring.lcState < fld t.dw0 32 2 → nvmBusy b i = false → ∃ u, exec .lcAdvance s = .next u ∧ u.arr = s.arr
            ∧ u.blk.bring.wiping = true ∧ u.blk.bring.wipeCmd = some i ∧ u.blk.bring.wipeTarget = fld t.dw0 32 2
            ∧ u.blk.cmdq = b.cmdq ∧ u.blk.bring.lcState = b.bring.lcState))
    ∧ (∀ level img, s.blk.takes 0x31 t → present b = true → b.bring.lcState ≠ 3 → isPithead b = true → nvmBusy b i = false →
        (imageRefused b (img.take (fld t.dw2 0 25)) = true → exec (.nvmWrite level img false) s = .next { s with blk := complete b i cRefused rImage })
        ∧ (exec (.nvmWrite level img true) s = .next { s with blk := complete b i cRefused rImage })
        ∧ (imageRefused b (img.take (fld t.dw2 0 25)) = false → b.bring.holdupMin ≤ level.toNat →
            exec (.nvmWrite level img false) s = .next { s with blk := { b with bring := { b.bring with
              holdupLevel := level.toNat, nvmSeq := some (0, some i) } } }))
    ∧ (s.blk.takes 0x32 t → present b = true →
        ((b.bring.lcState = 1 ∨ b.bring.lcState = 2) → exec .debugUnlock s = .next { s with blk := (
            complete { b with bring := { b.bring with unlocked := true } } i cOkay 0) })
        ∧ (b.bring.lcState ≠ 1 → b.bring.lcState ≠ 2 → exec .debugUnlock s = .next { s with blk := privRefuse b i t rLifecycle }))
    ∧ (∀ level, s.blk.takes 0x33 t → present b = true →
        (isPithead b = false → exec (.dumpErase level) s = .next { s with blk := privRefuse b i t rNotPithead })
        ∧ (isPithead b = true → nvmBusy b i = false → b.bring.holdupMin ≤ level.toNat → exec (.dumpErase level) s = .next { s with blk := { b with
            bring := { b.bring with holdupLevel := level.toNat, nvmSeq := some (1, some i) } } }))

/-! G0. -/

/-- Writes on G0 of the command queue, the event ring, the canaries, the timebase and the debug window, and reads (R166, R426, R430,
R432, R439, R440, R459, R467 to R469, R477 to R479, R481). A write that takes effect changes its register as named and is answered
OKAY; a canary that trips in the cycle of its clear stays set; one whose rule fails is IGNORED, with its flag where it has one. An offset with no register is UNMAPPED, a request whose PAR
fails is answered ERROR with a record. A read of a data register steps its address. -/
def Obligations.GlobalRegistersAct : Prop :=
  ∀ (s : State) (v : Word), s.blk.running →
    let b := s.blk
    let q := b.cmdq
    let e := b.ev
    let lo : BitVec 32 := v.setWidth 32
    let ans (b : Block) (st : Nat) : Block := { b with g0 := some { rdata := 0, status := st } }
    let reads (b : Block) (off : Nat) : Block := { b with g0 := some { rdata := (regAt s.blk off).getD 0, status := 0 } }
    (let ok := (lo - q.tail).toNat ≤ 64 ∧ (lo - q.cplTail).toNat ≤ 64
     (ok → exec (.cmdqTail v) s = .next { s with blk := ans { b with cmdq := { q with tail := lo } } 0 })
     ∧ (¬ ok → exec (.cmdqTail v) s = .next { s with blk := ans { b with cmdq := { q with badTail := true } } 1 }))
    ∧ (let ok := (lo - q.cplTail).toNat ≤ (q.cplHead - q.cplTail).toNat
       (ok → exec (.cplTail v) s = .next { s with blk := ans { b with cmdq := { q with cplTail := lo } } 0 })
       ∧ (¬ ok → exec (.cplTail v) s = .next { s with blk := ans { b with cmdq := { q with badCpl := true } } 1 }))
    ∧ (let ok := (lo - e.tail).toNat ≤ (e.head - e.tail).toNat
       (ok → exec (.evtTail v) s = .next { s with blk := ans { b with ev := { e with tail := lo } } 0 })
       ∧ (¬ ok → exec (.evtTail v) s = .next { s with blk := ans { b with ev := { e with badTail := true } } 1 }))
    ∧ (evtOn e = true → exec (.evtEnable v) s = .next { s with blk := ans { b with ev := { e with ctl := (v ||| 1#64) &&& 0x1F#64 } } 0 })
    ∧ (evtOn e = false → exec (.evtEnable v) s = .next { s with blk := (ans { b with ev := { e with
        ctl := (v ||| 1#64) &&& 0x1F#64, ringBase := fld e.base 12 30 * 4096, ringSize := 4096 <<< min 12 (fld v 1 4)
        nextSeq := e.tail, head := e.tail, issued := []
        again := (e.issued.filter (fun r => !r.2.1)).map (fun r => r.2.2) ++ e.again, dbValue := e.tail, dbFromUs := none } } 0) })
    ∧ exec (.evtDisable v) s = .next { s with blk := ans { b with ev := { e with ctl := v &&& 0x1E#64 } } 0 }
    ∧ (∃ c, exec (.canaryClear v) s = .next { s with blk := ans c 0 } ∧ { c with regs := b.regs, ctxs := b.ctxs } = b
        ∧ { c.regs with canaryFlag := b.regs.canaryFlag } = b.regs
        ∧ (let trips (e : Nat × Ctx) : Prop := ∃ t ∈ e.2.trip, t.1 / 4 = b.now / 4
           (∀ e ∈ b.ctxs, trips e → bit c.regs.canaryFlag e.1 = bit b.regs.canaryFlag e.1 ∧ ctxOf c e.1 = ctxOf b e.1)
           ∧ ((∀ e ∈ b.ctxs, ¬ trips e) → c.regs.canaryFlag = b.regs.canaryFlag &&& ~~~v
             ∧ ∀ k, ctxOf c k = if bit v k then { ctxOf b k with site := (ctxOf b k).site &&& ~~~(1#64 <<< 63) } else ctxOf b k)))
    ∧ (exec (.timeLoad v) s = .next { s with blk := (ans { b with time := { b.time with loadPending := match b.time.loadPending with
        | some (w, 0) => some (w, 0) | some (w, 1) => some (w, 1) | _ => some (v, 2) } } 0) })
    ∧ exec .rlogData s = .next { s with blk := reads { b with rlog := { b.rlog with addr := (b.rlog.addr + 1) % 8192 } } 0x0240 }
    ∧ exec .trcRdata s = .next { s with blk := reads { b with obs := { b.obs with trcRaddr := (b.obs.trcRaddr + 1) % 32768 } } 0xA2140 }
    ∧ (let d := b.dbg
       let next : Word := (d.addr &&& ~~~(put 3 18 (2 ^ 18 - 1))) ||| put 3 18 (fld d.addr 3 18 + 1)
       let shut : State := { s with blk := { b with g0 := some { rdata := 0, status := 1 } } }
       (debugOpen b = false → exec (.dbgData none) s = .next shut ∧ exec (.dbgData (some v)) s = .next shut
          ∧ (∀ on, exec (.halt on) s = .next shut) ∧ exec .step s = .next shut)
       ∧ (debugOpen b = true →
          exec (.dbgData none) s = .next { s with blk := reads { b with dbg := { d with addr := next } } 0xC0018 }
          ∧ (d.halt = false → exec (.dbgData (some v)) s = .next { s with blk := ans b 1 })
          ∧ (d.halt = true → fld d.addr 62 2 = 0 →
              exec (.dbgData (some v)) s = .next { s with blk := ans { b with dbg := { d with code := tset d.code (fld d.addr 3 18) v, addr := next } } 0 })
          ∧ (d.halt = true → fld d.addr 62 2 = 1 → fld d.addr 3 18 < 65536 →
              exec (.dbgData (some v)) s = .next { s with blk := ans { b with dbg := { d with data := tset d.data (fld d.addr 3 18) v, addr := next } } 0 })
          ∧ (d.halt = true → fld d.addr 62 2 = 2 → fld d.addr 3 18 < 34 →
              exec (.dbgData (some v)) s = .next { s with blk := ans { b with dbg := { d with regs := tset d.regs (fld d.addr 3 18) v, addr := next } } 0 })
          ∧ (∀ on, exec (.halt on) s = .next { s with blk := ans { b with dbg := { d with halt := on } } 0 })
          ∧ (d.halt = false → exec .step s = .next { s with blk := ans b 0 })
          ∧ (d.halt = true → ∃ r m, exec .step s = .next { s with blk := ans { b with free := b.free + 36, dbg := { d with regs := r, data := m } } 0 }))) 
    ∧ (∀ off, exec (.registerWrite off v false) s = .next { s with blk := parityError b (g0Offset off) }
        ∧ exec (.g0Read off false) s = .next { s with blk := parityError b (g0Offset off) })
    ∧ (∀ off, g0Offset off < 0xC0000 → regAt b (g0Offset off) = none →
        exec (.registerWrite off v true) s = .next { s with blk := { b with g0 := some { rdata := 0, status := 2 } } }
        ∧ exec (.g0Read off true) s = .next { s with blk := { b with g0 := some { rdata := 0, status := 2 } } })
    ∧ (∀ off w, g0Offset off < 0xC0000 → regAt b (g0Offset off) = some w →
        (writable (g0Offset off) = false → exec (.registerWrite off v true) s = .next { s with blk := ans b 1 })
        ∧ (g0Offset off ≠ 0x0240 → g0Offset off ≠ 0xA2140 → exec (.g0Read off true) s = .next { s with blk := reads b (g0Offset off) }))
    ∧ exec (.registerWrite 0x0100 v true) s = .next { s with blk := (ans { b with regs := { b.regs with
        hangCtl := (b.regs.hangCtl &&& ~~~0xFFFFFF#64) ||| (v &&& 0xFFFFFF#64) } } 0) }

/-- Writes on G0 of a channel's registers, of the observation block and of a peer port's (R64, R228, R229, R240, R241, R291, R293, R322, R446,
R448, R454, R455, R459). A W1C bit that the block has set in this CLK_CTL cycle stays (R472). The ECC test takes an operation while none runs, and its result comes with ECC_TEST_DONE. A write of one
channel or port leaves the others alone, and a change of a link's state leaves a record. -/
def Obligations.UnitRegistersAct : Prop :=
  ∀ (s : State) (v : Word), s.blk.running →
    let b := s.blk
    let o := b.obs
    let ans (b : Block) (st : Nat) : Block := { b with g0 := some { rdata := 0, status := st } }
    (∀ ch, chanOk b ch = true → ch < 8 →
      let c := chan b ch
      let t := c.ecc
      let test (t : EccTest) : Block := setChan b ch (fun c => { c with ecc := t })
      (exec (.dmaResume ch) s = .next { s with blk := ans (if bit (w1cTaken b (chOff ch 0x918) 1#64) 0 = true then setChan b ch (fun c => { c with dmaHalt := false }) else b) 0 })
      ∧ (t.busy = true → (∀ row ∈ [Instr.encode ch, .rawWrite ch, .rawRead ch, .decode ch], exec row s = .next { s with blk := ans b 1 }))
      ∧ (t.busy = false →
          exec (.encode ch) s = .next { s with blk := ans (test { t with busy := true, op := 1 }) 0 }
          ∧ exec (.decode ch) s = .next { s with blk := ans (test { t with busy := true, op := 4 }) 0 }
          ∧ (66 ≤ fld t.addr 0 7 → exec (.rawWrite ch) s = .next { s with blk := ans (test { t with err := true, op := 2 }) 0 }
              ∧ exec (.rawRead ch) s = .next { s with blk := ans (test { t with err := true, op := 3 }) 0 })
          ∧ (fld t.addr 0 7 < 64 → rawProtected b ch (fld t.addr 0 7) (fld t.addr 7 13) = true →
              exec (.rawWrite ch) s = .next { s with blk := ans (test { t with err := true, op := 2 }) 0 })
          ∧ (fld t.addr 0 7 < 64 → rawProtected b ch (fld t.addr 0 7) (fld t.addr 7 13) = false → ∃ op : LineOp,
              exec (.rawWrite ch) s = .next { s with blk := (ans { test { t with busy := true, err := false, op := 2 } with
                serial := b.serial + 1, ops := b.ops ++ [op] } 0) }
              ∧ op.kind = .test ∧ op.ch = ch ∧ op.bank = fld t.addr 0 7 ∧ op.row = fld t.addr 7 13 ∧ op.stage = .bank ∧ op.readyAt = b.now + 1)
          ∧ (fld t.addr 0 7 < 64 → ∃ op : LineOp,
              exec (.rawRead ch) s = .next { s with blk := (ans { test { t with busy := true, err := false, op := 3 } with
                serial := b.serial + 1, ops := b.ops ++ [op] } 0) }
              ∧ op.kind = .test ∧ op.ch = ch ∧ op.bank = fld t.addr 0 7 ∧ op.row = fld t.addr 7 13 ∧ op.stage = .bank ∧ op.readyAt = b.now + 1)
          ∧ exec (.eccTestDone ch) s = .next s)
      ∧ (t.busy = true → b.ops.any (fun o => o.kind == .test && o.ch == ch) = false →
          (t.op = 1 → exec (.eccTestDone ch) s = .next { s with blk := (test { t with
            busy := false, check := (t.check &&& ~~~0xFF#64) ||| put 0 8 (eccEncode t.data).toNat }) })
          ∧ (t.op = 4 → exec (.eccTestDone ch) s = .next { s with blk := (test { t with
            busy := false, check := checkWord (fld t.check 0 8) (eccDecode t.data (BitVec.ofNat 8 (fld t.check 0 8))) }) }))
      ∧ (∃ u, exec (.confClr ch v) s = .next { s with blk := ans u 0 }
          ∧ (∀ k, tget 0 (chan u ch).conf k = if k < 9 ∧ bit v k = true then 0 else tget 0 c.conf k)
          ∧ { chan u ch with conf := c.conf } = c ∧ (∀ k, k ≠ ch → chan u k = chan b k) ∧ { u with chans := b.chans } = b)
      ∧ exec (.clrCnt ch) s = .next { s with blk := (ans (setChan b ch (fun c => { c with
          ce := [], ue := [], tagUe := 0, tagCe := 0, poisonRd := 0 })) 0) })
    ∧ (∃ u, exec (.obsCtlClear v) s = .next { s with blk := ans u 0 } ∧ u.obs.ocnt = [] ∧ u.obs.freeze = bit v 0 ∧ u.obs.pinEn = bit v 1
        ∧ (∀ n, chan u n = { chan b n with slotCnt := [], zhitCnt := [], unownCnt := [], ownedCnt := [], passedCnt := [] })
        ∧ { u with obs := o, chans := b.chans } = b)
    ∧ (∃ p, exec (.obsCtlFreeze v) s = .next { s with blk := ans { b with obs := p } 0 } ∧ p.freeze = bit v 0 ∧ p.pinEn = bit v 1
        ∧ p.ocnt = o.ocnt ∧ p.trigFrozen = (o.trigFrozen && !bit (w1cTaken b 0xA2000 v) 2))
    ∧ (bit v 3 = false → ∃ p, exec (.arm v) s = .next { s with blk := ans { b with obs := p } 0 } ∧ p.trcState = .armed
        ∧ p.trcCtl = v &&& 0xFFFFFF01FFFFFFF0#64 ∧ p.stream = bit v 32 ∧ p.pre = min 16367 (fld v 18 14) ∧ p.ocnt = o.ocnt)
    ∧ (bit v 1 = false → bit v 3 = false → ∃ p, exec (.trcStop v) s = .next { s with blk := ans { b with obs := p } 0 }
        ∧ p.trcState = (match o.trcState with | .armed => .idle | .triggered => .stopped | st => st) ∧ p.ocnt = o.ocnt)
    ∧ (bit v 1 = false → bit v 2 = false → ∃ p, exec (.force v) s = .next { s with blk := ans { b with obs := p } 0 }
        ∧ (o.trcState = .armed → p.trcState = .triggered ∧ p.postLeft = o.post) ∧ (o.trcState ≠ .armed → p.trcState = o.trcState)
        ∧ p.ocnt = o.ocnt)
    ∧ (∀ n, peerOk b n = true → n < 4 →
      let l := linkOf b n
      let only (u : Block) (l : Link) : Prop := linkOf u n = l ∧ (∀ k, k ≠ n → linkOf u k = linkOf b k)
        ∧ { u with cw := { u.cw with links := b.cw.links } } = b
      let noted (u : Block) (l : Link) : Prop := linkOf u n = l ∧ (∀ k, k ≠ n → linkOf u k = linkOf b k)
        ∧ { u.quiet with cw := { u.cw with links := b.cw.links } } = b.quiet
      (l.disable = false →
        ((l.state = .down ∨ l.state = .held) → ∃ u, exec (.train n) s = .next { s with blk := ans u 0 }
          ∧ noted u { l with state := .training, downUs := usNow b, attempts := 1 })
        ∧ (l.state = .active → ∃ u, exec (.retrain n) s = .next { s with blk := ans u 0 }
          ∧ noted u { l with
            state := .retraining, downUs := usNow b, retrains := min 65535 (l.retrains + 1), retr := true, oldWidth := l.width })
        ∧ (l.state ≠ .disabled → ∃ u, exec (.chkClr n) s = .next { s with blk := ans u 0 }
          ∧ only u { l with chk := [], log := [], logNext := 0, logWrap := false })
        ∧ (l.state ≠ .disabled → l.tx = [] → ∃ u, exec (.disable n true) s = .next { s with blk := ans u 0 }
          ∧ (linkOf u n).state = .disabled ∧ (linkOf u n).disable = true ∧ (linkOf u n).replay = [] ∧ u.txns = b.txns ∧ u.chans = b.chans))
      ∧ (l.state = .disabled → ∃ u, exec (.disable n false) s = .next { s with blk := ans u 0 }
          ∧ noted u { l with disable := false, state := .down, downUs := usNow b }))

/-! Peer links. -/

/-- The states of a peer link (R290 to R294, R298). Training starts when the partner trains or LINK_RETRY is due, has four attempts of 5 ms, and
ends with HELLO in the width of the halves that work at both ends, with fresh sequence numbers and full credits. HELLO from the partner, sent and
received, makes the link ACTIVE; one of another protocol holds the port. A link error, of a port that exchanges HELLO too, starts to retrain, which keeps the
unacknowledged flits, and loses them, and the link, where it fails. Nothing else of the causeway or of the block changes but records. -/
def Obligations.LinksChangeState : Prop :=
  ∀ (s : State) (n : Nat), peerOk s.blk n = true → cwLive s.blk = true →
    let b := s.blk
    let l := linkOf b n
    let only (u : Block) (l : Link) : Prop := linkOf u n = l ∧ (∀ k, k ≠ n → linkOf u k = linkOf b k)
      ∧ { u with cw := { u.cw with links := b.cw.links } } = b
    let noted (u : Block) (l : Link) : Prop := linkOf u n = l ∧ (∀ k, k ≠ n → linkOf u k = linkOf b k)
      ∧ { u.quiet with cw := { u.cw with links := b.cw.links } } = b.quiet
    let secs := fld b.cw.ctl 16 16
    (l.state = .down → ∃ u, exec (.partnerTraining n) s = .next { s with blk := u }
        ∧ noted u { l with state := .training, downUs := usNow b, attempts := 1 })
    ∧ (l.state ≠ .down → exec (.partnerTraining n) s = .next s ∧ exec (.linkRetry n) s = .next s)
    ∧ (l.state = .down → secs ≠ 0 → usDue b l.downUs (secs * 1000000) = true → ∃ u, exec (.linkRetry n) s = .next { s with blk := u }
        ∧ noted u { l with state := .training, downUs := usNow b, attempts := 1 })
    ∧ (l.state = .training → usDue b l.downUs 5000 = true → l.attempts < 4 → ∃ u, exec (.trainingAttemptTimeout n) s = .next { s with blk := u }
        ∧ only u { l with attempts := l.attempts + 1, downUs := usNow b })
    ∧ (l.state = .training → usDue b l.downUs 5000 = true → 4 ≤ l.attempts → l.tx = [] → ∃ u,
        exec (.trainingAttemptTimeout n) s = .next { s with blk := u } ∧ (linkOf u n).state = .down ∧ u.txns = b.txns ∧ u.chans = b.chans)
    ∧ ((l.state ≠ .training ∨ usDue b l.downUs 5000 = false) → exec (.trainingAttemptTimeout n) s = .next s)
    ∧ (∀ t : Trained, l.state = .training →
        let failed := t.failed ||| fusedLanes b n
        let w := commonWidth failed t.partner
        (t.ok = true → w ≠ 0 → ∃ u, exec (.trainingComplete n t) s = .next { s with blk := u } ∧ noted u { l with
          state := .hello, downUs := usNow b, width := w, failed := failed
          retr := false, helloSent := false, helloGot := false, partnerValid := false, seqNext := 0, seqExp := 0, nakDue := false
          nakSent := false, replay := [], sentAt := [], replayPos := none, replayTries := 0, skip := false, beaconed := false
          imaged := false, carried := [], txRest := none, partialKind := none, partialChunks := [], credit := (1024, 2048, 64)
          owed := (0, 0, 0) })
        ∧ ((t.ok = false ∨ w = 0) → l.attempts < 4 → ∃ u, exec (.trainingComplete n t) s = .next { s with blk := u }
          ∧ only u { l with failed := failed, attempts := l.attempts + 1, downUs := usNow b }))
    ∧ (∀ t, l.state ≠ .training → exec (.trainingComplete n t) s = .next s)
    ∧ (l.state = .active → ∃ u, exec (.linkError n) s = .next { s with blk := u } ∧ noted u { l with
          state := .retraining, downUs := usNow b, retrains := min 65535 (l.retrains + 1), retr := true, oldWidth := l.width })
    ∧ (l.state = .hello → ∃ u, exec (.linkError n) s = .next { s with blk := u }
        ∧ noted u { l with state := .retraining, downUs := usNow b, retrains := min 65535 (l.retrains + 1) })
    ∧ (l.state ≠ .active → l.state ≠ .hello → exec (.linkError n) s = .next s)
    ∧ (∀ t : Trained, l.state = .retraining → t.ok = true → commonWidth (t.failed ||| fusedLanes b n) t.partner ≠ 0 →
        usDue b l.downUs 100 = false → ∃ u, exec (.retrainEnd n t) s = .next { s with blk := u } ∧ noted u { l with
          state := .hello, downUs := usNow b, width := commonWidth (t.failed ||| fusedLanes b n) t.partner
          failed := t.failed ||| fusedLanes b n, helloSent := false, helloGot := false, replayTries := 0
          replayPos := if l.replay.isEmpty then none else some 0 })
    ∧ (∀ t : Trained, l.state = .retraining →
        (t.ok = false ∨ commonWidth (t.failed ||| fusedLanes b n) t.partner = 0 ∨ usDue b l.downUs 100 = true) → l.tx = [] → ∃ u,
        exec (.retrainEnd n t) s = .next { s with blk := u } ∧ (linkOf u n).state = .down ∧ (linkOf u n).replay = []
        ∧ (linkOf u n).lostFlits = min 65535 (l.lostFlits + l.replay.length) ∧ u.txns = b.txns ∧ u.chans = b.chans)
    ∧ (∀ t, l.state ≠ .retraining → exec (.retrainEnd n t) s = .next s)
    ∧ (showingCtl b (.peer n) 1 = none → exec (.hello n) s = .next s)
    ∧ (∀ m, showingCtl b (.peer n) 1 = some m → l.state = .hello → fld m.hdr 24 8 = 3 → m.src ≠ b.cw.instNum → expected b n = none →
        (l.helloSent = false → ∃ u, exec (.hello n) s = .next { s with blk := u } ∧ only u { l with
            rx := l.rx.erase m, partner := m.src, partnerPort := fld m.hdr 21 2, partnerValid := true, helloGot := true
            owed := if isHello m then l.owed else addVc l.owed (vcOf m.kind) m.len })
        ∧ (l.helloSent = true → ∃ u, exec (.hello n) s = .next { s with blk := u } ∧ (linkOf u n).state = .active
            ∧ (linkOf u n).partner = m.src ∧ u.txns = b.txns ∧ u.chans = b.chans))
    ∧ (∀ m, showingCtl b (.peer n) 1 = some m → l.state = .hello → fld m.hdr 24 8 ≠ 3 → l.tx = [] → ∃ u,
        exec (.hello n) s = .next { s with blk := u } ∧ (linkOf u n).state = .held ∧ u.txns = b.txns ∧ u.chans = b.chans)

/-- Flits (R295 to R299, R306, R321). A port that exchanges no flits takes and sends none. A flit with a bad CRC is counted as a violation and
asked for again; one out of order is asked for again, and nothing of it is taken. A DATA flit in order moves the expected SEQ on and
gives its credits; a control message of one chunk in it joins the receive buffer. A NAK, and 1 microsecond without an acknowledgement of
the oldest flit, replay from that flit. A port sends a NAK that is due, else the next flit of a replay, else a message with the next SEQ, which waits for
its acknowledgement, else an idle flit. -/
def Obligations.FlitsAreExchanged : Prop :=
  ∀ (s : State) (n : Nat), peerOk s.blk n = true → cwLive s.blk = true →
    let b := s.blk
    let l := linkOf b n
    let only (u : Block) (l : Link) : Prop := linkOf u n = l ∧ (∀ k, k ≠ n → linkOf u k = linkOf b k)
      ∧ { u with cw := { u.cw with links := b.cw.links }, obs := b.obs } = b
    let live := l.state = .active ∨ l.state = .hello
    let credits (f : Flit) : Nat × Nat × Nat :=
      (min 1024 (l.credit.1 + fld f.ctl 71 8), min 2048 (l.credit.2.1 + fld f.ctl 79 8), min 64 (l.credit.2.2 + fld f.ctl 87 4))
    let sound (f : Flit) : Prop := f.crc = flitCrc f.ctl f.body ∧ f.ctl >>> 91 = 0 ∧ flitAck f = ackedSeq l
    (∀ f, ¬ live → exec (.flitReceive n f) s = .next s ∧ exec (.nak n f) s = .next s ∧ exec (.flitSend n) s = .next s)
    ∧ (∀ f, live → f.crc ≠ flitCrc f.ctl f.body → ∃ u, exec (.flitReceive n f) s = .next { s with blk := u }
        ∧ (linkOf u n).crcErr = min 65535 (l.crcErr + 1) ∧ (linkOf u n).nakDue = true ∧ (linkOf u n).seqExp = l.seqExp ∧ (linkOf u n).rx = l.rx
        ∧ tget 0 (linkOf u n).chk 1 = min (2 ^ 48 - 1) (tget 0 l.chk 1 + 1) ∧ ∀ k, k ≠ n → linkOf u k = linkOf b k)
    ∧ (∀ f, live → sound f → flitKind f = 1 → flitSeq f ≠ l.seqExp → ∃ u, exec (.flitReceive n f) s = .next { s with blk := u }
        ∧ (linkOf u n).seqExp = l.seqExp ∧ (linkOf u n).rx = l.rx ∧ (linkOf u n).credit = l.credit
        ∧ (linkOf u n).nakSent = true ∧ (l.nakSent = false → (linkOf u n).nakDue = true) ∧ ∀ k, k ≠ n → linkOf u k = linkOf b k)
    ∧ (∀ f, live → sound f → flitKind f = 1 → flitSeq f = l.seqExp → l.partialKind = none →
        (∀ k, 2 ≤ k → k ≤ 15 → flitMap f k = 0 ∧ flitChunk f k = 0) →
        (flitMap f 1 = 0 → flitChunk f 1 = 0 → ∃ u, exec (.flitReceive n f) s = .next { s with blk := u }
          ∧ only u { l with seqExp := (l.seqExp + 1) % 4096, nakSent := false, credit := credits f })
        ∧ (let m := msgOf .control [flitChunk f 1]
           flitMap f 1 = 4 → l.state = .active → m.len = 1 → fieldsOk m = true → m.hops ≤ hopLimit b → rxChunks l 2 + l.owed.2.2 + 1 ≤ 64 →
           ∃ u, exec (.flitReceive n f) s = .next { s with blk := u } ∧ only u { l with
             seqExp := (l.seqExp + 1) % 4096, nakSent := false, credit := credits f, partialChunks := [], skip := false
             rx := l.rx ++ [{ m with seq := flitSeq f, chunk := 1, since := b.now, inp := n }] }))
    ∧ (∀ f, flitKind f ≠ 2 → exec (.nak n f) s = .next s)
    ∧ (∀ f, live → sound f → flitKind f = 2 → l.replay ≠ [] → l.replayTries < 4 → ∃ u, exec (.nak n f) s = .next { s with blk := u }
        ∧ only u { l with
          credit := credits f, replayPos := some 0, replayTries := l.replayTries + 1, replays := min 65535 (l.replays + 1) })
    ∧ (live → l.replay ≠ [] → l.replayPos = none → usDue b (usAt b (l.sentAt.headD 0)) 1 = true → l.replayTries < 4 → ∃ u,
        exec (.replayTimeout n) s = .next { s with blk := u } ∧ only u { l with
          replayPos := some 0, replayTries := l.replayTries + 1, replays := min 65535 (l.replays + 1) })
    ∧ ((l.replay = [] ∨ usDue b (usAt b (l.sentAt.headD 0)) 1 = false) → exec (.replayTimeout n) s = .next s)
    ∧ (let gone := (l.owed.1 - 255, l.owed.2.1 - 255, l.owed.2.2 - 15)
       (live → l.nakDue = true → ∃ u f, exec (.flitSend n) s = .next { s with blk := u } ∧ flitKind f = 2 ∧ f.crc = flitCrc f.ctl f.body
          ∧ only u { l with nakDue := false, owed := gone, lastFlit := some f })
       ∧ (∀ i g, live → l.nakDue = false → l.replayPos = some i → l.replay[i]? = some g → ∃ u f, exec (.flitSend n) s = .next { s with blk := u }
          ∧ f.body = g.body ∧ f.crc = flitCrc f.ctl f.body
          ∧ only u { l with
            replayPos := if i + 1 < l.replay.length then some (i + 1) else none, sentAt := l.sentAt.set i b.now, lastFlit := some f })
       ∧ (live → l.nakDue = false → l.replayPos = none → 128 ≤ l.replay.length → ∃ u f, exec (.flitSend n) s = .next { s with blk := u }
          ∧ flitKind f = 0 ∧ f.crc = flitCrc f.ctl f.body ∧ only u { l with owed := gone, lastFlit := some f })
       ∧ (l.state = .active → l.nakDue = false → l.replayPos = none → l.replay.length < 128 → l.tx = [] → l.txRest = none → ∃ u f,
          exec (.flitSend n) s = .next { s with blk := u } ∧ flitKind f = 0 ∧ f.crc = flitCrc f.ctl f.body
          ∧ only u { l with owed := gone, lastFlit := some f })
       ∧ (∀ m, l.state = .active → l.nakDue = false → l.replayPos = none → l.replay.length < 128 → l.tx = [m] → l.txRest = none → m.kind = .control →
          m.len = 1 → 1 ≤ l.credit.2.2 → l.seqNext < 4096 → ∃ u f, exec (.flitSend n) s = .next { s with blk := u }
          ∧ flitKind f = 1 ∧ flitSeq f = l.seqNext ∧ flitMap f 1 = 4 ∧ flitChunk f 1 = m.hdr ∧ f.crc = flitCrc f.ctl f.body
          ∧ only u { l with
            tx := [], credit := (l.credit.1, l.credit.2.1, l.credit.2.2 - 1), owed := gone, seqNext := (l.seqNext + 1) % 4096
            replay := l.replay ++ [f], sentAt := l.sentAt ++ [b.now], carried := l.carried ++ [(l.seqNext, msgGoal m)], lastFlit := some f })
       ∧ (l.state = .hello → l.nakDue = false → l.replayPos = none → l.replay.length < 128 → l.helloSent = false → l.helloGot = false →
          l.txRest = none → l.seqNext < 4096 → ∃ u f, exec (.flitSend n) s = .next { s with blk := u }
          ∧ flitKind f = 1 ∧ flitSeq f = l.seqNext ∧ flitMap f 1 = 4 ∧ flitChunk f 1 = (helloMsg b n).hdr ∧ f.crc = flitCrc f.ctl f.body
          ∧ only u { l with
            helloSent := true, owed := gone, seqNext := (l.seqNext + 1) % 4096, replay := l.replay ++ [f], sentAt := l.sentAt ++ [b.now]
            carried := l.carried ++ [(l.seqNext, 64)], lastFlit := some f }))

/-! Messages. -/

/-- Requests, write lines and responses between instances (R300, R304, R305, R309, R312, R321, R380). With no message at the input nothing
happens. One for another instance is queued at the port that its route names, its HOPS one more; a request without a route is
answered NOROUTE. A request for this instance becomes outstanding; without an open context, or before the instance is ready, it is
answered ABORTED and nothing else. A message for this instance goes to the local port in its turn. A write line gives its request the next beat. A response ends its request, is dropped under
another shift or before the instance is ready, and is a violation where no request awaits it. -/
def Obligations.MessagesReachTheirRequests : Prop :=
  ∀ (s : State) (n : Nat), peerOk s.blk n = true → n < 4 →
    let b := s.blk
    let i : CwIn := .peer n
    let passes (u : Block) (m : Msg) (p : Nat) : Prop :=
      (linkOf u p).tx = (linkOf b p).tx ++ [{ withHops m (m.hops + 1) with since := b.now }] ∧ (linkOf u n).rx = (linkOf b n).rx.erase m
        ∧ u.txns = b.txns ∧ u.chans = b.chans ∧ u.ctxs = b.ctxs
    let routed (m : Msg) (p : Nat) : Prop :=
      m.dst ≠ b.cw.instNum ∧ (∃ o, pickRoute b m.dst = some (o, p)) ∧ tget 0 b.cw.changing m.dst = 0 ∧ m.hops + 1 ≤ hopLimit b
    (showing b i .request = none → exec (.requestMessage i) s = .next s)
    ∧ (showing b i .writeLine = none → exec (.writeLine i) s = .next s)
    ∧ (showing b i .response = none → exec (.responseMessage i) s = .next { s with blk := b })
    ∧ (∀ m p, showing b i .request = some m → routed m p → ∃ u, exec (.requestMessage i) s = .next { s with blk := u } ∧ passes u m p)
    ∧ (∀ m p, showing b i .writeLine = some m → routed m p → tget (0, 0) b.cw.openCls (openKey m.inp m.src m.orig) ≠ (9, 0) → ∃ u,
        exec (.writeLine i) s = .next { s with blk := u } ∧ passes u m p)
    ∧ (∀ m p, showing b i .response = some m → routed m p → ∃ u, exec (.responseMessage i) s = .next { s with blk := u } ∧ passes u m p)
    ∧ (∀ m, showing b i .request = some m → m.inp = n → m.dst ≠ b.cw.instNum → pickRoute b m.dst = none → ∃ u r,
        exec (.requestMessage i) s = .next { s with blk := u } ∧ u.cw.noroute = min 65535 (b.cw.noroute + 1)
        ∧ u.cw.local_ = b.cw.local_ ++ [r] ∧ r.kind = .response ∧ fld r.hdr 8 4 = 11 ∧ r.dst = m.src ∧ u.txns = b.txns)
    ∧ (∀ m o, showing b i .request = some m → m.dst = b.cw.instNum → b.bring.wipeHold = false → b.safety.portsStopped = false →
        opOfCode (fld m.hdr 8 5) = some o → b.power.inst = .on → localTurn b i m = true →
        (isReady b = false ∨ (ctxOf b (fld m.hdr 96 6)).state ≠ .open ∨ (ctxOf b (fld m.hdr 96 6)).faulted = true) → ∃ u x,
          exec (.requestMessage i) s = .next { s with blk := u } ∧ u.txns = b.txns ++ [x] ∧ x.org = .remote m.src m.orig m.inp ∧ x.op = o
          ∧ x.req = reqOfMsg m ∧ x.phase = .answered .aborted ∧ u.ops = b.ops ∧ u.xfers = b.xfers ∧ u.descs = b.descs)
    ∧ (∀ m x, showing b i .writeLine = some m → m.dst = b.cw.instNum → localTurn b i m = true → lineOwner b m = some x → x.phase = .answered .aborted →
        descOf b x.uid = none → ∃ u,
        exec (.writeLine i) s = .next { s with blk := u } ∧ (∃ y ∈ u.txns, y.uid = x.uid ∧ y.beatsOut = x.beatsOut + 1 ∧ y.gotLast = bit m.hdr 52)
        ∧ u.ops = b.ops)
    ∧ (∀ m, showing b i .writeLine = some m → m.dst = b.cw.instNum → localTurn b i m = true → lineOwner b m = none → m.inp = n → ∃ u,
        exec (.writeLine i) s = .next { s with blk := u } ∧ u.txns = b.txns ∧ tget 0 (linkOf u n).chk 7 = min (2 ^ 48 - 1) (tget 0 (linkOf b n).chk 7 + 1))
    ∧ (∀ m, m.dst = b.cw.instNum → localTurn b i m = false →
        (showing b i .request = some m → exec (.requestMessage i) s = .next s) ∧ (showing b i .writeLine = some m → exec (.writeLine i) s = .next s))
    ∧ (∀ m, showing b i .response = some m → m.dst = b.cw.instNum → isReady b = false → ∃ u, exec (.responseMessage i) s = .next { s with blk := u }
        ∧ u.cw.rspDropped = min 65535 (b.cw.rspDropped + 1) ∧ u.txns = b.txns)
    ∧ (∀ m, showing b i .response = some m → m.dst = b.cw.instNum → isReady b = true →
        let c := fld m.hdr 20 6
        (staleShift b c (m.hdr.extractLsb' 12 8) = true → ∃ u, exec (.responseMessage i) s = .next { s with blk := u } ∧ u.txns = b.txns
          ∧ (ctxOf u c).dropped = min (2 ^ 24 - 1) ((ctxOf b c).dropped + 1) ∧ ∀ k, k ≠ c → ctxOf u k = ctxOf b k)
        ∧ (∀ x, staleShift b c (m.hdr.extractLsb' 12 8) = false → bit m.hdr 71 = false →
            b.txns.find? (fun x => decide (x.org = .loc (portOfOrig m.orig)) && x.req.id == m.hdr.extractLsb' 0 8 && x.phase == .active
              && decide (instOf x.req.addr = m.src) && x.op.isRead == decide (fld m.hdr 76 2 = 0)) = some x →
            ∃ u, exec (.responseMessage i) s = .next { s with blk := u }
              ∧ u.txns = b.txns.map (fun y => if y.uid = x.uid then answerTxn (statusOf (fld m.hdr 8 4)) (b.now + 5) y else y))
        ∧ (m.inp = n → staleShift b c (m.hdr.extractLsb' 12 8) = false → b.txns = [] → ∃ u,
            exec (.responseMessage i) s = .next { s with blk := u } ∧ tget 0 (linkOf u n).chk 11 = min (2 ^ 48 - 1) (tget 0 (linkOf b n).chk 11 + 1)))

/-- Control messages of the boot, the routes and the aborts (R307, R314 to R317, R319, R320, R361). The BEACON that came first names the parent and
the pithead. Image bytes are kept, a complete image with its check is written to the store of the arrays, one without is dropped. START without GO leaves the
instance as it is. The pithead notes each acknowledgement once, and starts its sender. An ABORT counts once. ROUTE_SET writes its
entry and is acknowledged. The pithead grants an off plan once every receiver has acknowledged it, or refuses it after 10 ms. OFF_ACK
lets the handshake go on, or ends it. A worker that has not acknowledged after 80 ms has one record. -/
def Obligations.ControlMessagesAct : Prop :=
  ∀ (s : State) (n : Nat), peerOk s.blk n = true →
    let b := s.blk
    let i : CwIn := .peer n
    let mine (u : Block) : Prop := u.txns = b.txns ∧ u.chans = b.chans ∧ u.seams = b.seams ∧ u.regs = b.regs
    (∀ t, showingCtl b i t = none →
        (t = 2 → exec (.beacon n) s = .next s) ∧ (t = 3 → exec (.image n) s = .next s) ∧ (t = 4 → exec (.imageEnd n) s = .next s)
        ∧ (t = 5 → exec (.imageAck i) s = .next s) ∧ (t = 6 → exec (.start n) s = .next s) ∧ (t = 7 → exec (.abort n) s = .next s)
        ∧ (t = 8 → exec (.routeSet i) s = .next s) ∧ (t = 9 → exec (.routeAck i) s = .next s) ∧ (t = 10 → exec (.offReq i) s = .next s)
        ∧ (t = 11 → exec (.offAck i) s = .next s) ∧ (t = 12 → exec (.bootReq n) s = .next s))
    ∧ (∀ m, showingCtl b i 2 = some m → isPithead b = false → bootWaits b = false → b.cw.parent = none → b.cw.started = false → ∃ u,
        exec (.beacon n) s = .next { s with blk := u } ∧ u.cw.parent = some ((firstBeacon b).getD (n, m)).1
        ∧ u.cw.pitheadInst = ((firstBeacon b).getD (n, m)).2.src ∧ mine u)
    ∧ (∀ m, showingCtl b i 2 = some m → isPithead b = true → b.cw.instNum ≤ m.src → ∃ u, exec (.beacon n) s = .next { s with blk := u }
        ∧ (linkOf u n).rx = (linkOf b n).rx.erase m ∧ u.cw.demoted = b.cw.demoted ∧ u.cw.parent = b.cw.parent ∧ mine u)
    ∧ (∀ m, showingCtl b i 3 = some m → bootMsg b n m = .take → m.bcast = false → b.cw.imageOk = false → ∃ u,
        exec (.image n) s = .next { s with blk := u } ∧ tget 0 u.cw.bootBytes (fld m.hdr 21 24 / 128) = m.data.getD 0 ∧ mine u)
    ∧ (∀ m, showingCtl b i 4 = some m → bootMsg b n m = .take → m.bcast = false → b.cw.imageOk = false →
        (∀ l, imageBytes b (fld m.hdr 21 25) = some l → (crc32c l).toNat = fld m.hdr 46 32 → ∃ u,
          exec (.imageEnd n) s = .next { s with arr := writeStore s.arr u u.bring.store, blk := u }
          ∧ u.bring.store = packStore b l ∧ u.cw.imageOk = true ∧ mine u)
        ∧ (imageBytes b (fld m.hdr 21 25) = none → ∃ u, exec (.imageEnd n) s = .next { s with blk := u }
          ∧ u.bring.store = b.bring.store ∧ u.cw.imageOk = false ∧ u.cw.bootBytes = [] ∧ mine u))
    ∧ (∀ m, showingCtl b i 6 = some m → bootMsg b n m = .take → m.bcast = false → bit m.hdr 21 = false → ∃ u,
        exec (.start n) s = .next { s with blk := u } ∧ u.bring = b.bring ∧ u.cw.started = b.cw.started ∧ mine u)
    ∧ (∀ m, showingCtl b i 6 = some m → bootMsg b n m = .take → m.bcast = false → bit m.hdr 21 = true → b.cw.imageOk = true → ∃ u,
        exec (.start n) s = .next { s with blk := u } ∧ u.cw.asking = false ∧ (u.bring.phase = 4 ∨ u.bring.phase = 15) ∧ u.txns = b.txns)
    ∧ (∀ m, showingCtl b i 5 = some m → m.dst = b.cw.instNum → isPithead b = true →
        (bit m.hdr 21 = false → ∃ u, exec (.imageAck i) s = .next { s with blk := u } ∧ u.cw.acked = b.cw.acked
          ∧ u.cw.sentStart = b.cw.sentStart ∧ mine u)
        ∧ (bit m.hdr 21 = true → m.src ≠ b.cw.instNum → b.cw.acked.contains m.src = false → ∃ u, exec (.imageAck i) s = .next { s with blk := u }
          ∧ u.cw.acked = b.cw.acked ++ [m.src] ∧ u.cw.sentStart.contains m.src = true ∧ u.cw.heard.contains m.src = true ∧ mine u))
    ∧ (∀ m, showingCtl b i 7 = some m →
        let seq := fld m.hdr 67 8
        ((tget [] b.cw.seen m.src).contains seq = true → ∃ u, exec (.abort n) s = .next { s with blk := u } ∧ u.cw.aborts = b.cw.aborts
            ∧ u.ctxs = b.ctxs ∧ mine u)
        ∧ ((tget [] b.cw.seen m.src).contains seq = false → isReady b = false → ∃ u, exec (.abort n) s = .next { s with blk := u }
            ∧ u.cw.aborts = min 65535 (b.cw.aborts + 1) ∧ tget [] u.cw.seen m.src = (seq :: tget [] b.cw.seen m.src).take 32 ∧ u.ctxs = b.ctxs ∧ mine u))
    ∧ (∀ m, showingCtl b i 8 = some m → m.dst = b.cw.instNum → ∃ u, exec (.routeSet i) s = .next { s with blk := u }
        ∧ tget 0 u.cw.route (fld m.hdr 37 6) = fld m.hdr 21 16 &&& 0x8BBB
        ∧ (∀ d, d ≠ fld m.hdr 37 6 → tget 0 u.cw.route d = tget 0 b.cw.route d) ∧ mine u)
    ∧ (∀ m p, showingCtl b i 9 = some m → m.dst = b.cw.instNum → b.cw.offPlans = [p] →
        (p.waiting = [m.src] → ∃ u, exec (.routeAck i) s = .next { s with blk := u } ∧ u.cw.offPlans = [] ∧ u.cw.offGranted.contains p.inst = true ∧ mine u)
        ∧ (∀ k rest, p.waiting = m.src :: k :: rest → ∃ u, exec (.routeAck i) s = .next { s with blk := u }
            ∧ u.cw.offPlans = [{ p with waiting := k :: rest }] ∧ u.cw.offGranted = b.cw.offGranted ∧ mine u))
    ∧ (∀ m, showingCtl b i 10 = some m → m.dst = b.cw.instNum →
        (isPithead b = false → ∃ u, exec (.offReq i) s = .next { s with blk := u } ∧ u.cw.offPlans = b.cw.offPlans ∧ mine u)
        ∧ (isPithead b = true → isReady b = true → b.power.inst = .on → m.src ≠ b.cw.instNum → offPlanOf (storeRecs b) m.src = [] → ∃ u,
            exec (.offReq i) s = .next { s with blk := u } ∧ u.cw.offGranted.contains m.src = true ∧ mine u)
        ∧ (isPithead b = true → isReady b = false → exec (.offReq i) s = .next s))
    ∧ (∀ m h, showingCtl b i 11 = some m → m.dst = b.cw.instNum → b.power.hs = some h → h.phase = .offAck →
        (bit m.hdr 21 = true → ∃ u, exec (.offAck i) s = .next { s with blk := u }
          ∧ u.power.hs = some { h with phase := .ask, granted := true, fromUs := usNow b } ∧ mine u)
        ∧ (bit m.hdr 21 = false → ∃ u, exec (.offAck i) s = .next { s with blk := u }
          ∧ u.power.hs = none ∧ u.power.refuseReason = 7 ∧ mine u))
    ∧ (∀ m, showingCtl b i 12 = some m → isPithead b = true →
        (b.cw.imageReady = true → isReady b = true → b.power.inst = .on → ∃ u, exec (.bootReq n) s = .next { s with blk := u }
          ∧ u.cw.acked.contains m.src = false ∧ mine u)
        ∧ (b.cw.imageReady = false → exec (.bootReq n) s = .next s))
    ∧ (∀ m, showingCtl b i 12 = some m → isPithead b = false → ∃ u, exec (.bootReq n) s = .next { s with blk := u } ∧ mine u)
    ∧ (b.cw.offPlans.all (fun p => !usDue b p.fromUs 10000) = true → exec .offPlanTimeout s = .next s)
    ∧ (∀ p, b.cw.offPlans = [p] → usDue b p.fromUs 10000 = true → ∃ u, exec .offPlanTimeout s = .next { s with blk := u } ∧ u.cw.offPlans = []
        ∧ u.cw.offGranted = b.cw.offGranted ∧ mine u)
    ∧ (∀ d, (tget 0 b.cw.changing d = 0 ∨ portBusy (linkOf b (tget 0 b.cw.changing d - 1)) d = true) → exec (.routeChangeRelease d) s = .next s)
    ∧ (∀ d, tget 0 b.cw.changing d ≠ 0 → portBusy (linkOf b (tget 0 b.cw.changing d - 1)) d = false → ∃ u,
        exec (.routeChangeRelease d) s = .next { s with blk := u } ∧ tget 0 u.cw.changing d = 0
        ∧ u.chans = b.chans ∧ u.seams = b.seams ∧ u.regs = b.regs ∧ (b.cw.held.all (fun e => e.1 != d) = true → mine u ∧ u.cw.held = b.cw.held)
        ∧ (∀ k m, b.cw.held = [(d, k, m)] → m.dst = d → m.kind = .request → m.inp < 4 → pickRoute b d = none →
            u.cw.held = [] ∧ u.cw.noroute = min 65535 (b.cw.noroute + 1) ∧ mine u)
        ∧ (∀ k m o p, b.cw.held = [(d, k, m)] → m.dst = d → pickRoute b d = some (o, p) → m.hops + 1 ≤ hopLimit b →
            (m.kind = .writeLine → tget (0, 0) b.cw.openCls (openKey m.inp m.src m.orig) ≠ (9, 0)) →
            u.cw.held = [] ∧ mine u ∧ (linkOf u p).tx = (linkOf b p).tx ++ [{ withHops m (m.hops + 1) with since := b.now }]))
    ∧ (∀ k, isPithead b = true → b.cw.imageReady = true → (meshOf (storeRecs b)).contains k = true → b.cw.heard.contains k = false →
        k ≠ b.cw.instNum → usDue b b.bring.releasedUs 80000 = true →
        (b.cw.missing.contains k = true → exec (.workerMissing k) s = .next s)
        ∧ (b.cw.missing.contains k = false → exec (.workerMissing k) s = .next { s with blk := (
            emit { b with cw := { b.cw with missing := b.cw.missing ++ [k] } } 0x47 none none (put 0 6 k)) }))
end

