-- ==== Sys2Proof/Laws/Memory.lean ====
section
/-! SUPPORT. The laws of the byte-cell memory: every operation keeps the canonical form, and a read after a write sees the
written bytes where they lie and the old bytes everywhere else. -/

namespace Sys2Proof.Machine

/-! The canonical form. -/

theorem wfFrom_mono {lo lo' : Nat} {m : Memory} (h : lo' ≤ lo) (hm : wfFrom lo m = true) : wfFrom lo' m = true := by
  cases m with
  | nil => rfl
  | cons e m =>
    simp only [wfFrom, Bool.and_eq_true, decide_eq_true_eq] at hm ⊢
    exact ⟨⟨by omega, hm.1.2⟩, hm.2⟩

theorem wfFrom_filter (p : Host.Cell → Bool) {lo : Nat} {m : Memory} (hm : wfFrom lo m = true) : wfFrom lo (m.filter p) = true := by
  induction m generalizing lo with
  | nil => rfl
  | cons e m ih =>
    simp only [wfFrom, Bool.and_eq_true, decide_eq_true_eq] at hm
    have h2 := ih hm.2
    by_cases hp : p e = true
    · simp only [List.filter_cons, hp, if_true, wfFrom, Bool.and_eq_true, decide_eq_true_eq]
      exact ⟨hm.1, h2⟩
    · simp only [List.filter_cons, hp, Bool.false_eq_true, if_false]
      exact wfFrom_mono (by omega) h2

theorem wfFrom_append {lo hi : Nat} {m n : Memory} (hm : wfFrom lo m = true) (hk : ∀ e ∈ m, e.1 < hi) (hl : lo ≤ hi)
    (hn : wfFrom hi n = true) : wfFrom lo (m ++ n) = true := by
  induction m generalizing lo with
  | nil => exact wfFrom_mono hl hn
  | cons e m ih =>
    simp only [wfFrom, Bool.and_eq_true, decide_eq_true_eq] at hm
    have he : e.1 < hi := hk e (by simp)
    simp only [List.cons_append, wfFrom, Bool.and_eq_true, decide_eq_true_eq]
    exact ⟨hm.1, ih hm.2 (fun e h => hk e (by simp [h])) (by omega)⟩

theorem wfFrom_drop {lo hi : Nat} {m : Memory} (hm : wfFrom lo m = true) :
    wfFrom hi (m.filter (fun e => decide (hi ≤ e.1))) = true := by
  induction m generalizing lo with
  | nil => rfl
  | cons e m ih =>
    simp only [wfFrom, Bool.and_eq_true, decide_eq_true_eq] at hm
    by_cases hp : hi ≤ e.1
    · simp only [List.filter_cons, hp, decide_true, if_true, wfFrom, Bool.and_eq_true, decide_eq_true_eq, true_and]
      exact ⟨hm.1.2, wfFrom_filter _ hm.2⟩
    · simp only [List.filter_cons, hp, decide_false, Bool.false_eq_true, if_false]
      exact ih hm.2

theorem wfFrom_cells (k : Nat) (l : List Byte) : wfFrom k (cellsFrom k l) = true := by
  induction l generalizing k with
  | nil => rfl
  | cons b l ih =>
    by_cases hb : b = 0
    · simp only [cellsFrom, hb, if_true]
      exact wfFrom_mono (Nat.le_succ k) (ih (k + 1))
    · simp only [cellsFrom, if_neg hb, wfFrom, ih, Bool.and_eq_true, decide_eq_true_eq]
      exact ⟨⟨Nat.le_refl k, hb⟩, trivial⟩

theorem cellsFrom_key {k : Nat} {l : List Byte} : ∀ e ∈ cellsFrom k l, k ≤ e.1 ∧ e.1 < k + l.length := by
  induction l generalizing k with
  | nil => simp [cellsFrom]
  | cons b l ih =>
    intro e he
    by_cases hb : b = 0
    · simp only [cellsFrom, hb, if_true] at he
      have := ih e he
      simp; omega
    · simp only [cellsFrom, hb, if_false, List.mem_cons] at he
      rcases he with rfl | he
      · simp
      · have := ih e he
        simp; omega

/-- A write keeps the canonical form. -/
theorem writeBytes_wf {m : Memory} (k : Nat) (l : List Byte) (hm : Memory.wf m = true) : Memory.wf (writeBytes m k l) = true := by
  have h1 : wfFrom 0 (m.filter (fun e => decide (e.1 < k))) = true := wfFrom_filter _ hm
  have h2 : wfFrom (k + l.length) (m.filter (fun e => decide (k + l.length ≤ e.1))) = true := wfFrom_drop hm
  have h3 : wfFrom k (cellsFrom k l ++ m.filter (fun e => decide (k + l.length ≤ e.1))) = true :=
    wfFrom_append (wfFrom_cells k l) (fun e he => (cellsFrom_key e he).2) (by omega) h2
  unfold Memory.wf writeBytes
  rw [List.append_assoc]
  exact wfFrom_append h1 (by simp) (by omega) h3

/-- Zeroing a range keeps the canonical form. -/
theorem zeroRange_wf {m : Memory} (lo hi : Nat) (hm : Memory.wf m = true) : Memory.wf (zeroRange m lo hi) = true :=
  wfFrom_filter _ hm

theorem writeWord_wf {m : Memory} (key : Nat) (w : Word × Byte) (hm : Memory.wf m = true) : Memory.wf (writeWord m key w) = true :=
  writeBytes_wf _ _ hm

theorem writeLine_wf {m : Memory} (key : Nat) (f : Nat → Word × Byte) (hm : Memory.wf m = true) :
    Memory.wf (writeLine m key f) = true :=
  writeBytes_wf _ _ hm

/-! Reads after writes. -/

theorem readByte_append_left {m n : Memory} {j : Nat} (h : ∀ e ∈ n, e.1 ≠ j) : readByte (m ++ n) j = readByte m j := by
  induction m with
  | nil =>
    induction n with
    | nil => rfl
    | cons e n ih =>
      simp only [List.nil_append, readByte, if_neg (h e (by simp))]
      exact ih (fun e he => h e (by simp [he]))
  | cons e m ih => simp only [List.cons_append, readByte, ih]

theorem readByte_append_right {m n : Memory} {j : Nat} (h : ∀ e ∈ m, e.1 ≠ j) : readByte (m ++ n) j = readByte n j := by
  induction m with
  | nil => rfl
  | cons e m ih =>
    simp only [List.cons_append, readByte, if_neg (h e (by simp))]
    exact ih (fun e he => h e (by simp [he]))

theorem readByte_filter {p : Host.Cell → Bool} {m : Memory} {j : Nat} (h : ∀ v, p (j, v) = true) :
    readByte (m.filter p) j = readByte m j := by
  induction m with
  | nil => rfl
  | cons e m ih =>
    by_cases hj : e.1 = j
    · have hp : p e = true := by rw [← h e.2, ← hj]
      simp [hp, readByte, hj]
    · by_cases hp : p e = true
      · simp [hp, readByte, hj, ih]
      · simp [hp, readByte, hj, ih]

theorem readByte_none {m : Memory} {j : Nat} (h : ∀ e ∈ m, e.1 ≠ j) : readByte m j = 0 := by
  have := readByte_append_right (n := []) h
  rwa [List.append_nil] at this

theorem readByte_cells (k : Nat) (l : List Byte) (i : Nat) : readByte (cellsFrom k l) (k + i) = l.getD i 0 := by
  induction l generalizing k i with
  | nil => rfl
  | cons b l ih =>
    cases i with
    | zero =>
      by_cases hb : b = 0
      · simp only [cellsFrom, hb, if_true, Nat.add_zero]
        rw [readByte_none (fun e he => by have := (cellsFrom_key e he).1; omega)]
        rfl
      · simp only [cellsFrom, if_neg hb, readByte, Nat.add_zero, if_true]
        rfl
    | succ i =>
      have h := ih (k + 1) i
      have hk : k + (i + 1) = k + 1 + i := by omega
      by_cases hb : b = 0
      · simp only [cellsFrom, hb, if_true, hk, h]
        rfl
      · simp only [cellsFrom, hb, if_false, readByte, hk, h]
        rw [if_neg (by omega)]
        rfl

/-- A byte outside the bytes written reads as before. -/
theorem readByte_writeBytes_out {m : Memory} {k : Nat} {l : List Byte} {j : Nat} (h : j < k ∨ k + l.length ≤ j) :
    readByte (writeBytes m k l) j = readByte m j := by
  unfold writeBytes
  have hc : ∀ e ∈ cellsFrom k l, e.1 ≠ j := fun e he => by have := cellsFrom_key e he; omega
  rcases h with h | h
  · rw [readByte_append_left (by simp; omega), readByte_append_left hc, readByte_filter (by simp [h])]
  · rw [readByte_append_right (by
      intro e he
      rcases List.mem_append.1 he with he | he
      · simp at he; omega
      · exact hc e he), readByte_filter (by simp [h])]

/-- A byte that was written reads as written. -/
theorem readByte_writeBytes_in (m : Memory) (k : Nat) (l : List Byte) {i : Nat} (h : i < l.length) :
    readByte (writeBytes m k l) (k + i) = l.getD i 0 := by
  unfold writeBytes
  rw [readByte_append_left (by simp; omega), readByte_append_right (by simp; omega), readByte_cells]

/-- A byte of a zeroed range reads 0; every other byte reads as before. -/
theorem readByte_zeroRange (m : Memory) (lo hi j : Nat) :
    readByte (zeroRange m lo hi) j = if lo ≤ j ∧ j < hi then 0 else readByte m j := by
  unfold zeroRange
  split
  · next h => exact readByte_none (by simp; omega)
  · next h => exact readByte_filter (by simp; omega)

end Sys2Proof.Machine
end

