-- ==== Sys2Proof/Laws/Arrays.lean ====
section
/-! SUPPORT. Every operation on the arrays keeps their canonical form. -/

namespace Sys2Proof.Machine

theorem arrays_wf_iff (a : Arrays) : a.wf = true ↔ Memory.wf a.mem = true ∧ Memory.wf a.tags = true := by
  unfold Arrays.wf; simp

theorem wf_mem {a : Arrays} {m : Memory} (h : a.wf = true) (hm : Memory.wf m = true) : ({ a with mem := m } : Arrays).wf = true :=
  (arrays_wf_iff _).2 ⟨hm, ((arrays_wf_iff a).1 h).2⟩

theorem wf_tags {a : Arrays} {m : Memory} (h : a.wf = true) (hm : Memory.wf m = true) : ({ a with tags := m } : Arrays).wf = true :=
  (arrays_wf_iff _).2 ⟨((arrays_wf_iff a).1 h).1, hm⟩

theorem wf_of_mem {a : Arrays} (h : a.wf = true) : Memory.wf a.mem = true := ((arrays_wf_iff a).1 h).1
theorem wf_of_tags {a : Arrays} (h : a.wf = true) : Memory.wf a.tags = true := ((arrays_wf_iff a).1 h).2

theorem foldl_inv {α σ : Type} (P : σ → Prop) (f : σ → α → σ) (h : ∀ s x, P s → P (f s x)) (l : List α) (s : σ) (hs : P s) :
    P (l.foldl f s) := by
  induction l generalizing s with
  | nil => exact hs
  | cons x l ih => exact ih _ (h s x hs)

theorem setTag_wf {a : Arrays} (ch row bank : Nat) (v : Bool) (h : a.wf = true) : (setTag a ch row bank v).wf = true :=
  wf_tags h (writeWord_wf _ _ (wf_of_tags h))

theorem putLine_wf {a : Arrays} (b : Block) (ch bank row : Nat) (f : Nat → Word × Byte) (h : a.wf = true) :
    (putLine a b ch bank row f).wf = true := wf_mem h (writeLine_wf _ _ (wf_of_mem h))

theorem writeWhole_wf {a : Arrays} (b : Block) (op : LineOp) (f : Nat → Word × Byte) (h : a.wf = true) :
    (writeWhole a b op f).1.wf = true := by
  have h1 := putLine_wf b op.ch op.bank op.row f h
  unfold writeWhole
  dsimp only
  split
  · split
    · exact h1
    · exact h
  · split
    · exact setTag_wf _ _ _ _ h1
    · exact h1

theorem tagLine_wf {a : Arrays} (b : Block) (op : LineOp) (h : a.wf = true) : (tagLine a b op).1.wf = true := by
  unfold tagLine
  refine setTag_wf _ _ _ _ ?_
  split
  · exact putLine_wf _ _ _ _ _ h
  · exact h

theorem writeWords_wf {a : Arrays} (b : Block) (op : LineOp) (h : a.wf = true) : (writeWords a b op).1.wf = true := by
  unfold writeWords
  split
  · exact writeWhole_wf _ _ _ h
  · split
    · exact h
    · refine wf_mem h (foldl_inv (fun m => Memory.wf m = true) _ ?_ _ _ (wf_of_mem h))
      intro m k hm
      split
      · exact writeWord_wf _ _ hm
      · exact hm

theorem scrubLine_wf {a : Arrays} (b : Block) (ch bank row : Nat) (h : a.wf = true) : (scrubLine a b ch bank row).wf = true :=
  wf_mem h (writeLine_wf _ _ (wf_of_mem h))

theorem settleTags_wf {a : Arrays} (b : Block) (ch : Nat) (h : a.wf = true) : (settleTags a b ch).1.wf = true := by
  unfold settleTags
  refine foldl_inv (fun r : Arrays × Block => r.1.wf = true) _ ?_ _ _ h
  intro r e hr
  exact wf_tags hr (writeWord_wf _ _ (wf_of_tags hr))

theorem performTest_wf {a : Arrays} (b : Block) (op : LineOp) (h : a.wf = true) : (performTest a b op).1.wf = true := by
  unfold performTest
  dsimp only
  split
  · exact h
  · exact wf_mem h (writeWord_wf _ _ (wf_of_mem h))

theorem performZero_wf {a : Arrays} (b : Block) (op : LineOp) (h : a.wf = true) : (performZero a b op).1.wf = true := by
  unfold performZero
  dsimp only
  split <;> exact putLine_wf _ _ _ _ _ h

/-- What an operation does to its line keeps the canonical form. -/
theorem actOnLine_wf {a : Arrays} (b : Block) (op : LineOp) (h : a.wf = true) : (actOnLine a b op).1.wf = true := by
  unfold actOnLine
  dsimp only
  split <;> first | exact h | exact performTest_wf _ _ h | exact performZero_wf _ _ h | exact writeWords_wf _ _ h

/-- The operations that a turn has held keep the canonical form. -/
theorem settleBank_wf {a : Arrays} (b : Block) (ch bank : Nat) (h : a.wf = true) : (settleBank a b ch bank).1.wf = true := by
  unfold settleBank
  refine foldl_inv (fun r : Arrays × Block => r.1.wf = true) _ (fun r op hr => ?_) _ _ h
  split
  · exact hr
  · exact actOnLine_wf _ _ hr

theorem performOp_wf {a : Arrays} (b : Block) (bs : BankSt) (slot : Nat) (op : LineOp) (h : a.wf = true) :
    (performOp a b bs slot op).1.wf = true := by
  unfold performOp
  extract_lets
  split
  · exact h
  · exact actOnLine_wf _ _ h

theorem dredgeTurn_wf {a : Arrays} (b : Block) (ch bank row slot : Nat) (h : a.wf = true) :
    (dredgeTurn a b ch bank row slot).1.wf = true := by
  unfold dredgeTurn
  exact scrubLine_wf _ _ _ _ h

theorem poisonLine_wf {a : Arrays} (b : Block) (ch bank row slot : Nat) (h : a.wf = true) :
    (poisonLine a b ch bank row slot).1.wf = true := by
  unfold poisonLine
  exact settleTags_wf _ _ (putLine_wf _ _ _ _ _ h)

/-- A sparing's slot keeps the canonical form. -/
theorem spareStep_wf {a : Arrays} (b : Block) (ch : Nat) (h : a.wf = true) : (spareStep a b ch).1.wf = true := by
  unfold spareStep
  dsimp only
  split
  · exact h
  · split
    · exact wf_mem h (writeLine_wf _ _ (wf_of_mem h))
    · exact h

theorem performPick_wf {a : Arrays} (b : Block) (ch bank slot owner : Nat) (w : List LineOp) (c : Pick) (h : a.wf = true) :
    (performPick a b ch bank slot owner w c).1.wf = true := by
  unfold performPick
  split
  · exact h
  · exact dredgeTurn_wf _ _ _ _ _ h
  · exact dredgeTurn_wf _ _ _ _ _ h
  · exact h
  · exact poisonLine_wf _ _ _ _ _ h
  · exact spareStep_wf _ _ h
  · exact performOp_wf _ _ _ _ h

theorem decideSlot_wf {a : Arrays} (b : Block) (ch bank slot r : Nat) (h : a.wf = true) :
    (decideSlot a b ch bank slot r).1.wf = true := by
  unfold decideSlot
  dsimp only
  split
  · exact h
  · exact performPick_wf _ _ _ _ _ _ _ h

/-- A bank's slot keeps the canonical form. -/
theorem grantBank_wf {a : Arrays} (b : Block) (ch bank : Nat) (h : a.wf = true) : (grantBank a b ch bank).1.wf = true := by
  unfold grantBank
  split
  · exact h
  · exact decideSlot_wf _ _ _ _ _ (settleBank_wf _ _ _ (settleTags_wf _ _ h))

theorem checkReduce_wf {a : Arrays} (b : Block) (op : LineOp) (h : a.wf = true) : (checkReduce a b op).1.wf = true := by
  unfold checkReduce
  dsimp only
  split
  · exact h
  · exact writeWhole_wf _ _ _ h

theorem storeDrain_wf {a : Arrays} (b : Block) (op : LineOp) (old : List Decoded) (h : a.wf = true) :
    (storeDrain a b op old).1.wf = true := by
  unfold storeDrain
  exact writeWhole_wf _ _ _ h

theorem checkDrain_wf {a : Arrays} (b : Block) (op : LineOp) (h : a.wf = true) : (checkDrain a b op).1.wf = true := by
  unfold checkDrain
  dsimp only
  split
  · split
    · exact storeDrain_wf _ _ _ h
    · exact h
  · exact storeDrain_wf _ _ _ h

theorem checkF_wf {a : Arrays} (b : Block) (op : LineOp) (h : a.wf = true) : (checkF a b op).1.wf = true := by
  unfold checkF
  extract_lets
  split
  · exact h
  · split
    · exact h
    · exact tagLine_wf _ _ h

theorem checkOp_wf {a : Arrays} (b : Block) (op : LineOp) (h : a.wf = true) : (checkOp a b op).1.wf = true := by
  unfold checkOp
  split
  · exact checkF_wf _ _ h
  · exact h
  · exact checkReduce_wf _ _ h
  · exact checkDrain_wf _ _ h

/-- A check point keeps the canonical form. -/
theorem checkPoint_wf {a : Arrays} (b : Block) (ch n : Nat) (h : a.wf = true) : (checkPoint a b ch n).1.wf = true := by
  unfold checkPoint
  dsimp only
  split
  · exact h
  · exact settleBank_wf _ _ _ (checkOp_wf _ _ (settleBank_wf _ _ _ h))

theorem startStep_wf {a : Arrays} (b : Block) (ch row : Nat) (h : a.wf = true) : (startStep a b ch row).1.wf = true := by
  unfold startStep
  exact settleTags_wf _ _ h

/-- A dredge step keeps the canonical form. -/
theorem dredgeStep_wf {a : Arrays} (b : Block) (ch : Nat) (h : a.wf = true) : (dredgeStep a b ch).1.wf = true := by
  unfold dredgeStep
  dsimp only
  repeat' split
  all_goals first | exact h | exact startStep_wf _ _ _ h

theorem tagSeam_wf {a : Arrays} (b : Block) (s : Seam) (h : a.wf = true) : (tagSeam a b s).wf = true := by
  unfold tagSeam
  refine foldl_inv (fun a : Arrays => a.wf = true) _ (fun a ch ha => ?_) _ _ h
  refine foldl_inv (fun a : Arrays => a.wf = true) _ (fun a row ha => ?_) _ _ ha
  dsimp only
  split
  · exact ha
  · exact wf_tags ha (writeWord_wf _ _ (wf_of_tags ha))

/-- Clearing a seam by its tags keeps the canonical form. -/
theorem clearTags_wf {a : Arrays} (b : Block) (n : Nat) (h : a.wf = true) : (clearTags a b n).1.wf = true := by
  unfold clearTags
  dsimp only
  split
  · exact tagSeam_wf _ _ h
  · exact h

theorem seedClearDone_wf {a : Arrays} (b : Block) (n : Nat) (h : a.wf = true) : (seedClearDone a b n).1.wf = true := by
  unfold seedClearDone
  split
  · exact h
  · split
    · exact clearTags_wf _ _ h
    · exact h

theorem wipeDone_wf {a : Arrays} (b : Block) (h : a.wf = true) : (wipeDone a b).1.wf = true := by
  unfold wipeDone
  split
  · exact h
  · exact foldl_inv (fun r : Arrays × Block => r.1.wf = true) _ (fun r n hr => clearTags_wf _ _ hr) _ _ h

/-- Writing a store to the arrays keeps the canonical form. -/
theorem writeStore_wf {a : Arrays} (b : Block) (l : List Byte) (h : a.wf = true) : (writeStore a b l).wf = true := by
  unfold writeStore
  exact foldl_inv (fun a : Arrays => a.wf = true) _ (fun a e ha => putLine_wf _ _ _ _ _ ha) _ _ h

/-- The end of an image keeps the canonical form. -/
theorem imageEndIn_wf {a : Arrays} (b : Block) (n : Nat) (h : a.wf = true) : (imageEndIn a b n).1.wf = true := by
  unfold imageEndIn
  dsimp only
  split
  · exact writeStore_wf _ _ h
  · exact h

theorem clearContents_wf {a : Arrays} (b : Block) (keep : List Nat) (h : a.wf = true) : (clearContents a b keep).1.wf = true :=
  wf_mem (a := { mem := a.mem, tags := [] }) (wf_tags h rfl) (wfFrom_filter _ (wf_of_mem h))

theorem bootImage_wf {a : Arrays} (b : Block) (i : BootInput) (w : Option (List Byte)) (h : a.wf = true) :
    (bootImage a b i w).1.wf = true := by
  unfold bootImage
  split
  · exact h
  · split
    · split
      · exact writeStore_wf _ _ h
      · exact h
    · exact h

/-- A boot keeps the canonical form. -/
theorem boot_wf {a : Arrays} (b : Block) (i : BootInput) (h : a.wf = true) : (boot a b i).1.wf = true := by
  unfold boot
  split
  · exact h
  · dsimp only
    split
    · exact h
    · exact bootImage_wf _ _ _ (clearContents_wf _ _ h)

end Sys2Proof.Machine
end

