-- ==== Sys2Proof/Laws/Records.lean ====
section
/-! SUPPORT. What counting, tracing and recording can change: one lemma for each of these operations. -/

namespace Sys2Proof.Machine

/-- Counting changes nothing but the observation state. -/
theorem count_eq (b : Block) (e : Nat) (t : Tap) (n : Nat) : ∃ o, count b e t n = { b with obs := o } := by
  unfold count; split
  · exact ⟨_, rfl⟩
  · exact ⟨b.obs, rfl⟩

theorem ite_obs {p : Prop} [Decidable p] {b x : Block} (h : ∃ o, x = { b with obs := o }) :
    ∃ o, (if p then x else b) = { b with obs := o } := by
  split
  · exact h
  · exact ⟨b.obs, rfl⟩

theorem trcPut_eq (b : Block) (c k i : Nat) (x y : Bool) (p : Word) : ∃ o, trcPut b c k i x y p = { b with obs := o } := by
  unfold trcPut; split
  · exact ⟨_, rfl⟩
  · exact ⟨b.obs, rfl⟩

/-- Tracing changes nothing but the observation state. -/
theorem trcEnter_eq (b : Block) (c k i : Nat) (p : Word) : ∃ o, trcEnter b c k i p = { b with obs := o } := by
  unfold trcEnter; split
  · dsimp only
    generalize (if b.obs.inCycle.1 = b.now / 8 then b.obs.inCycle.2 else 0) = u
    generalize (if 4 ≤ u then trcOusted b.obs c else none) = v
    split
    · exact ⟨_, rfl⟩
    · generalize hx : trcOust _ _ = x
      obtain ⟨o, h⟩ := trcPut_eq { b with obs := x } c k i false (b.obs.trcState == .triggered) p
      rw [h]
      exact ⟨_, rfl⟩
  · exact ⟨b.obs, rfl⟩

theorem trace_eq (b : Block) (c k : Nat) (t : Tap) (a : Option Nat) (p : Word) : ∃ o, trace b c k t a p = { b with obs := o } := by
  unfold trace
  exact ite_obs (trcEnter_eq _ _ _ _ _)

theorem traceSys_eq (b : Block) (k i : Nat) (p : Word) : ∃ o, traceSys b k i p = { b with obs := o } := trcEnter_eq _ _ _ _ _

theorem traceSync_eq (b : Block) : ∃ o, traceSync b = { b with obs := o } := by
  obtain ⟨o, h⟩ := traceSys_eq b 0 (b.time.tgen % 256 + (if b.time.synced then 256 else 0)) b.time.ns
  exact ⟨{ o with syncAt := o.stamp }, by unfold traceSync; rw [h]⟩

theorem discontinuity_eq (b : Block) : ∃ o, discontinuity b = { b with obs := o } := by
  unfold discontinuity; exact traceSync_eq _

/-- A record changes the retention log, the pending queue and the observation state, and nothing else: it enters the log if
its type has one, and the queue if there is room (R428, R435). -/
theorem emitRecord_eq (b : Block) (r : Record) : ∃ o, emitRecord b r =
    { b with rlog := if r.logged then rlogWrite b.rlog r else b.rlog, ev := queueRecord b.ev r, obs := o } := by
  obtain ⟨o, h⟩ := trace_eq { b with rlog := if r.logged then rlogWrite b.rlog r else b.rlog, ev := queueRecord b.ev r } 6 0
    { ch := r.channel.getD 0, ctx := (r.ctx.map (·.1)).getD 0 } none (put 0 16 r.type ||| (r.p3 <<< 32))
  refine ⟨{ o with trigDue := o.trigDue || (o.trcState == .armed && fld o.trcTrig 60 3 == 2 && fld o.trcTrig 0 16 == r.type) }, ?_⟩
  unfold emitRecord; dsimp only; rw [h]

theorem emit_eq (b : Block) (ty : Nat) (ch : Option Nat) (c : Option (Nat × BitVec 8)) (x y z w : Word) :
    ∃ l e o, emit b ty ch c x y z w = { b with rlog := l, ev := e, obs := o } := by
  obtain ⟨o, h⟩ := emitRecord_eq b (mkRecord b ty ch c x y z w)
  exact ⟨_, _, o, h⟩

/-- A completion changes nothing but the command queue. -/
theorem complete_eq (b : Block) (i st re : Nat) (v : Word) : ∃ q, complete b i st re v = { b with cmdq := q } := by
  unfold complete; split
  · exact ⟨b.cmdq, rfl⟩
  · exact ⟨_, rfl⟩

theorem completeIf_eq (b : Block) (i : Option Nat) (st re : Nat) (v : Word) : ∃ q, completeIf b i st re v = { b with cmdq := q } := by
  unfold completeIf; split
  · exact ⟨b.cmdq, rfl⟩
  · exact complete_eq _ _ _ _ _

theorem afterPower_eq (k : Nat) (b : Block) : ∃ t o, afterPower k b = { b with time := t, obs := o } := by
  unfold afterPower; dsimp only; split
  · exact ⟨_, b.obs, rfl⟩
  · split
    · obtain ⟨o, h⟩ := discontinuity_eq { b with time := { b.time with frozen := false, firstLoad := true, resumedUs := some (usNow b) } }
      exact ⟨_, o, h⟩
    · exact ⟨b.time, b.obs, rfl⟩

/-- A change of the power state changes the timebase and the observation state besides, and nothing else (R436, R452). -/
theorem setPower_eq (b : Block) (f : Power → Power) : ∃ t o, setPower b f = { b with power := f b.power, time := t, obs := o } :=
  afterPower_eq _ _

theorem wakeRecord_eq (b : Block) (o n m s : Nat) :
    ∃ l e q, wakeRecord b o n m s = { b with power := { b.power with lastWake := s }, rlog := l, ev := e, obs := q } := by
  obtain ⟨l, e, q, h⟩ := emit_eq { b with power := { b.power with lastWake := s } } 0x58 none none
    (put 0 3 o ||| put 3 3 n ||| put 8 8 m ||| put 16 4 s) 0 0 0
  obtain ⟨q', h'⟩ := traceSys_eq (emit { b with power := { b.power with lastWake := s } } 0x58 none none
    (put 0 3 o ||| put 3 3 n ||| put 8 8 m ||| put 16 4 s) 0 0 0) 5 0 (put 0 3 o ||| put 3 3 n ||| put 8 8 m ||| put 16 4 s)
  exact ⟨l, e, q', by unfold wakeRecord; dsimp only; rw [h', h]⟩

end Sys2Proof.Machine
end

