-- ==== Sys2Proof/Laws/Frames.lean ====
section
/-! SUPPORT. The frames of a record, a count, a trace record and a completion, field by field. -/

namespace Sys2Proof.Machine

variable (b : Block)

@[simp] theorem emit_build (ty : Nat) (ch : Option Nat) (c : Option (Nat × BitVec 8)) (x y z w : Word) : (emit b ty ch c x y z w).build = b.build := by obtain ⟨_, _, _, h⟩ := emit_eq b ty ch c x y z w; rw [h]
@[simp] theorem emit_now (ty : Nat) (ch : Option Nat) (c : Option (Nat × BitVec 8)) (x y z w : Word) : (emit b ty ch c x y z w).now = b.now := by obtain ⟨_, _, _, h⟩ := emit_eq b ty ch c x y z w; rw [h]
@[simp] theorem emit_serial (ty : Nat) (ch : Option Nat) (c : Option (Nat × BitVec 8)) (x y z w : Word) : (emit b ty ch c x y z w).serial = b.serial := by obtain ⟨_, _, _, h⟩ := emit_eq b ty ch c x y z w; rw [h]
@[simp] theorem emit_free (ty : Nat) (ch : Option Nat) (c : Option (Nat × BitVec 8)) (x y z w : Word) : (emit b ty ch c x y z w).free = b.free := by obtain ⟨_, _, _, h⟩ := emit_eq b ty ch c x y z w; rw [h]
@[simp] theorem emit_usBase (ty : Nat) (ch : Option Nat) (c : Option (Nat × BitVec 8)) (x y z w : Word) : (emit b ty ch c x y z w).usBase = b.usBase := by obtain ⟨_, _, _, h⟩ := emit_eq b ty ch c x y z w; rw [h]
@[simp] theorem emit_zeroLines (ty : Nat) (ch : Option Nat) (c : Option (Nat × BitVec 8)) (x y z w : Word) : (emit b ty ch c x y z w).zeroLines = b.zeroLines := by obtain ⟨_, _, _, h⟩ := emit_eq b ty ch c x y z w; rw [h]
@[simp] theorem emit_ctlClear (ty : Nat) (ch : Option Nat) (c : Option (Nat × BitVec 8)) (x y z w : Word) : (emit b ty ch c x y z w).ctlClear = b.ctlClear := by obtain ⟨_, _, _, h⟩ := emit_eq b ty ch c x y z w; rw [h]
@[simp] theorem emit_seams (ty : Nat) (ch : Option Nat) (c : Option (Nat × BitVec 8)) (x y z w : Word) : (emit b ty ch c x y z w).seams = b.seams := by obtain ⟨_, _, _, h⟩ := emit_eq b ty ch c x y z w; rw [h]
@[simp] theorem emit_txns (ty : Nat) (ch : Option Nat) (c : Option (Nat × BitVec 8)) (x y z w : Word) : (emit b ty ch c x y z w).txns = b.txns := by obtain ⟨_, _, _, h⟩ := emit_eq b ty ch c x y z w; rw [h]
@[simp] theorem emit_xfers (ty : Nat) (ch : Option Nat) (c : Option (Nat × BitVec 8)) (x y z w : Word) : (emit b ty ch c x y z w).xfers = b.xfers := by obtain ⟨_, _, _, h⟩ := emit_eq b ty ch c x y z w; rw [h]
@[simp] theorem emit_ops (ty : Nat) (ch : Option Nat) (c : Option (Nat × BitVec 8)) (x y z w : Word) : (emit b ty ch c x y z w).ops = b.ops := by obtain ⟨_, _, _, h⟩ := emit_eq b ty ch c x y z w; rw [h]
@[simp] theorem emit_descs (ty : Nat) (ch : Option Nat) (c : Option (Nat × BitVec 8)) (x y z w : Word) : (emit b ty ch c x y z w).descs = b.descs := by obtain ⟨_, _, _, h⟩ := emit_eq b ty ch c x y z w; rw [h]
@[simp] theorem emit_paths (ty : Nat) (ch : Option Nat) (c : Option (Nat × BitVec 8)) (x y z w : Word) : (emit b ty ch c x y z w).paths = b.paths := by obtain ⟨_, _, _, h⟩ := emit_eq b ty ch c x y z w; rw [h]
@[simp] theorem emit_outs (ty : Nat) (ch : Option Nat) (c : Option (Nat × BitVec 8)) (x y z w : Word) : (emit b ty ch c x y z w).outs = b.outs := by obtain ⟨_, _, _, h⟩ := emit_eq b ty ch c x y z w; rw [h]
@[simp] theorem emit_chans (ty : Nat) (ch : Option Nat) (c : Option (Nat × BitVec 8)) (x y z w : Word) : (emit b ty ch c x y z w).chans = b.chans := by obtain ⟨_, _, _, h⟩ := emit_eq b ty ch c x y z w; rw [h]
@[simp] theorem emit_ctxs (ty : Nat) (ch : Option Nat) (c : Option (Nat × BitVec 8)) (x y z w : Word) : (emit b ty ch c x y z w).ctxs = b.ctxs := by obtain ⟨_, _, _, h⟩ := emit_eq b ty ch c x y z w; rw [h]
@[simp] theorem emit_tallies (ty : Nat) (ch : Option Nat) (c : Option (Nat × BitVec 8)) (x y z w : Word) : (emit b ty ch c x y z w).tallies = b.tallies := by obtain ⟨_, _, _, h⟩ := emit_eq b ty ch c x y z w; rw [h]
@[simp] theorem emit_marks (ty : Nat) (ch : Option Nat) (c : Option (Nat × BitVec 8)) (x y z w : Word) : (emit b ty ch c x y z w).marks = b.marks := by obtain ⟨_, _, _, h⟩ := emit_eq b ty ch c x y z w; rw [h]
@[simp] theorem emit_marksDropped (ty : Nat) (ch : Option Nat) (c : Option (Nat × BitVec 8)) (x y z w : Word) : (emit b ty ch c x y z w).marksDropped = b.marksDropped := by obtain ⟨_, _, _, h⟩ := emit_eq b ty ch c x y z w; rw [h]
@[simp] theorem emit_regs (ty : Nat) (ch : Option Nat) (c : Option (Nat × BitVec 8)) (x y z w : Word) : (emit b ty ch c x y z w).regs = b.regs := by obtain ⟨_, _, _, h⟩ := emit_eq b ty ch c x y z w; rw [h]
@[simp] theorem emit_arb (ty : Nat) (ch : Option Nat) (c : Option (Nat × BitVec 8)) (x y z w : Word) : (emit b ty ch c x y z w).arb = b.arb := by obtain ⟨_, _, _, h⟩ := emit_eq b ty ch c x y z w; rw [h]
@[simp] theorem emit_sump (ty : Nat) (ch : Option Nat) (c : Option (Nat × BitVec 8)) (x y z w : Word) : (emit b ty ch c x y z w).sump = b.sump := by obtain ⟨_, _, _, h⟩ := emit_eq b ty ch c x y z w; rw [h]
@[simp] theorem emit_cw (ty : Nat) (ch : Option Nat) (c : Option (Nat × BitVec 8)) (x y z w : Word) : (emit b ty ch c x y z w).cw = b.cw := by obtain ⟨_, _, _, h⟩ := emit_eq b ty ch c x y z w; rw [h]
@[simp] theorem emit_bring (ty : Nat) (ch : Option Nat) (c : Option (Nat × BitVec 8)) (x y z w : Word) : (emit b ty ch c x y z w).bring = b.bring := by obtain ⟨_, _, _, h⟩ := emit_eq b ty ch c x y z w; rw [h]
@[simp] theorem emit_power (ty : Nat) (ch : Option Nat) (c : Option (Nat × BitVec 8)) (x y z w : Word) : (emit b ty ch c x y z w).power = b.power := by obtain ⟨_, _, _, h⟩ := emit_eq b ty ch c x y z w; rw [h]
@[simp] theorem emit_recov (ty : Nat) (ch : Option Nat) (c : Option (Nat × BitVec 8)) (x y z w : Word) : (emit b ty ch c x y z w).recov = b.recov := by obtain ⟨_, _, _, h⟩ := emit_eq b ty ch c x y z w; rw [h]
@[simp] theorem emit_safety (ty : Nat) (ch : Option Nat) (c : Option (Nat × BitVec 8)) (x y z w : Word) : (emit b ty ch c x y z w).safety = b.safety := by obtain ⟨_, _, _, h⟩ := emit_eq b ty ch c x y z w; rw [h]
@[simp] theorem emit_time (ty : Nat) (ch : Option Nat) (c : Option (Nat × BitVec 8)) (x y z w : Word) : (emit b ty ch c x y z w).time = b.time := by obtain ⟨_, _, _, h⟩ := emit_eq b ty ch c x y z w; rw [h]
@[simp] theorem emit_dbg (ty : Nat) (ch : Option Nat) (c : Option (Nat × BitVec 8)) (x y z w : Word) : (emit b ty ch c x y z w).dbg = b.dbg := by obtain ⟨_, _, _, h⟩ := emit_eq b ty ch c x y z w; rw [h]
@[simp] theorem emit_cmdq (ty : Nat) (ch : Option Nat) (c : Option (Nat × BitVec 8)) (x y z w : Word) : (emit b ty ch c x y z w).cmdq = b.cmdq := by obtain ⟨_, _, _, h⟩ := emit_eq b ty ch c x y z w; rw [h]
@[simp] theorem emit_g0 (ty : Nat) (ch : Option Nat) (c : Option (Nat × BitVec 8)) (x y z w : Word) : (emit b ty ch c x y z w).g0 = b.g0 := by obtain ⟨_, _, _, h⟩ := emit_eq b ty ch c x y z w; rw [h]
@[simp] theorem chan_emit (ty : Nat) (ch : Option Nat) (c : Option (Nat × BitVec 8)) (x y z w : Word) (j : Nat) : chan (emit b ty ch c x y z w) j = chan b j := by obtain ⟨_, _, _, h⟩ := emit_eq b ty ch c x y z w; rw [h]; rfl
@[simp] theorem ctxOf_emit (ty : Nat) (ch : Option Nat) (c : Option (Nat × BitVec 8)) (x y z w : Word) (j : Nat) : ctxOf (emit b ty ch c x y z w) j = ctxOf b j := by obtain ⟨_, _, _, h⟩ := emit_eq b ty ch c x y z w; rw [h]; rfl
@[simp] theorem seamOf_emit (ty : Nat) (ch : Option Nat) (c : Option (Nat × BitVec 8)) (x y z w : Word) (j : Nat) : seamOf (emit b ty ch c x y z w) j = seamOf b j := by obtain ⟨_, _, _, h⟩ := emit_eq b ty ch c x y z w; rw [h]; rfl
@[simp] theorem linkOf_emit (ty : Nat) (ch : Option Nat) (c : Option (Nat × BitVec 8)) (x y z w : Word) (j : Nat) : linkOf (emit b ty ch c x y z w) j = linkOf b j := by obtain ⟨_, _, _, h⟩ := emit_eq b ty ch c x y z w; rw [h]; rfl
@[simp] theorem outOf_emit (ty : Nat) (ch : Option Nat) (c : Option (Nat × BitVec 8)) (x y z w : Word) (j : PortId) : outOf (emit b ty ch c x y z w) j = outOf b j := by obtain ⟨_, _, _, h⟩ := emit_eq b ty ch c x y z w; rw [h]; rfl
@[simp] theorem pathOf_emit (ty : Nat) (ch : Option Nat) (c : Option (Nat × BitVec 8)) (x y z w : Word) (j : PathId) : pathOf (emit b ty ch c x y z w) j = pathOf b j := by obtain ⟨_, _, _, h⟩ := emit_eq b ty ch c x y z w; rw [h]; rfl
@[simp] theorem txnOf_emit (ty : Nat) (ch : Option Nat) (c : Option (Nat × BitVec 8)) (x y z w : Word) (j : Nat) : txnOf (emit b ty ch c x y z w) j = txnOf b j := by obtain ⟨_, _, _, h⟩ := emit_eq b ty ch c x y z w; rw [h]; rfl
@[simp] theorem count_build (e : Nat) (t : Tap) (n : Nat) : (count b e t n).build = b.build := by obtain ⟨_, h⟩ := count_eq b e t n; rw [h]
@[simp] theorem count_now (e : Nat) (t : Tap) (n : Nat) : (count b e t n).now = b.now := by obtain ⟨_, h⟩ := count_eq b e t n; rw [h]
@[simp] theorem count_serial (e : Nat) (t : Tap) (n : Nat) : (count b e t n).serial = b.serial := by obtain ⟨_, h⟩ := count_eq b e t n; rw [h]
@[simp] theorem count_free (e : Nat) (t : Tap) (n : Nat) : (count b e t n).free = b.free := by obtain ⟨_, h⟩ := count_eq b e t n; rw [h]
@[simp] theorem count_usBase (e : Nat) (t : Tap) (n : Nat) : (count b e t n).usBase = b.usBase := by obtain ⟨_, h⟩ := count_eq b e t n; rw [h]
@[simp] theorem count_zeroLines (e : Nat) (t : Tap) (n : Nat) : (count b e t n).zeroLines = b.zeroLines := by obtain ⟨_, h⟩ := count_eq b e t n; rw [h]
@[simp] theorem count_ctlClear (e : Nat) (t : Tap) (n : Nat) : (count b e t n).ctlClear = b.ctlClear := by obtain ⟨_, h⟩ := count_eq b e t n; rw [h]
@[simp] theorem count_seams (e : Nat) (t : Tap) (n : Nat) : (count b e t n).seams = b.seams := by obtain ⟨_, h⟩ := count_eq b e t n; rw [h]
@[simp] theorem count_txns (e : Nat) (t : Tap) (n : Nat) : (count b e t n).txns = b.txns := by obtain ⟨_, h⟩ := count_eq b e t n; rw [h]
@[simp] theorem count_xfers (e : Nat) (t : Tap) (n : Nat) : (count b e t n).xfers = b.xfers := by obtain ⟨_, h⟩ := count_eq b e t n; rw [h]
@[simp] theorem count_ops (e : Nat) (t : Tap) (n : Nat) : (count b e t n).ops = b.ops := by obtain ⟨_, h⟩ := count_eq b e t n; rw [h]
@[simp] theorem count_descs (e : Nat) (t : Tap) (n : Nat) : (count b e t n).descs = b.descs := by obtain ⟨_, h⟩ := count_eq b e t n; rw [h]
@[simp] theorem count_paths (e : Nat) (t : Tap) (n : Nat) : (count b e t n).paths = b.paths := by obtain ⟨_, h⟩ := count_eq b e t n; rw [h]
@[simp] theorem count_outs (e : Nat) (t : Tap) (n : Nat) : (count b e t n).outs = b.outs := by obtain ⟨_, h⟩ := count_eq b e t n; rw [h]
@[simp] theorem count_chans (e : Nat) (t : Tap) (n : Nat) : (count b e t n).chans = b.chans := by obtain ⟨_, h⟩ := count_eq b e t n; rw [h]
@[simp] theorem count_ctxs (e : Nat) (t : Tap) (n : Nat) : (count b e t n).ctxs = b.ctxs := by obtain ⟨_, h⟩ := count_eq b e t n; rw [h]
@[simp] theorem count_tallies (e : Nat) (t : Tap) (n : Nat) : (count b e t n).tallies = b.tallies := by obtain ⟨_, h⟩ := count_eq b e t n; rw [h]
@[simp] theorem count_marks (e : Nat) (t : Tap) (n : Nat) : (count b e t n).marks = b.marks := by obtain ⟨_, h⟩ := count_eq b e t n; rw [h]
@[simp] theorem count_marksDropped (e : Nat) (t : Tap) (n : Nat) : (count b e t n).marksDropped = b.marksDropped := by obtain ⟨_, h⟩ := count_eq b e t n; rw [h]
@[simp] theorem count_regs (e : Nat) (t : Tap) (n : Nat) : (count b e t n).regs = b.regs := by obtain ⟨_, h⟩ := count_eq b e t n; rw [h]
@[simp] theorem count_arb (e : Nat) (t : Tap) (n : Nat) : (count b e t n).arb = b.arb := by obtain ⟨_, h⟩ := count_eq b e t n; rw [h]
@[simp] theorem count_sump (e : Nat) (t : Tap) (n : Nat) : (count b e t n).sump = b.sump := by obtain ⟨_, h⟩ := count_eq b e t n; rw [h]
@[simp] theorem count_cw (e : Nat) (t : Tap) (n : Nat) : (count b e t n).cw = b.cw := by obtain ⟨_, h⟩ := count_eq b e t n; rw [h]
@[simp] theorem count_bring (e : Nat) (t : Tap) (n : Nat) : (count b e t n).bring = b.bring := by obtain ⟨_, h⟩ := count_eq b e t n; rw [h]
@[simp] theorem count_power (e : Nat) (t : Tap) (n : Nat) : (count b e t n).power = b.power := by obtain ⟨_, h⟩ := count_eq b e t n; rw [h]
@[simp] theorem count_recov (e : Nat) (t : Tap) (n : Nat) : (count b e t n).recov = b.recov := by obtain ⟨_, h⟩ := count_eq b e t n; rw [h]
@[simp] theorem count_safety (e : Nat) (t : Tap) (n : Nat) : (count b e t n).safety = b.safety := by obtain ⟨_, h⟩ := count_eq b e t n; rw [h]
@[simp] theorem count_ev (e : Nat) (t : Tap) (n : Nat) : (count b e t n).ev = b.ev := by obtain ⟨_, h⟩ := count_eq b e t n; rw [h]
@[simp] theorem count_rlog (e : Nat) (t : Tap) (n : Nat) : (count b e t n).rlog = b.rlog := by obtain ⟨_, h⟩ := count_eq b e t n; rw [h]
@[simp] theorem count_time (e : Nat) (t : Tap) (n : Nat) : (count b e t n).time = b.time := by obtain ⟨_, h⟩ := count_eq b e t n; rw [h]
@[simp] theorem count_dbg (e : Nat) (t : Tap) (n : Nat) : (count b e t n).dbg = b.dbg := by obtain ⟨_, h⟩ := count_eq b e t n; rw [h]
@[simp] theorem count_cmdq (e : Nat) (t : Tap) (n : Nat) : (count b e t n).cmdq = b.cmdq := by obtain ⟨_, h⟩ := count_eq b e t n; rw [h]
@[simp] theorem count_g0 (e : Nat) (t : Tap) (n : Nat) : (count b e t n).g0 = b.g0 := by obtain ⟨_, h⟩ := count_eq b e t n; rw [h]
@[simp] theorem chan_count (e : Nat) (t : Tap) (n : Nat) (j : Nat) : chan (count b e t n) j = chan b j := by obtain ⟨_, h⟩ := count_eq b e t n; rw [h]; rfl
@[simp] theorem ctxOf_count (e : Nat) (t : Tap) (n : Nat) (j : Nat) : ctxOf (count b e t n) j = ctxOf b j := by obtain ⟨_, h⟩ := count_eq b e t n; rw [h]; rfl
@[simp] theorem seamOf_count (e : Nat) (t : Tap) (n : Nat) (j : Nat) : seamOf (count b e t n) j = seamOf b j := by obtain ⟨_, h⟩ := count_eq b e t n; rw [h]; rfl
@[simp] theorem linkOf_count (e : Nat) (t : Tap) (n : Nat) (j : Nat) : linkOf (count b e t n) j = linkOf b j := by obtain ⟨_, h⟩ := count_eq b e t n; rw [h]; rfl
@[simp] theorem outOf_count (e : Nat) (t : Tap) (n : Nat) (j : PortId) : outOf (count b e t n) j = outOf b j := by obtain ⟨_, h⟩ := count_eq b e t n; rw [h]; rfl
@[simp] theorem pathOf_count (e : Nat) (t : Tap) (n : Nat) (j : PathId) : pathOf (count b e t n) j = pathOf b j := by obtain ⟨_, h⟩ := count_eq b e t n; rw [h]; rfl
@[simp] theorem txnOf_count (e : Nat) (t : Tap) (n : Nat) (j : Nat) : txnOf (count b e t n) j = txnOf b j := by obtain ⟨_, h⟩ := count_eq b e t n; rw [h]; rfl
@[simp] theorem trace_build (c k : Nat) (t : Tap) (a : Option Nat) (p : Word) : (trace b c k t a p).build = b.build := by obtain ⟨_, h⟩ := trace_eq b c k t a p; rw [h]
@[simp] theorem trace_now (c k : Nat) (t : Tap) (a : Option Nat) (p : Word) : (trace b c k t a p).now = b.now := by obtain ⟨_, h⟩ := trace_eq b c k t a p; rw [h]
@[simp] theorem trace_serial (c k : Nat) (t : Tap) (a : Option Nat) (p : Word) : (trace b c k t a p).serial = b.serial := by obtain ⟨_, h⟩ := trace_eq b c k t a p; rw [h]
@[simp] theorem trace_free (c k : Nat) (t : Tap) (a : Option Nat) (p : Word) : (trace b c k t a p).free = b.free := by obtain ⟨_, h⟩ := trace_eq b c k t a p; rw [h]
@[simp] theorem trace_usBase (c k : Nat) (t : Tap) (a : Option Nat) (p : Word) : (trace b c k t a p).usBase = b.usBase := by obtain ⟨_, h⟩ := trace_eq b c k t a p; rw [h]
@[simp] theorem trace_zeroLines (c k : Nat) (t : Tap) (a : Option Nat) (p : Word) : (trace b c k t a p).zeroLines = b.zeroLines := by obtain ⟨_, h⟩ := trace_eq b c k t a p; rw [h]
@[simp] theorem trace_ctlClear (c k : Nat) (t : Tap) (a : Option Nat) (p : Word) : (trace b c k t a p).ctlClear = b.ctlClear := by obtain ⟨_, h⟩ := trace_eq b c k t a p; rw [h]
@[simp] theorem trace_seams (c k : Nat) (t : Tap) (a : Option Nat) (p : Word) : (trace b c k t a p).seams = b.seams := by obtain ⟨_, h⟩ := trace_eq b c k t a p; rw [h]
@[simp] theorem trace_txns (c k : Nat) (t : Tap) (a : Option Nat) (p : Word) : (trace b c k t a p).txns = b.txns := by obtain ⟨_, h⟩ := trace_eq b c k t a p; rw [h]
@[simp] theorem trace_xfers (c k : Nat) (t : Tap) (a : Option Nat) (p : Word) : (trace b c k t a p).xfers = b.xfers := by obtain ⟨_, h⟩ := trace_eq b c k t a p; rw [h]
@[simp] theorem trace_ops (c k : Nat) (t : Tap) (a : Option Nat) (p : Word) : (trace b c k t a p).ops = b.ops := by obtain ⟨_, h⟩ := trace_eq b c k t a p; rw [h]
@[simp] theorem trace_descs (c k : Nat) (t : Tap) (a : Option Nat) (p : Word) : (trace b c k t a p).descs = b.descs := by obtain ⟨_, h⟩ := trace_eq b c k t a p; rw [h]
@[simp] theorem trace_paths (c k : Nat) (t : Tap) (a : Option Nat) (p : Word) : (trace b c k t a p).paths = b.paths := by obtain ⟨_, h⟩ := trace_eq b c k t a p; rw [h]
@[simp] theorem trace_outs (c k : Nat) (t : Tap) (a : Option Nat) (p : Word) : (trace b c k t a p).outs = b.outs := by obtain ⟨_, h⟩ := trace_eq b c k t a p; rw [h]
@[simp] theorem trace_chans (c k : Nat) (t : Tap) (a : Option Nat) (p : Word) : (trace b c k t a p).chans = b.chans := by obtain ⟨_, h⟩ := trace_eq b c k t a p; rw [h]
@[simp] theorem trace_ctxs (c k : Nat) (t : Tap) (a : Option Nat) (p : Word) : (trace b c k t a p).ctxs = b.ctxs := by obtain ⟨_, h⟩ := trace_eq b c k t a p; rw [h]
@[simp] theorem trace_tallies (c k : Nat) (t : Tap) (a : Option Nat) (p : Word) : (trace b c k t a p).tallies = b.tallies := by obtain ⟨_, h⟩ := trace_eq b c k t a p; rw [h]
@[simp] theorem trace_marks (c k : Nat) (t : Tap) (a : Option Nat) (p : Word) : (trace b c k t a p).marks = b.marks := by obtain ⟨_, h⟩ := trace_eq b c k t a p; rw [h]
@[simp] theorem trace_marksDropped (c k : Nat) (t : Tap) (a : Option Nat) (p : Word) : (trace b c k t a p).marksDropped = b.marksDropped := by obtain ⟨_, h⟩ := trace_eq b c k t a p; rw [h]
@[simp] theorem trace_regs (c k : Nat) (t : Tap) (a : Option Nat) (p : Word) : (trace b c k t a p).regs = b.regs := by obtain ⟨_, h⟩ := trace_eq b c k t a p; rw [h]
@[simp] theorem trace_arb (c k : Nat) (t : Tap) (a : Option Nat) (p : Word) : (trace b c k t a p).arb = b.arb := by obtain ⟨_, h⟩ := trace_eq b c k t a p; rw [h]
@[simp] theorem trace_sump (c k : Nat) (t : Tap) (a : Option Nat) (p : Word) : (trace b c k t a p).sump = b.sump := by obtain ⟨_, h⟩ := trace_eq b c k t a p; rw [h]
@[simp] theorem trace_cw (c k : Nat) (t : Tap) (a : Option Nat) (p : Word) : (trace b c k t a p).cw = b.cw := by obtain ⟨_, h⟩ := trace_eq b c k t a p; rw [h]
@[simp] theorem trace_bring (c k : Nat) (t : Tap) (a : Option Nat) (p : Word) : (trace b c k t a p).bring = b.bring := by obtain ⟨_, h⟩ := trace_eq b c k t a p; rw [h]
@[simp] theorem trace_power (c k : Nat) (t : Tap) (a : Option Nat) (p : Word) : (trace b c k t a p).power = b.power := by obtain ⟨_, h⟩ := trace_eq b c k t a p; rw [h]
@[simp] theorem trace_recov (c k : Nat) (t : Tap) (a : Option Nat) (p : Word) : (trace b c k t a p).recov = b.recov := by obtain ⟨_, h⟩ := trace_eq b c k t a p; rw [h]
@[simp] theorem trace_safety (c k : Nat) (t : Tap) (a : Option Nat) (p : Word) : (trace b c k t a p).safety = b.safety := by obtain ⟨_, h⟩ := trace_eq b c k t a p; rw [h]
@[simp] theorem trace_ev (c k : Nat) (t : Tap) (a : Option Nat) (p : Word) : (trace b c k t a p).ev = b.ev := by obtain ⟨_, h⟩ := trace_eq b c k t a p; rw [h]
@[simp] theorem trace_rlog (c k : Nat) (t : Tap) (a : Option Nat) (p : Word) : (trace b c k t a p).rlog = b.rlog := by obtain ⟨_, h⟩ := trace_eq b c k t a p; rw [h]
@[simp] theorem trace_time (c k : Nat) (t : Tap) (a : Option Nat) (p : Word) : (trace b c k t a p).time = b.time := by obtain ⟨_, h⟩ := trace_eq b c k t a p; rw [h]
@[simp] theorem trace_dbg (c k : Nat) (t : Tap) (a : Option Nat) (p : Word) : (trace b c k t a p).dbg = b.dbg := by obtain ⟨_, h⟩ := trace_eq b c k t a p; rw [h]
@[simp] theorem trace_cmdq (c k : Nat) (t : Tap) (a : Option Nat) (p : Word) : (trace b c k t a p).cmdq = b.cmdq := by obtain ⟨_, h⟩ := trace_eq b c k t a p; rw [h]
@[simp] theorem trace_g0 (c k : Nat) (t : Tap) (a : Option Nat) (p : Word) : (trace b c k t a p).g0 = b.g0 := by obtain ⟨_, h⟩ := trace_eq b c k t a p; rw [h]
@[simp] theorem chan_trace (c k : Nat) (t : Tap) (a : Option Nat) (p : Word) (j : Nat) : chan (trace b c k t a p) j = chan b j := by obtain ⟨_, h⟩ := trace_eq b c k t a p; rw [h]; rfl
@[simp] theorem ctxOf_trace (c k : Nat) (t : Tap) (a : Option Nat) (p : Word) (j : Nat) : ctxOf (trace b c k t a p) j = ctxOf b j := by obtain ⟨_, h⟩ := trace_eq b c k t a p; rw [h]; rfl
@[simp] theorem seamOf_trace (c k : Nat) (t : Tap) (a : Option Nat) (p : Word) (j : Nat) : seamOf (trace b c k t a p) j = seamOf b j := by obtain ⟨_, h⟩ := trace_eq b c k t a p; rw [h]; rfl
@[simp] theorem linkOf_trace (c k : Nat) (t : Tap) (a : Option Nat) (p : Word) (j : Nat) : linkOf (trace b c k t a p) j = linkOf b j := by obtain ⟨_, h⟩ := trace_eq b c k t a p; rw [h]; rfl
@[simp] theorem outOf_trace (c k : Nat) (t : Tap) (a : Option Nat) (p : Word) (j : PortId) : outOf (trace b c k t a p) j = outOf b j := by obtain ⟨_, h⟩ := trace_eq b c k t a p; rw [h]; rfl
@[simp] theorem pathOf_trace (c k : Nat) (t : Tap) (a : Option Nat) (p : Word) (j : PathId) : pathOf (trace b c k t a p) j = pathOf b j := by obtain ⟨_, h⟩ := trace_eq b c k t a p; rw [h]; rfl
@[simp] theorem txnOf_trace (c k : Nat) (t : Tap) (a : Option Nat) (p : Word) (j : Nat) : txnOf (trace b c k t a p) j = txnOf b j := by obtain ⟨_, h⟩ := trace_eq b c k t a p; rw [h]; rfl
@[simp] theorem traceSys_build (k i : Nat) (p : Word) : (traceSys b k i p).build = b.build := by obtain ⟨_, h⟩ := traceSys_eq b k i p; rw [h]
@[simp] theorem traceSys_now (k i : Nat) (p : Word) : (traceSys b k i p).now = b.now := by obtain ⟨_, h⟩ := traceSys_eq b k i p; rw [h]
@[simp] theorem traceSys_serial (k i : Nat) (p : Word) : (traceSys b k i p).serial = b.serial := by obtain ⟨_, h⟩ := traceSys_eq b k i p; rw [h]
@[simp] theorem traceSys_free (k i : Nat) (p : Word) : (traceSys b k i p).free = b.free := by obtain ⟨_, h⟩ := traceSys_eq b k i p; rw [h]
@[simp] theorem traceSys_usBase (k i : Nat) (p : Word) : (traceSys b k i p).usBase = b.usBase := by obtain ⟨_, h⟩ := traceSys_eq b k i p; rw [h]
@[simp] theorem traceSys_zeroLines (k i : Nat) (p : Word) : (traceSys b k i p).zeroLines = b.zeroLines := by obtain ⟨_, h⟩ := traceSys_eq b k i p; rw [h]
@[simp] theorem traceSys_ctlClear (k i : Nat) (p : Word) : (traceSys b k i p).ctlClear = b.ctlClear := by obtain ⟨_, h⟩ := traceSys_eq b k i p; rw [h]
@[simp] theorem traceSys_seams (k i : Nat) (p : Word) : (traceSys b k i p).seams = b.seams := by obtain ⟨_, h⟩ := traceSys_eq b k i p; rw [h]
@[simp] theorem traceSys_txns (k i : Nat) (p : Word) : (traceSys b k i p).txns = b.txns := by obtain ⟨_, h⟩ := traceSys_eq b k i p; rw [h]
@[simp] theorem traceSys_xfers (k i : Nat) (p : Word) : (traceSys b k i p).xfers = b.xfers := by obtain ⟨_, h⟩ := traceSys_eq b k i p; rw [h]
@[simp] theorem traceSys_ops (k i : Nat) (p : Word) : (traceSys b k i p).ops = b.ops := by obtain ⟨_, h⟩ := traceSys_eq b k i p; rw [h]
@[simp] theorem traceSys_descs (k i : Nat) (p : Word) : (traceSys b k i p).descs = b.descs := by obtain ⟨_, h⟩ := traceSys_eq b k i p; rw [h]
@[simp] theorem traceSys_paths (k i : Nat) (p : Word) : (traceSys b k i p).paths = b.paths := by obtain ⟨_, h⟩ := traceSys_eq b k i p; rw [h]
@[simp] theorem traceSys_outs (k i : Nat) (p : Word) : (traceSys b k i p).outs = b.outs := by obtain ⟨_, h⟩ := traceSys_eq b k i p; rw [h]
@[simp] theorem traceSys_chans (k i : Nat) (p : Word) : (traceSys b k i p).chans = b.chans := by obtain ⟨_, h⟩ := traceSys_eq b k i p; rw [h]
@[simp] theorem traceSys_ctxs (k i : Nat) (p : Word) : (traceSys b k i p).ctxs = b.ctxs := by obtain ⟨_, h⟩ := traceSys_eq b k i p; rw [h]
@[simp] theorem traceSys_tallies (k i : Nat) (p : Word) : (traceSys b k i p).tallies = b.tallies := by obtain ⟨_, h⟩ := traceSys_eq b k i p; rw [h]
@[simp] theorem traceSys_marks (k i : Nat) (p : Word) : (traceSys b k i p).marks = b.marks := by obtain ⟨_, h⟩ := traceSys_eq b k i p; rw [h]
@[simp] theorem traceSys_marksDropped (k i : Nat) (p : Word) : (traceSys b k i p).marksDropped = b.marksDropped := by obtain ⟨_, h⟩ := traceSys_eq b k i p; rw [h]
@[simp] theorem traceSys_regs (k i : Nat) (p : Word) : (traceSys b k i p).regs = b.regs := by obtain ⟨_, h⟩ := traceSys_eq b k i p; rw [h]
@[simp] theorem traceSys_arb (k i : Nat) (p : Word) : (traceSys b k i p).arb = b.arb := by obtain ⟨_, h⟩ := traceSys_eq b k i p; rw [h]
@[simp] theorem traceSys_sump (k i : Nat) (p : Word) : (traceSys b k i p).sump = b.sump := by obtain ⟨_, h⟩ := traceSys_eq b k i p; rw [h]
@[simp] theorem traceSys_cw (k i : Nat) (p : Word) : (traceSys b k i p).cw = b.cw := by obtain ⟨_, h⟩ := traceSys_eq b k i p; rw [h]
@[simp] theorem traceSys_bring (k i : Nat) (p : Word) : (traceSys b k i p).bring = b.bring := by obtain ⟨_, h⟩ := traceSys_eq b k i p; rw [h]
@[simp] theorem traceSys_power (k i : Nat) (p : Word) : (traceSys b k i p).power = b.power := by obtain ⟨_, h⟩ := traceSys_eq b k i p; rw [h]
@[simp] theorem traceSys_recov (k i : Nat) (p : Word) : (traceSys b k i p).recov = b.recov := by obtain ⟨_, h⟩ := traceSys_eq b k i p; rw [h]
@[simp] theorem traceSys_safety (k i : Nat) (p : Word) : (traceSys b k i p).safety = b.safety := by obtain ⟨_, h⟩ := traceSys_eq b k i p; rw [h]
@[simp] theorem traceSys_ev (k i : Nat) (p : Word) : (traceSys b k i p).ev = b.ev := by obtain ⟨_, h⟩ := traceSys_eq b k i p; rw [h]
@[simp] theorem traceSys_rlog (k i : Nat) (p : Word) : (traceSys b k i p).rlog = b.rlog := by obtain ⟨_, h⟩ := traceSys_eq b k i p; rw [h]
@[simp] theorem traceSys_time (k i : Nat) (p : Word) : (traceSys b k i p).time = b.time := by obtain ⟨_, h⟩ := traceSys_eq b k i p; rw [h]
@[simp] theorem traceSys_dbg (k i : Nat) (p : Word) : (traceSys b k i p).dbg = b.dbg := by obtain ⟨_, h⟩ := traceSys_eq b k i p; rw [h]
@[simp] theorem traceSys_cmdq (k i : Nat) (p : Word) : (traceSys b k i p).cmdq = b.cmdq := by obtain ⟨_, h⟩ := traceSys_eq b k i p; rw [h]
@[simp] theorem traceSys_g0 (k i : Nat) (p : Word) : (traceSys b k i p).g0 = b.g0 := by obtain ⟨_, h⟩ := traceSys_eq b k i p; rw [h]
@[simp] theorem chan_traceSys (k i : Nat) (p : Word) (j : Nat) : chan (traceSys b k i p) j = chan b j := by obtain ⟨_, h⟩ := traceSys_eq b k i p; rw [h]; rfl
@[simp] theorem ctxOf_traceSys (k i : Nat) (p : Word) (j : Nat) : ctxOf (traceSys b k i p) j = ctxOf b j := by obtain ⟨_, h⟩ := traceSys_eq b k i p; rw [h]; rfl
@[simp] theorem seamOf_traceSys (k i : Nat) (p : Word) (j : Nat) : seamOf (traceSys b k i p) j = seamOf b j := by obtain ⟨_, h⟩ := traceSys_eq b k i p; rw [h]; rfl
@[simp] theorem linkOf_traceSys (k i : Nat) (p : Word) (j : Nat) : linkOf (traceSys b k i p) j = linkOf b j := by obtain ⟨_, h⟩ := traceSys_eq b k i p; rw [h]; rfl
@[simp] theorem outOf_traceSys (k i : Nat) (p : Word) (j : PortId) : outOf (traceSys b k i p) j = outOf b j := by obtain ⟨_, h⟩ := traceSys_eq b k i p; rw [h]; rfl
@[simp] theorem pathOf_traceSys (k i : Nat) (p : Word) (j : PathId) : pathOf (traceSys b k i p) j = pathOf b j := by obtain ⟨_, h⟩ := traceSys_eq b k i p; rw [h]; rfl
@[simp] theorem txnOf_traceSys (k i : Nat) (p : Word) (j : Nat) : txnOf (traceSys b k i p) j = txnOf b j := by obtain ⟨_, h⟩ := traceSys_eq b k i p; rw [h]; rfl
@[simp] theorem complete_build (i st re : Nat) (v : Word) : (complete b i st re v).build = b.build := by obtain ⟨_, h⟩ := complete_eq b i st re v; rw [h]
@[simp] theorem complete_now (i st re : Nat) (v : Word) : (complete b i st re v).now = b.now := by obtain ⟨_, h⟩ := complete_eq b i st re v; rw [h]
@[simp] theorem complete_serial (i st re : Nat) (v : Word) : (complete b i st re v).serial = b.serial := by obtain ⟨_, h⟩ := complete_eq b i st re v; rw [h]
@[simp] theorem complete_free (i st re : Nat) (v : Word) : (complete b i st re v).free = b.free := by obtain ⟨_, h⟩ := complete_eq b i st re v; rw [h]
@[simp] theorem complete_usBase (i st re : Nat) (v : Word) : (complete b i st re v).usBase = b.usBase := by obtain ⟨_, h⟩ := complete_eq b i st re v; rw [h]
@[simp] theorem complete_zeroLines (i st re : Nat) (v : Word) : (complete b i st re v).zeroLines = b.zeroLines := by obtain ⟨_, h⟩ := complete_eq b i st re v; rw [h]
@[simp] theorem complete_ctlClear (i st re : Nat) (v : Word) : (complete b i st re v).ctlClear = b.ctlClear := by obtain ⟨_, h⟩ := complete_eq b i st re v; rw [h]
@[simp] theorem complete_seams (i st re : Nat) (v : Word) : (complete b i st re v).seams = b.seams := by obtain ⟨_, h⟩ := complete_eq b i st re v; rw [h]
@[simp] theorem complete_txns (i st re : Nat) (v : Word) : (complete b i st re v).txns = b.txns := by obtain ⟨_, h⟩ := complete_eq b i st re v; rw [h]
@[simp] theorem complete_xfers (i st re : Nat) (v : Word) : (complete b i st re v).xfers = b.xfers := by obtain ⟨_, h⟩ := complete_eq b i st re v; rw [h]
@[simp] theorem complete_ops (i st re : Nat) (v : Word) : (complete b i st re v).ops = b.ops := by obtain ⟨_, h⟩ := complete_eq b i st re v; rw [h]
@[simp] theorem complete_descs (i st re : Nat) (v : Word) : (complete b i st re v).descs = b.descs := by obtain ⟨_, h⟩ := complete_eq b i st re v; rw [h]
@[simp] theorem complete_paths (i st re : Nat) (v : Word) : (complete b i st re v).paths = b.paths := by obtain ⟨_, h⟩ := complete_eq b i st re v; rw [h]
@[simp] theorem complete_outs (i st re : Nat) (v : Word) : (complete b i st re v).outs = b.outs := by obtain ⟨_, h⟩ := complete_eq b i st re v; rw [h]
@[simp] theorem complete_chans (i st re : Nat) (v : Word) : (complete b i st re v).chans = b.chans := by obtain ⟨_, h⟩ := complete_eq b i st re v; rw [h]
@[simp] theorem complete_ctxs (i st re : Nat) (v : Word) : (complete b i st re v).ctxs = b.ctxs := by obtain ⟨_, h⟩ := complete_eq b i st re v; rw [h]
@[simp] theorem complete_tallies (i st re : Nat) (v : Word) : (complete b i st re v).tallies = b.tallies := by obtain ⟨_, h⟩ := complete_eq b i st re v; rw [h]
@[simp] theorem complete_marks (i st re : Nat) (v : Word) : (complete b i st re v).marks = b.marks := by obtain ⟨_, h⟩ := complete_eq b i st re v; rw [h]
@[simp] theorem complete_marksDropped (i st re : Nat) (v : Word) : (complete b i st re v).marksDropped = b.marksDropped := by obtain ⟨_, h⟩ := complete_eq b i st re v; rw [h]
@[simp] theorem complete_regs (i st re : Nat) (v : Word) : (complete b i st re v).regs = b.regs := by obtain ⟨_, h⟩ := complete_eq b i st re v; rw [h]
@[simp] theorem complete_arb (i st re : Nat) (v : Word) : (complete b i st re v).arb = b.arb := by obtain ⟨_, h⟩ := complete_eq b i st re v; rw [h]
@[simp] theorem complete_sump (i st re : Nat) (v : Word) : (complete b i st re v).sump = b.sump := by obtain ⟨_, h⟩ := complete_eq b i st re v; rw [h]
@[simp] theorem complete_cw (i st re : Nat) (v : Word) : (complete b i st re v).cw = b.cw := by obtain ⟨_, h⟩ := complete_eq b i st re v; rw [h]
@[simp] theorem complete_bring (i st re : Nat) (v : Word) : (complete b i st re v).bring = b.bring := by obtain ⟨_, h⟩ := complete_eq b i st re v; rw [h]
@[simp] theorem complete_power (i st re : Nat) (v : Word) : (complete b i st re v).power = b.power := by obtain ⟨_, h⟩ := complete_eq b i st re v; rw [h]
@[simp] theorem complete_recov (i st re : Nat) (v : Word) : (complete b i st re v).recov = b.recov := by obtain ⟨_, h⟩ := complete_eq b i st re v; rw [h]
@[simp] theorem complete_safety (i st re : Nat) (v : Word) : (complete b i st re v).safety = b.safety := by obtain ⟨_, h⟩ := complete_eq b i st re v; rw [h]
@[simp] theorem complete_ev (i st re : Nat) (v : Word) : (complete b i st re v).ev = b.ev := by obtain ⟨_, h⟩ := complete_eq b i st re v; rw [h]
@[simp] theorem complete_rlog (i st re : Nat) (v : Word) : (complete b i st re v).rlog = b.rlog := by obtain ⟨_, h⟩ := complete_eq b i st re v; rw [h]
@[simp] theorem complete_time (i st re : Nat) (v : Word) : (complete b i st re v).time = b.time := by obtain ⟨_, h⟩ := complete_eq b i st re v; rw [h]
@[simp] theorem complete_obs (i st re : Nat) (v : Word) : (complete b i st re v).obs = b.obs := by obtain ⟨_, h⟩ := complete_eq b i st re v; rw [h]
@[simp] theorem complete_dbg (i st re : Nat) (v : Word) : (complete b i st re v).dbg = b.dbg := by obtain ⟨_, h⟩ := complete_eq b i st re v; rw [h]
@[simp] theorem complete_g0 (i st re : Nat) (v : Word) : (complete b i st re v).g0 = b.g0 := by obtain ⟨_, h⟩ := complete_eq b i st re v; rw [h]
@[simp] theorem chan_complete (i st re : Nat) (v : Word) (j : Nat) : chan (complete b i st re v) j = chan b j := by obtain ⟨_, h⟩ := complete_eq b i st re v; rw [h]; rfl
@[simp] theorem ctxOf_complete (i st re : Nat) (v : Word) (j : Nat) : ctxOf (complete b i st re v) j = ctxOf b j := by obtain ⟨_, h⟩ := complete_eq b i st re v; rw [h]; rfl
@[simp] theorem seamOf_complete (i st re : Nat) (v : Word) (j : Nat) : seamOf (complete b i st re v) j = seamOf b j := by obtain ⟨_, h⟩ := complete_eq b i st re v; rw [h]; rfl
@[simp] theorem linkOf_complete (i st re : Nat) (v : Word) (j : Nat) : linkOf (complete b i st re v) j = linkOf b j := by obtain ⟨_, h⟩ := complete_eq b i st re v; rw [h]; rfl
@[simp] theorem outOf_complete (i st re : Nat) (v : Word) (j : PortId) : outOf (complete b i st re v) j = outOf b j := by obtain ⟨_, h⟩ := complete_eq b i st re v; rw [h]; rfl
@[simp] theorem pathOf_complete (i st re : Nat) (v : Word) (j : PathId) : pathOf (complete b i st re v) j = pathOf b j := by obtain ⟨_, h⟩ := complete_eq b i st re v; rw [h]; rfl
@[simp] theorem txnOf_complete (i st re : Nat) (v : Word) (j : Nat) : txnOf (complete b i st re v) j = txnOf b j := by obtain ⟨_, h⟩ := complete_eq b i st re v; rw [h]; rfl
@[simp] theorem completeIf_build (i : Option Nat) (st re : Nat) (v : Word) : (completeIf b i st re v).build = b.build := by obtain ⟨_, h⟩ := completeIf_eq b i st re v; rw [h]
@[simp] theorem completeIf_now (i : Option Nat) (st re : Nat) (v : Word) : (completeIf b i st re v).now = b.now := by obtain ⟨_, h⟩ := completeIf_eq b i st re v; rw [h]
@[simp] theorem completeIf_serial (i : Option Nat) (st re : Nat) (v : Word) : (completeIf b i st re v).serial = b.serial := by obtain ⟨_, h⟩ := completeIf_eq b i st re v; rw [h]
@[simp] theorem completeIf_free (i : Option Nat) (st re : Nat) (v : Word) : (completeIf b i st re v).free = b.free := by obtain ⟨_, h⟩ := completeIf_eq b i st re v; rw [h]
@[simp] theorem completeIf_usBase (i : Option Nat) (st re : Nat) (v : Word) : (completeIf b i st re v).usBase = b.usBase := by obtain ⟨_, h⟩ := completeIf_eq b i st re v; rw [h]
@[simp] theorem completeIf_zeroLines (i : Option Nat) (st re : Nat) (v : Word) : (completeIf b i st re v).zeroLines = b.zeroLines := by obtain ⟨_, h⟩ := completeIf_eq b i st re v; rw [h]
@[simp] theorem completeIf_ctlClear (i : Option Nat) (st re : Nat) (v : Word) : (completeIf b i st re v).ctlClear = b.ctlClear := by obtain ⟨_, h⟩ := completeIf_eq b i st re v; rw [h]
@[simp] theorem completeIf_seams (i : Option Nat) (st re : Nat) (v : Word) : (completeIf b i st re v).seams = b.seams := by obtain ⟨_, h⟩ := completeIf_eq b i st re v; rw [h]
@[simp] theorem completeIf_txns (i : Option Nat) (st re : Nat) (v : Word) : (completeIf b i st re v).txns = b.txns := by obtain ⟨_, h⟩ := completeIf_eq b i st re v; rw [h]
@[simp] theorem completeIf_xfers (i : Option Nat) (st re : Nat) (v : Word) : (completeIf b i st re v).xfers = b.xfers := by obtain ⟨_, h⟩ := completeIf_eq b i st re v; rw [h]
@[simp] theorem completeIf_ops (i : Option Nat) (st re : Nat) (v : Word) : (completeIf b i st re v).ops = b.ops := by obtain ⟨_, h⟩ := completeIf_eq b i st re v; rw [h]
@[simp] theorem completeIf_descs (i : Option Nat) (st re : Nat) (v : Word) : (completeIf b i st re v).descs = b.descs := by obtain ⟨_, h⟩ := completeIf_eq b i st re v; rw [h]
@[simp] theorem completeIf_paths (i : Option Nat) (st re : Nat) (v : Word) : (completeIf b i st re v).paths = b.paths := by obtain ⟨_, h⟩ := completeIf_eq b i st re v; rw [h]
@[simp] theorem completeIf_outs (i : Option Nat) (st re : Nat) (v : Word) : (completeIf b i st re v).outs = b.outs := by obtain ⟨_, h⟩ := completeIf_eq b i st re v; rw [h]
@[simp] theorem completeIf_chans (i : Option Nat) (st re : Nat) (v : Word) : (completeIf b i st re v).chans = b.chans := by obtain ⟨_, h⟩ := completeIf_eq b i st re v; rw [h]
@[simp] theorem completeIf_ctxs (i : Option Nat) (st re : Nat) (v : Word) : (completeIf b i st re v).ctxs = b.ctxs := by obtain ⟨_, h⟩ := completeIf_eq b i st re v; rw [h]
@[simp] theorem completeIf_tallies (i : Option Nat) (st re : Nat) (v : Word) : (completeIf b i st re v).tallies = b.tallies := by obtain ⟨_, h⟩ := completeIf_eq b i st re v; rw [h]
@[simp] theorem completeIf_marks (i : Option Nat) (st re : Nat) (v : Word) : (completeIf b i st re v).marks = b.marks := by obtain ⟨_, h⟩ := completeIf_eq b i st re v; rw [h]
@[simp] theorem completeIf_marksDropped (i : Option Nat) (st re : Nat) (v : Word) : (completeIf b i st re v).marksDropped = b.marksDropped := by obtain ⟨_, h⟩ := completeIf_eq b i st re v; rw [h]
@[simp] theorem completeIf_regs (i : Option Nat) (st re : Nat) (v : Word) : (completeIf b i st re v).regs = b.regs := by obtain ⟨_, h⟩ := completeIf_eq b i st re v; rw [h]
@[simp] theorem completeIf_arb (i : Option Nat) (st re : Nat) (v : Word) : (completeIf b i st re v).arb = b.arb := by obtain ⟨_, h⟩ := completeIf_eq b i st re v; rw [h]
@[simp] theorem completeIf_sump (i : Option Nat) (st re : Nat) (v : Word) : (completeIf b i st re v).sump = b.sump := by obtain ⟨_, h⟩ := completeIf_eq b i st re v; rw [h]
@[simp] theorem completeIf_cw (i : Option Nat) (st re : Nat) (v : Word) : (completeIf b i st re v).cw = b.cw := by obtain ⟨_, h⟩ := completeIf_eq b i st re v; rw [h]
@[simp] theorem completeIf_bring (i : Option Nat) (st re : Nat) (v : Word) : (completeIf b i st re v).bring = b.bring := by obtain ⟨_, h⟩ := completeIf_eq b i st re v; rw [h]
@[simp] theorem completeIf_power (i : Option Nat) (st re : Nat) (v : Word) : (completeIf b i st re v).power = b.power := by obtain ⟨_, h⟩ := completeIf_eq b i st re v; rw [h]
@[simp] theorem completeIf_recov (i : Option Nat) (st re : Nat) (v : Word) : (completeIf b i st re v).recov = b.recov := by obtain ⟨_, h⟩ := completeIf_eq b i st re v; rw [h]
@[simp] theorem completeIf_safety (i : Option Nat) (st re : Nat) (v : Word) : (completeIf b i st re v).safety = b.safety := by obtain ⟨_, h⟩ := completeIf_eq b i st re v; rw [h]
@[simp] theorem completeIf_ev (i : Option Nat) (st re : Nat) (v : Word) : (completeIf b i st re v).ev = b.ev := by obtain ⟨_, h⟩ := completeIf_eq b i st re v; rw [h]
@[simp] theorem completeIf_rlog (i : Option Nat) (st re : Nat) (v : Word) : (completeIf b i st re v).rlog = b.rlog := by obtain ⟨_, h⟩ := completeIf_eq b i st re v; rw [h]
@[simp] theorem completeIf_time (i : Option Nat) (st re : Nat) (v : Word) : (completeIf b i st re v).time = b.time := by obtain ⟨_, h⟩ := completeIf_eq b i st re v; rw [h]
@[simp] theorem completeIf_obs (i : Option Nat) (st re : Nat) (v : Word) : (completeIf b i st re v).obs = b.obs := by obtain ⟨_, h⟩ := completeIf_eq b i st re v; rw [h]
@[simp] theorem completeIf_dbg (i : Option Nat) (st re : Nat) (v : Word) : (completeIf b i st re v).dbg = b.dbg := by obtain ⟨_, h⟩ := completeIf_eq b i st re v; rw [h]
@[simp] theorem completeIf_g0 (i : Option Nat) (st re : Nat) (v : Word) : (completeIf b i st re v).g0 = b.g0 := by obtain ⟨_, h⟩ := completeIf_eq b i st re v; rw [h]
@[simp] theorem chan_completeIf (i : Option Nat) (st re : Nat) (v : Word) (j : Nat) : chan (completeIf b i st re v) j = chan b j := by obtain ⟨_, h⟩ := completeIf_eq b i st re v; rw [h]; rfl
@[simp] theorem ctxOf_completeIf (i : Option Nat) (st re : Nat) (v : Word) (j : Nat) : ctxOf (completeIf b i st re v) j = ctxOf b j := by obtain ⟨_, h⟩ := completeIf_eq b i st re v; rw [h]; rfl
@[simp] theorem seamOf_completeIf (i : Option Nat) (st re : Nat) (v : Word) (j : Nat) : seamOf (completeIf b i st re v) j = seamOf b j := by obtain ⟨_, h⟩ := completeIf_eq b i st re v; rw [h]; rfl
@[simp] theorem linkOf_completeIf (i : Option Nat) (st re : Nat) (v : Word) (j : Nat) : linkOf (completeIf b i st re v) j = linkOf b j := by obtain ⟨_, h⟩ := completeIf_eq b i st re v; rw [h]; rfl
@[simp] theorem outOf_completeIf (i : Option Nat) (st re : Nat) (v : Word) (j : PortId) : outOf (completeIf b i st re v) j = outOf b j := by obtain ⟨_, h⟩ := completeIf_eq b i st re v; rw [h]; rfl
@[simp] theorem pathOf_completeIf (i : Option Nat) (st re : Nat) (v : Word) (j : PathId) : pathOf (completeIf b i st re v) j = pathOf b j := by obtain ⟨_, h⟩ := completeIf_eq b i st re v; rw [h]; rfl
@[simp] theorem txnOf_completeIf (i : Option Nat) (st re : Nat) (v : Word) (j : Nat) : txnOf (completeIf b i st re v) j = txnOf b j := by obtain ⟨_, h⟩ := completeIf_eq b i st re v; rw [h]; rfl

end Sys2Proof.Machine
end

