-- ==== Sys2Proof/Laws/Shape.lean ====
section
/-! SUPPORT. What a command's outcome can be: every row answers a next state, every row but those of `touchesArrays` changes the block
alone, and a row that names a unit the build does not have changes nothing. -/

namespace Sys2Proof.Machine

/-- The path rows agree on the paths of the build. -/
theorem pathOk_eq (b : Block) (p : PathId) : pathOk b p = Instr.pathIn b.build p := by cases p <;> rfl

theorem cwInOk_eq (b : Block) (i : CwIn) : cwInOk b i = Instr.cwIn b.build i := by cases i <;> rfl

theorem shape_done {c : Instr} {s : State} {b : Block} (h : exec c s = done s b) (w : c.wf s.blk.build = true) :
    ∃ b, exec c s = guarded (c.wf s.blk.build) s b := ⟨b, by rw [h, w]; rfl⟩

theorem shape_guarded {c : Instr} {s : State} {b : Block} {ok : Bool} (h : exec c s = guarded ok s b) (w : ok = c.wf s.blk.build) :
    ∃ b, exec c s = guarded (c.wf s.blk.build) s b := ⟨b, by rw [h, w]⟩

theorem shape_done_arr {c : Instr} {s : State} {r : Arrays × Block} (h : exec c s = doneArr s r) (w : c.wf s.blk.build = true) :
    ∃ r, exec c s = guardedArr (c.wf s.blk.build) s r := ⟨r, by rw [h, w]; rfl⟩

theorem shape_guarded_arr {c : Instr} {s : State} {r : Arrays × Block} {ok : Bool} (h : exec c s = guardedArr ok s r)
    (w : ok = c.wf s.blk.build) : ∃ r, exec c s = guardedArr (c.wf s.blk.build) s r := ⟨r, by rw [h, w]⟩

/-- A row that leaves the arrays alone changes the block to some `b`, or nothing where it names an absent unit. -/
theorem exec_shape (c : Instr) (s : State) (h : c.touchesArrays = false) : ∃ b, exec c s = guarded (c.wf s.blk.build) s b := by
  cases c
  case starve w => cases w with
    | bank ch n => exact shape_guarded rfl rfl
    | path p n => exact shape_guarded (ok := pathOk s.blk p) rfl (pathOk_eq _ _)
  case pathGrant p => exact shape_guarded (ok := pathOk s.blk p) rfl (pathOk_eq _ _)
  case wakeComplete u => cases u <;> exact shape_guarded rfl rfl
  case dbgData w => cases w <;> exact shape_done rfl rfl
  all_goals first
    | exact Bool.noConfusion h
    | exact shape_done rfl rfl
    | exact shape_guarded rfl rfl

/-- A row that may change the arrays answers some arrays and some block, or what stood where it names an absent unit. -/
theorem exec_shape_arr (c : Instr) (s : State) (h : c.touchesArrays = true) :
    ∃ r, exec c s = guardedArr (c.wf s.blk.build) s r := by
  cases c
  all_goals first
    | exact Bool.noConfusion h
    | exact shape_done_arr rfl rfl
    | exact shape_guarded_arr rfl rfl

end Sys2Proof.Machine
end

