-- ==== Sys2Proof/Laws/Tables.lean ====
section
/-! SUPPORT. Laws of the tables: reading after setting, and reading what a map or a filter leaves. -/

namespace Sys2Proof.Machine

theorem tget_filter_ne {α : Type} (d : α) (t : Tbl α) {i j : Nat} (h : i ≠ j) : tget d (t.filter (fun e => e.1 != i)) j = tget d t j := by
  induction t with
  | nil => rfl
  | cons e t ih =>
    rcases e with ⟨k, v⟩
    by_cases hk : k = i
    · subst hk; simp [tget, h, ih]
    · rw [List.filter_cons_of_pos (by simp [hk])]
      by_cases hj : k = j <;> simp [tget, hj, ih]

theorem tget_tset {α : Type} (d : α) (t : Tbl α) (i j : Nat) (v : α) : tget d (tset t i v) j = if i = j then v else tget d t j := by
  by_cases h : i = j
  · simp [tset, tget, h]
  · simp [tset, tget, h, tget_filter_ne]

@[simp] theorem tget_tset_self {α : Type} (d : α) (t : Tbl α) (i : Nat) (v : α) : tget d (tset t i v) i = v := by simp [tget_tset]

theorem tget_tmod {α : Type} (d : α) (t : Tbl α) (i j : Nat) (f : α → α) :
    tget d (tmod d t i f) j = if i = j then f (tget d t i) else tget d t j := tget_tset ..

/-- Reading a table whose every entry has been changed by `f`, which leaves the default alone. -/
theorem tget_map {α : Type} (d : α) (f : Nat → α → α) (t : Tbl α) (k : Nat) (h : f k d = d) :
    tget d (t.map (fun e => (e.1, f e.1 e.2))) k = f k (tget d t k) := by
  induction t with
  | nil => exact h.symm
  | cons e t ih =>
    rcases e with ⟨i, x⟩
    by_cases hi : i = k
    · subst hi; simp [tget]
    · simp [tget, hi, ih]

/-- Reading a table of which only the keys with `p` are kept. -/
theorem tget_filter {α : Type} (d : α) (p : Nat → Bool) (t : Tbl α) (k : Nat) :
    tget d (t.filter (fun e => p e.1)) k = if p k then tget d t k else d := by
  induction t with
  | nil => simp [tget]
  | cons e t ih =>
    rcases e with ⟨i, x⟩
    by_cases hi : i = k
    · subst hi; by_cases hp : p i <;> simp [tget, hp, ih]
    · by_cases hp : p i <;> simp [tget, hi, hp, ih]

theorem aget_aset {κ α : Type} [DecidableEq κ] (d : α) (t : List (κ × α)) (i j : κ) (v : α) :
    aget d (aset t i v) j = if i = j then v else aget d t j := by
  unfold aset
  by_cases h : i = j
  · simp [aget, h]
  · simp only [aget, h, if_false]
    induction t with
    | nil => rfl
    | cons e t ih =>
      rcases e with ⟨k, x⟩
      by_cases hk : k = i
      · rw [List.filter_cons_of_neg (by simp [hk]), ih]; subst hk; simp [aget, h]
      · rw [List.filter_cons_of_pos (by simp [hk])]
        by_cases hj : k = j <;> simp only [aget, hj, if_true, if_false, ih]

end Sys2Proof.Machine
end

