-- ==== Sys2Proof/Laws/State.lean ====
section
/-! SUPPORT. What each update of a part of the block does to every field: the field it is about, and each other one. -/

namespace Sys2Proof.Machine

variable (b : Block)

/-! What an update sets. -/

theorem chan_setChan (c j : Nat) (f : Channel → Channel) : chan (setChan b c f) j = if c = j then f (chan b c) else chan b j :=
  tget_tmod ..
@[simp] theorem chan_setChan_self (c : Nat) (f : Channel → Channel) : chan (setChan b c f) c = f (chan b c) := by simp [chan_setChan]
@[simp] theorem chan_setChan_ne {c j : Nat} (f : Channel → Channel) (h : c ≠ j) : chan (setChan b c f) j = chan b j := by
  simp [chan_setChan, h]
theorem ctxOf_setCtx (c j : Nat) (f : Ctx → Ctx) : ctxOf (setCtx b c f) j = if c = j then f (ctxOf b c) else ctxOf b j := tget_tmod ..
@[simp] theorem ctxOf_setCtx_self (c : Nat) (f : Ctx → Ctx) : ctxOf (setCtx b c f) c = f (ctxOf b c) := by simp [ctxOf_setCtx]
@[simp] theorem ctxOf_setCtx_ne {c j : Nat} (f : Ctx → Ctx) (h : c ≠ j) : ctxOf (setCtx b c f) j = ctxOf b j := by simp [ctxOf_setCtx, h]
theorem seamOf_setSeam (n j : Nat) (f : Seam → Seam) : seamOf (setSeam b n f) j = if n = j then f (seamOf b n) else seamOf b j := tget_tmod ..
@[simp] theorem seamOf_setSeam_self (n : Nat) (f : Seam → Seam) : seamOf (setSeam b n f) n = f (seamOf b n) := by simp [seamOf_setSeam]
@[simp] theorem seamOf_setSeam_ne {n j : Nat} (f : Seam → Seam) (h : n ≠ j) : seamOf (setSeam b n f) j = seamOf b j := by
  simp [seamOf_setSeam, h]
theorem linkOf_setLink (n j : Nat) (f : Link → Link) : linkOf (setLink b n f) j = if n = j then f (linkOf b n) else linkOf b j := tget_tmod ..
@[simp] theorem linkOf_setLink_self (n : Nat) (f : Link → Link) : linkOf (setLink b n f) n = f (linkOf b n) := by simp [linkOf_setLink]
@[simp] theorem linkOf_setLink_ne {n j : Nat} (f : Link → Link) (h : n ≠ j) : linkOf (setLink b n f) j = linkOf b j := by
  simp [linkOf_setLink, h]
theorem outOf_setOut (p q : PortId) (o : PortOut) : outOf (setOut b p o) q = if p = q then o else outOf b q := aget_aset ..
@[simp] theorem outOf_setOut_self (p : PortId) (o : PortOut) : outOf (setOut b p o) p = o := by simp [outOf_setOut]
theorem pathOf_setPath (p q : PathId) (o : PathSt) : pathOf (setPath b p o) q = if p = q then o else pathOf b q := aget_aset ..
@[simp] theorem setTxn_txns (u : Nat) (f : Txn → Txn) : (setTxn b u f).txns = b.txns.map (fun x => if x.uid = u then f x else x) := rfl
@[simp] theorem dropTxn_txns (u : Nat) : (dropTxn b u).txns = b.txns.filter (fun x => decide (x.uid ≠ u)) := rfl
@[simp] theorem setDesc_descs (u : Nat) (f : DescOp → DescOp) : (setDesc b u f).descs = b.descs.map (fun d => if d.uid = u then f d else d) := rfl
@[simp] theorem dropDesc_descs (u : Nat) : (dropDesc b u).descs = b.descs.filter (fun d => decide (d.uid ≠ u)) := rfl

/-! What an update leaves alone. -/

@[simp] theorem setChan_build (c : Nat) (f : Channel → Channel) : (setChan b c f).build = b.build := rfl
@[simp] theorem setChan_now (c : Nat) (f : Channel → Channel) : (setChan b c f).now = b.now := rfl
@[simp] theorem setChan_serial (c : Nat) (f : Channel → Channel) : (setChan b c f).serial = b.serial := rfl
@[simp] theorem setChan_free (c : Nat) (f : Channel → Channel) : (setChan b c f).free = b.free := rfl
@[simp] theorem setChan_usBase (c : Nat) (f : Channel → Channel) : (setChan b c f).usBase = b.usBase := rfl
@[simp] theorem setChan_zeroLines (c : Nat) (f : Channel → Channel) : (setChan b c f).zeroLines = b.zeroLines := rfl
@[simp] theorem setChan_ctlClear (c : Nat) (f : Channel → Channel) : (setChan b c f).ctlClear = b.ctlClear := rfl
@[simp] theorem setChan_seams (c : Nat) (f : Channel → Channel) : (setChan b c f).seams = b.seams := rfl
@[simp] theorem setChan_txns (c : Nat) (f : Channel → Channel) : (setChan b c f).txns = b.txns := rfl
@[simp] theorem setChan_xfers (c : Nat) (f : Channel → Channel) : (setChan b c f).xfers = b.xfers := rfl
@[simp] theorem setChan_ops (c : Nat) (f : Channel → Channel) : (setChan b c f).ops = b.ops := rfl
@[simp] theorem setChan_descs (c : Nat) (f : Channel → Channel) : (setChan b c f).descs = b.descs := rfl
@[simp] theorem setChan_paths (c : Nat) (f : Channel → Channel) : (setChan b c f).paths = b.paths := rfl
@[simp] theorem setChan_outs (c : Nat) (f : Channel → Channel) : (setChan b c f).outs = b.outs := rfl
@[simp] theorem setChan_ctxs (c : Nat) (f : Channel → Channel) : (setChan b c f).ctxs = b.ctxs := rfl
@[simp] theorem setChan_tallies (c : Nat) (f : Channel → Channel) : (setChan b c f).tallies = b.tallies := rfl
@[simp] theorem setChan_marks (c : Nat) (f : Channel → Channel) : (setChan b c f).marks = b.marks := rfl
@[simp] theorem setChan_marksDropped (c : Nat) (f : Channel → Channel) : (setChan b c f).marksDropped = b.marksDropped := rfl
@[simp] theorem setChan_regs (c : Nat) (f : Channel → Channel) : (setChan b c f).regs = b.regs := rfl
@[simp] theorem setChan_arb (c : Nat) (f : Channel → Channel) : (setChan b c f).arb = b.arb := rfl
@[simp] theorem setChan_sump (c : Nat) (f : Channel → Channel) : (setChan b c f).sump = b.sump := rfl
@[simp] theorem setChan_cw (c : Nat) (f : Channel → Channel) : (setChan b c f).cw = b.cw := rfl
@[simp] theorem setChan_bring (c : Nat) (f : Channel → Channel) : (setChan b c f).bring = b.bring := rfl
@[simp] theorem setChan_power (c : Nat) (f : Channel → Channel) : (setChan b c f).power = b.power := rfl
@[simp] theorem setChan_recov (c : Nat) (f : Channel → Channel) : (setChan b c f).recov = b.recov := rfl
@[simp] theorem setChan_safety (c : Nat) (f : Channel → Channel) : (setChan b c f).safety = b.safety := rfl
@[simp] theorem setChan_ev (c : Nat) (f : Channel → Channel) : (setChan b c f).ev = b.ev := rfl
@[simp] theorem setChan_rlog (c : Nat) (f : Channel → Channel) : (setChan b c f).rlog = b.rlog := rfl
@[simp] theorem setChan_time (c : Nat) (f : Channel → Channel) : (setChan b c f).time = b.time := rfl
@[simp] theorem setChan_obs (c : Nat) (f : Channel → Channel) : (setChan b c f).obs = b.obs := rfl
@[simp] theorem setChan_dbg (c : Nat) (f : Channel → Channel) : (setChan b c f).dbg = b.dbg := rfl
@[simp] theorem setChan_cmdq (c : Nat) (f : Channel → Channel) : (setChan b c f).cmdq = b.cmdq := rfl
@[simp] theorem setChan_g0 (c : Nat) (f : Channel → Channel) : (setChan b c f).g0 = b.g0 := rfl
@[simp] theorem setCtx_build (c : Nat) (f : Ctx → Ctx) : (setCtx b c f).build = b.build := rfl
@[simp] theorem setCtx_now (c : Nat) (f : Ctx → Ctx) : (setCtx b c f).now = b.now := rfl
@[simp] theorem setCtx_serial (c : Nat) (f : Ctx → Ctx) : (setCtx b c f).serial = b.serial := rfl
@[simp] theorem setCtx_free (c : Nat) (f : Ctx → Ctx) : (setCtx b c f).free = b.free := rfl
@[simp] theorem setCtx_usBase (c : Nat) (f : Ctx → Ctx) : (setCtx b c f).usBase = b.usBase := rfl
@[simp] theorem setCtx_zeroLines (c : Nat) (f : Ctx → Ctx) : (setCtx b c f).zeroLines = b.zeroLines := rfl
@[simp] theorem setCtx_ctlClear (c : Nat) (f : Ctx → Ctx) : (setCtx b c f).ctlClear = b.ctlClear := rfl
@[simp] theorem setCtx_seams (c : Nat) (f : Ctx → Ctx) : (setCtx b c f).seams = b.seams := rfl
@[simp] theorem setCtx_txns (c : Nat) (f : Ctx → Ctx) : (setCtx b c f).txns = b.txns := rfl
@[simp] theorem setCtx_xfers (c : Nat) (f : Ctx → Ctx) : (setCtx b c f).xfers = b.xfers := rfl
@[simp] theorem setCtx_ops (c : Nat) (f : Ctx → Ctx) : (setCtx b c f).ops = b.ops := rfl
@[simp] theorem setCtx_descs (c : Nat) (f : Ctx → Ctx) : (setCtx b c f).descs = b.descs := rfl
@[simp] theorem setCtx_paths (c : Nat) (f : Ctx → Ctx) : (setCtx b c f).paths = b.paths := rfl
@[simp] theorem setCtx_outs (c : Nat) (f : Ctx → Ctx) : (setCtx b c f).outs = b.outs := rfl
@[simp] theorem setCtx_chans (c : Nat) (f : Ctx → Ctx) : (setCtx b c f).chans = b.chans := rfl
@[simp] theorem setCtx_tallies (c : Nat) (f : Ctx → Ctx) : (setCtx b c f).tallies = b.tallies := rfl
@[simp] theorem setCtx_marks (c : Nat) (f : Ctx → Ctx) : (setCtx b c f).marks = b.marks := rfl
@[simp] theorem setCtx_marksDropped (c : Nat) (f : Ctx → Ctx) : (setCtx b c f).marksDropped = b.marksDropped := rfl
@[simp] theorem setCtx_regs (c : Nat) (f : Ctx → Ctx) : (setCtx b c f).regs = b.regs := rfl
@[simp] theorem setCtx_arb (c : Nat) (f : Ctx → Ctx) : (setCtx b c f).arb = b.arb := rfl
@[simp] theorem setCtx_sump (c : Nat) (f : Ctx → Ctx) : (setCtx b c f).sump = b.sump := rfl
@[simp] theorem setCtx_cw (c : Nat) (f : Ctx → Ctx) : (setCtx b c f).cw = b.cw := rfl
@[simp] theorem setCtx_bring (c : Nat) (f : Ctx → Ctx) : (setCtx b c f).bring = b.bring := rfl
@[simp] theorem setCtx_power (c : Nat) (f : Ctx → Ctx) : (setCtx b c f).power = b.power := rfl
@[simp] theorem setCtx_recov (c : Nat) (f : Ctx → Ctx) : (setCtx b c f).recov = b.recov := rfl
@[simp] theorem setCtx_safety (c : Nat) (f : Ctx → Ctx) : (setCtx b c f).safety = b.safety := rfl
@[simp] theorem setCtx_ev (c : Nat) (f : Ctx → Ctx) : (setCtx b c f).ev = b.ev := rfl
@[simp] theorem setCtx_rlog (c : Nat) (f : Ctx → Ctx) : (setCtx b c f).rlog = b.rlog := rfl
@[simp] theorem setCtx_time (c : Nat) (f : Ctx → Ctx) : (setCtx b c f).time = b.time := rfl
@[simp] theorem setCtx_obs (c : Nat) (f : Ctx → Ctx) : (setCtx b c f).obs = b.obs := rfl
@[simp] theorem setCtx_dbg (c : Nat) (f : Ctx → Ctx) : (setCtx b c f).dbg = b.dbg := rfl
@[simp] theorem setCtx_cmdq (c : Nat) (f : Ctx → Ctx) : (setCtx b c f).cmdq = b.cmdq := rfl
@[simp] theorem setCtx_g0 (c : Nat) (f : Ctx → Ctx) : (setCtx b c f).g0 = b.g0 := rfl
@[simp] theorem setSeam_build (n : Nat) (f : Seam → Seam) : (setSeam b n f).build = b.build := rfl
@[simp] theorem setSeam_now (n : Nat) (f : Seam → Seam) : (setSeam b n f).now = b.now := rfl
@[simp] theorem setSeam_serial (n : Nat) (f : Seam → Seam) : (setSeam b n f).serial = b.serial := rfl
@[simp] theorem setSeam_free (n : Nat) (f : Seam → Seam) : (setSeam b n f).free = b.free := rfl
@[simp] theorem setSeam_usBase (n : Nat) (f : Seam → Seam) : (setSeam b n f).usBase = b.usBase := rfl
@[simp] theorem setSeam_zeroLines (n : Nat) (f : Seam → Seam) : (setSeam b n f).zeroLines = b.zeroLines := rfl
@[simp] theorem setSeam_ctlClear (n : Nat) (f : Seam → Seam) : (setSeam b n f).ctlClear = b.ctlClear := rfl
@[simp] theorem setSeam_txns (n : Nat) (f : Seam → Seam) : (setSeam b n f).txns = b.txns := rfl
@[simp] theorem setSeam_xfers (n : Nat) (f : Seam → Seam) : (setSeam b n f).xfers = b.xfers := rfl
@[simp] theorem setSeam_ops (n : Nat) (f : Seam → Seam) : (setSeam b n f).ops = b.ops := rfl
@[simp] theorem setSeam_descs (n : Nat) (f : Seam → Seam) : (setSeam b n f).descs = b.descs := rfl
@[simp] theorem setSeam_paths (n : Nat) (f : Seam → Seam) : (setSeam b n f).paths = b.paths := rfl
@[simp] theorem setSeam_outs (n : Nat) (f : Seam → Seam) : (setSeam b n f).outs = b.outs := rfl
@[simp] theorem setSeam_chans (n : Nat) (f : Seam → Seam) : (setSeam b n f).chans = b.chans := rfl
@[simp] theorem setSeam_ctxs (n : Nat) (f : Seam → Seam) : (setSeam b n f).ctxs = b.ctxs := rfl
@[simp] theorem setSeam_tallies (n : Nat) (f : Seam → Seam) : (setSeam b n f).tallies = b.tallies := rfl
@[simp] theorem setSeam_marks (n : Nat) (f : Seam → Seam) : (setSeam b n f).marks = b.marks := rfl
@[simp] theorem setSeam_marksDropped (n : Nat) (f : Seam → Seam) : (setSeam b n f).marksDropped = b.marksDropped := rfl
@[simp] theorem setSeam_regs (n : Nat) (f : Seam → Seam) : (setSeam b n f).regs = b.regs := rfl
@[simp] theorem setSeam_arb (n : Nat) (f : Seam → Seam) : (setSeam b n f).arb = b.arb := rfl
@[simp] theorem setSeam_sump (n : Nat) (f : Seam → Seam) : (setSeam b n f).sump = b.sump := rfl
@[simp] theorem setSeam_cw (n : Nat) (f : Seam → Seam) : (setSeam b n f).cw = b.cw := rfl
@[simp] theorem setSeam_bring (n : Nat) (f : Seam → Seam) : (setSeam b n f).bring = b.bring := rfl
@[simp] theorem setSeam_power (n : Nat) (f : Seam → Seam) : (setSeam b n f).power = b.power := rfl
@[simp] theorem setSeam_recov (n : Nat) (f : Seam → Seam) : (setSeam b n f).recov = b.recov := rfl
@[simp] theorem setSeam_safety (n : Nat) (f : Seam → Seam) : (setSeam b n f).safety = b.safety := rfl
@[simp] theorem setSeam_ev (n : Nat) (f : Seam → Seam) : (setSeam b n f).ev = b.ev := rfl
@[simp] theorem setSeam_rlog (n : Nat) (f : Seam → Seam) : (setSeam b n f).rlog = b.rlog := rfl
@[simp] theorem setSeam_time (n : Nat) (f : Seam → Seam) : (setSeam b n f).time = b.time := rfl
@[simp] theorem setSeam_obs (n : Nat) (f : Seam → Seam) : (setSeam b n f).obs = b.obs := rfl
@[simp] theorem setSeam_dbg (n : Nat) (f : Seam → Seam) : (setSeam b n f).dbg = b.dbg := rfl
@[simp] theorem setSeam_cmdq (n : Nat) (f : Seam → Seam) : (setSeam b n f).cmdq = b.cmdq := rfl
@[simp] theorem setSeam_g0 (n : Nat) (f : Seam → Seam) : (setSeam b n f).g0 = b.g0 := rfl
@[simp] theorem setLink_build (n : Nat) (f : Link → Link) : (setLink b n f).build = b.build := rfl
@[simp] theorem setLink_now (n : Nat) (f : Link → Link) : (setLink b n f).now = b.now := rfl
@[simp] theorem setLink_serial (n : Nat) (f : Link → Link) : (setLink b n f).serial = b.serial := rfl
@[simp] theorem setLink_free (n : Nat) (f : Link → Link) : (setLink b n f).free = b.free := rfl
@[simp] theorem setLink_usBase (n : Nat) (f : Link → Link) : (setLink b n f).usBase = b.usBase := rfl
@[simp] theorem setLink_zeroLines (n : Nat) (f : Link → Link) : (setLink b n f).zeroLines = b.zeroLines := rfl
@[simp] theorem setLink_ctlClear (n : Nat) (f : Link → Link) : (setLink b n f).ctlClear = b.ctlClear := rfl
@[simp] theorem setLink_seams (n : Nat) (f : Link → Link) : (setLink b n f).seams = b.seams := rfl
@[simp] theorem setLink_txns (n : Nat) (f : Link → Link) : (setLink b n f).txns = b.txns := rfl
@[simp] theorem setLink_xfers (n : Nat) (f : Link → Link) : (setLink b n f).xfers = b.xfers := rfl
@[simp] theorem setLink_ops (n : Nat) (f : Link → Link) : (setLink b n f).ops = b.ops := rfl
@[simp] theorem setLink_descs (n : Nat) (f : Link → Link) : (setLink b n f).descs = b.descs := rfl
@[simp] theorem setLink_paths (n : Nat) (f : Link → Link) : (setLink b n f).paths = b.paths := rfl
@[simp] theorem setLink_outs (n : Nat) (f : Link → Link) : (setLink b n f).outs = b.outs := rfl
@[simp] theorem setLink_chans (n : Nat) (f : Link → Link) : (setLink b n f).chans = b.chans := rfl
@[simp] theorem setLink_ctxs (n : Nat) (f : Link → Link) : (setLink b n f).ctxs = b.ctxs := rfl
@[simp] theorem setLink_tallies (n : Nat) (f : Link → Link) : (setLink b n f).tallies = b.tallies := rfl
@[simp] theorem setLink_marks (n : Nat) (f : Link → Link) : (setLink b n f).marks = b.marks := rfl
@[simp] theorem setLink_marksDropped (n : Nat) (f : Link → Link) : (setLink b n f).marksDropped = b.marksDropped := rfl
@[simp] theorem setLink_regs (n : Nat) (f : Link → Link) : (setLink b n f).regs = b.regs := rfl
@[simp] theorem setLink_arb (n : Nat) (f : Link → Link) : (setLink b n f).arb = b.arb := rfl
@[simp] theorem setLink_sump (n : Nat) (f : Link → Link) : (setLink b n f).sump = b.sump := rfl
@[simp] theorem setLink_bring (n : Nat) (f : Link → Link) : (setLink b n f).bring = b.bring := rfl
@[simp] theorem setLink_power (n : Nat) (f : Link → Link) : (setLink b n f).power = b.power := rfl
@[simp] theorem setLink_recov (n : Nat) (f : Link → Link) : (setLink b n f).recov = b.recov := rfl
@[simp] theorem setLink_safety (n : Nat) (f : Link → Link) : (setLink b n f).safety = b.safety := rfl
@[simp] theorem setLink_ev (n : Nat) (f : Link → Link) : (setLink b n f).ev = b.ev := rfl
@[simp] theorem setLink_rlog (n : Nat) (f : Link → Link) : (setLink b n f).rlog = b.rlog := rfl
@[simp] theorem setLink_time (n : Nat) (f : Link → Link) : (setLink b n f).time = b.time := rfl
@[simp] theorem setLink_obs (n : Nat) (f : Link → Link) : (setLink b n f).obs = b.obs := rfl
@[simp] theorem setLink_dbg (n : Nat) (f : Link → Link) : (setLink b n f).dbg = b.dbg := rfl
@[simp] theorem setLink_cmdq (n : Nat) (f : Link → Link) : (setLink b n f).cmdq = b.cmdq := rfl
@[simp] theorem setLink_g0 (n : Nat) (f : Link → Link) : (setLink b n f).g0 = b.g0 := rfl
@[simp] theorem setLink_cw_instNum (n : Nat) (f : Link → Link) : (setLink b n f).cw.instNum = b.cw.instNum := rfl
@[simp] theorem setLink_cw_pitheadSel (n : Nat) (f : Link → Link) : (setLink b n f).cw.pitheadSel = b.cw.pitheadSel := rfl
@[simp] theorem setLink_cw_pitheadInst (n : Nat) (f : Link → Link) : (setLink b n f).cw.pitheadInst = b.cw.pitheadInst := rfl
@[simp] theorem setLink_cw_parent (n : Nat) (f : Link → Link) : (setLink b n f).cw.parent = b.cw.parent := rfl
@[simp] theorem setLink_cw_routes (n : Nat) (f : Link → Link) : (setLink b n f).cw.routes = b.cw.routes := rfl
@[simp] theorem setLink_cw_demoted (n : Nat) (f : Link → Link) : (setLink b n f).cw.demoted = b.cw.demoted := rfl
@[simp] theorem setLink_cw_ctl (n : Nat) (f : Link → Link) : (setLink b n f).cw.ctl = b.cw.ctl := rfl
@[simp] theorem setLink_cw_nbr (n : Nat) (f : Link → Link) : (setLink b n f).cw.nbr = b.cw.nbr := rfl
@[simp] theorem setLink_cw_noroute (n : Nat) (f : Link → Link) : (setLink b n f).cw.noroute = b.cw.noroute := rfl
@[simp] theorem setLink_cw_rspDropped (n : Nat) (f : Link → Link) : (setLink b n f).cw.rspDropped = b.cw.rspDropped := rfl
@[simp] theorem setLink_cw_hopDropped (n : Nat) (f : Link → Link) : (setLink b n f).cw.hopDropped = b.cw.hopDropped := rfl
@[simp] theorem setLink_cw_aborts (n : Nat) (f : Link → Link) : (setLink b n f).cw.aborts = b.cw.aborts := rfl
@[simp] theorem setLink_cw_route (n : Nat) (f : Link → Link) : (setLink b n f).cw.route = b.cw.route := rfl
@[simp] theorem setLink_cw_inUse (n : Nat) (f : Link → Link) : (setLink b n f).cw.inUse = b.cw.inUse := rfl
@[simp] theorem setLink_cw_jobs (n : Nat) (f : Link → Link) : (setLink b n f).cw.jobs = b.cw.jobs := rfl
@[simp] theorem setLink_cw_aseq (n : Nat) (f : Link → Link) : (setLink b n f).cw.aseq = b.cw.aseq := rfl
@[simp] theorem setLink_cw_seen (n : Nat) (f : Link → Link) : (setLink b n f).cw.seen = b.cw.seen := rfl
@[simp] theorem setLink_cw_latched (n : Nat) (f : Link → Link) : (setLink b n f).cw.latched = b.cw.latched := rfl
@[simp] theorem setLink_cw_usePort (n : Nat) (f : Link → Link) : (setLink b n f).cw.usePort = b.cw.usePort := rfl
@[simp] theorem setLink_cw_changing (n : Nat) (f : Link → Link) : (setLink b n f).cw.changing = b.cw.changing := rfl
@[simp] theorem setLink_cw_openCls (n : Nat) (f : Link → Link) : (setLink b n f).cw.openCls = b.cw.openCls := rfl
@[simp] theorem setLink_cw_local_ (n : Nat) (f : Link → Link) : (setLink b n f).cw.local_ = b.cw.local_ := rfl
@[simp] theorem setLink_cw_held (n : Nat) (f : Link → Link) : (setLink b n f).cw.held = b.cw.held := rfl
@[simp] theorem setLink_cw_bootBytes (n : Nat) (f : Link → Link) : (setLink b n f).cw.bootBytes = b.cw.bootBytes := rfl
@[simp] theorem setLink_cw_imageOk (n : Nat) (f : Link → Link) : (setLink b n f).cw.imageOk = b.cw.imageOk := rfl
@[simp] theorem setLink_cw_started (n : Nat) (f : Link → Link) : (setLink b n f).cw.started = b.cw.started := rfl
@[simp] theorem setLink_cw_imageReady (n : Nat) (f : Link → Link) : (setLink b n f).cw.imageReady = b.cw.imageReady := rfl
@[simp] theorem setLink_cw_stopTransit (n : Nat) (f : Link → Link) : (setLink b n f).cw.stopTransit = b.cw.stopTransit := rfl
@[simp] theorem setLink_cw_asking (n : Nat) (f : Link → Link) : (setLink b n f).cw.asking = b.cw.asking := rfl
@[simp] theorem setLink_cw_acked (n : Nat) (f : Link → Link) : (setLink b n f).cw.acked = b.cw.acked := rfl
@[simp] theorem setLink_cw_heard (n : Nat) (f : Link → Link) : (setLink b n f).cw.heard = b.cw.heard := rfl
@[simp] theorem setLink_cw_beaconHops (n : Nat) (f : Link → Link) : (setLink b n f).cw.beaconHops = b.cw.beaconHops := rfl
@[simp] theorem setLink_cw_lastLocal (n : Nat) (f : Link → Link) : (setLink b n f).cw.lastLocal = b.cw.lastLocal := rfl
@[simp] theorem setLink_cw_sentStart (n : Nat) (f : Link → Link) : (setLink b n f).cw.sentStart = b.cw.sentStart := rfl
@[simp] theorem setLink_cw_missing (n : Nat) (f : Link → Link) : (setLink b n f).cw.missing = b.cw.missing := rfl
@[simp] theorem setLink_cw_offPlans (n : Nat) (f : Link → Link) : (setLink b n f).cw.offPlans = b.cw.offPlans := rfl
@[simp] theorem setLink_cw_offGranted (n : Nat) (f : Link → Link) : (setLink b n f).cw.offGranted = b.cw.offGranted := rfl
@[simp] theorem setOut_build (p : PortId) (o : PortOut) : (setOut b p o).build = b.build := rfl
@[simp] theorem setOut_now (p : PortId) (o : PortOut) : (setOut b p o).now = b.now := rfl
@[simp] theorem setOut_serial (p : PortId) (o : PortOut) : (setOut b p o).serial = b.serial := rfl
@[simp] theorem setOut_free (p : PortId) (o : PortOut) : (setOut b p o).free = b.free := rfl
@[simp] theorem setOut_usBase (p : PortId) (o : PortOut) : (setOut b p o).usBase = b.usBase := rfl
@[simp] theorem setOut_zeroLines (p : PortId) (o : PortOut) : (setOut b p o).zeroLines = b.zeroLines := rfl
@[simp] theorem setOut_ctlClear (p : PortId) (o : PortOut) : (setOut b p o).ctlClear = b.ctlClear := rfl
@[simp] theorem setOut_seams (p : PortId) (o : PortOut) : (setOut b p o).seams = b.seams := rfl
@[simp] theorem setOut_txns (p : PortId) (o : PortOut) : (setOut b p o).txns = b.txns := rfl
@[simp] theorem setOut_xfers (p : PortId) (o : PortOut) : (setOut b p o).xfers = b.xfers := rfl
@[simp] theorem setOut_ops (p : PortId) (o : PortOut) : (setOut b p o).ops = b.ops := rfl
@[simp] theorem setOut_descs (p : PortId) (o : PortOut) : (setOut b p o).descs = b.descs := rfl
@[simp] theorem setOut_paths (p : PortId) (o : PortOut) : (setOut b p o).paths = b.paths := rfl
@[simp] theorem setOut_chans (p : PortId) (o : PortOut) : (setOut b p o).chans = b.chans := rfl
@[simp] theorem setOut_ctxs (p : PortId) (o : PortOut) : (setOut b p o).ctxs = b.ctxs := rfl
@[simp] theorem setOut_tallies (p : PortId) (o : PortOut) : (setOut b p o).tallies = b.tallies := rfl
@[simp] theorem setOut_marks (p : PortId) (o : PortOut) : (setOut b p o).marks = b.marks := rfl
@[simp] theorem setOut_marksDropped (p : PortId) (o : PortOut) : (setOut b p o).marksDropped = b.marksDropped := rfl
@[simp] theorem setOut_regs (p : PortId) (o : PortOut) : (setOut b p o).regs = b.regs := rfl
@[simp] theorem setOut_arb (p : PortId) (o : PortOut) : (setOut b p o).arb = b.arb := rfl
@[simp] theorem setOut_sump (p : PortId) (o : PortOut) : (setOut b p o).sump = b.sump := rfl
@[simp] theorem setOut_cw (p : PortId) (o : PortOut) : (setOut b p o).cw = b.cw := rfl
@[simp] theorem setOut_bring (p : PortId) (o : PortOut) : (setOut b p o).bring = b.bring := rfl
@[simp] theorem setOut_power (p : PortId) (o : PortOut) : (setOut b p o).power = b.power := rfl
@[simp] theorem setOut_recov (p : PortId) (o : PortOut) : (setOut b p o).recov = b.recov := rfl
@[simp] theorem setOut_safety (p : PortId) (o : PortOut) : (setOut b p o).safety = b.safety := rfl
@[simp] theorem setOut_ev (p : PortId) (o : PortOut) : (setOut b p o).ev = b.ev := rfl
@[simp] theorem setOut_rlog (p : PortId) (o : PortOut) : (setOut b p o).rlog = b.rlog := rfl
@[simp] theorem setOut_time (p : PortId) (o : PortOut) : (setOut b p o).time = b.time := rfl
@[simp] theorem setOut_obs (p : PortId) (o : PortOut) : (setOut b p o).obs = b.obs := rfl
@[simp] theorem setOut_dbg (p : PortId) (o : PortOut) : (setOut b p o).dbg = b.dbg := rfl
@[simp] theorem setOut_cmdq (p : PortId) (o : PortOut) : (setOut b p o).cmdq = b.cmdq := rfl
@[simp] theorem setOut_g0 (p : PortId) (o : PortOut) : (setOut b p o).g0 = b.g0 := rfl
@[simp] theorem setPath_build (p : PathId) (o : PathSt) : (setPath b p o).build = b.build := rfl
@[simp] theorem setPath_now (p : PathId) (o : PathSt) : (setPath b p o).now = b.now := rfl
@[simp] theorem setPath_serial (p : PathId) (o : PathSt) : (setPath b p o).serial = b.serial := rfl
@[simp] theorem setPath_free (p : PathId) (o : PathSt) : (setPath b p o).free = b.free := rfl
@[simp] theorem setPath_usBase (p : PathId) (o : PathSt) : (setPath b p o).usBase = b.usBase := rfl
@[simp] theorem setPath_zeroLines (p : PathId) (o : PathSt) : (setPath b p o).zeroLines = b.zeroLines := rfl
@[simp] theorem setPath_ctlClear (p : PathId) (o : PathSt) : (setPath b p o).ctlClear = b.ctlClear := rfl
@[simp] theorem setPath_seams (p : PathId) (o : PathSt) : (setPath b p o).seams = b.seams := rfl
@[simp] theorem setPath_txns (p : PathId) (o : PathSt) : (setPath b p o).txns = b.txns := rfl
@[simp] theorem setPath_xfers (p : PathId) (o : PathSt) : (setPath b p o).xfers = b.xfers := rfl
@[simp] theorem setPath_ops (p : PathId) (o : PathSt) : (setPath b p o).ops = b.ops := rfl
@[simp] theorem setPath_descs (p : PathId) (o : PathSt) : (setPath b p o).descs = b.descs := rfl
@[simp] theorem setPath_outs (p : PathId) (o : PathSt) : (setPath b p o).outs = b.outs := rfl
@[simp] theorem setPath_chans (p : PathId) (o : PathSt) : (setPath b p o).chans = b.chans := rfl
@[simp] theorem setPath_ctxs (p : PathId) (o : PathSt) : (setPath b p o).ctxs = b.ctxs := rfl
@[simp] theorem setPath_tallies (p : PathId) (o : PathSt) : (setPath b p o).tallies = b.tallies := rfl
@[simp] theorem setPath_marks (p : PathId) (o : PathSt) : (setPath b p o).marks = b.marks := rfl
@[simp] theorem setPath_marksDropped (p : PathId) (o : PathSt) : (setPath b p o).marksDropped = b.marksDropped := rfl
@[simp] theorem setPath_regs (p : PathId) (o : PathSt) : (setPath b p o).regs = b.regs := rfl
@[simp] theorem setPath_arb (p : PathId) (o : PathSt) : (setPath b p o).arb = b.arb := rfl
@[simp] theorem setPath_sump (p : PathId) (o : PathSt) : (setPath b p o).sump = b.sump := rfl
@[simp] theorem setPath_cw (p : PathId) (o : PathSt) : (setPath b p o).cw = b.cw := rfl
@[simp] theorem setPath_bring (p : PathId) (o : PathSt) : (setPath b p o).bring = b.bring := rfl
@[simp] theorem setPath_power (p : PathId) (o : PathSt) : (setPath b p o).power = b.power := rfl
@[simp] theorem setPath_recov (p : PathId) (o : PathSt) : (setPath b p o).recov = b.recov := rfl
@[simp] theorem setPath_safety (p : PathId) (o : PathSt) : (setPath b p o).safety = b.safety := rfl
@[simp] theorem setPath_ev (p : PathId) (o : PathSt) : (setPath b p o).ev = b.ev := rfl
@[simp] theorem setPath_rlog (p : PathId) (o : PathSt) : (setPath b p o).rlog = b.rlog := rfl
@[simp] theorem setPath_time (p : PathId) (o : PathSt) : (setPath b p o).time = b.time := rfl
@[simp] theorem setPath_obs (p : PathId) (o : PathSt) : (setPath b p o).obs = b.obs := rfl
@[simp] theorem setPath_dbg (p : PathId) (o : PathSt) : (setPath b p o).dbg = b.dbg := rfl
@[simp] theorem setPath_cmdq (p : PathId) (o : PathSt) : (setPath b p o).cmdq = b.cmdq := rfl
@[simp] theorem setPath_g0 (p : PathId) (o : PathSt) : (setPath b p o).g0 = b.g0 := rfl
@[simp] theorem setTxn_build (u : Nat) (f : Txn → Txn) : (setTxn b u f).build = b.build := rfl
@[simp] theorem setTxn_now (u : Nat) (f : Txn → Txn) : (setTxn b u f).now = b.now := rfl
@[simp] theorem setTxn_serial (u : Nat) (f : Txn → Txn) : (setTxn b u f).serial = b.serial := rfl
@[simp] theorem setTxn_free (u : Nat) (f : Txn → Txn) : (setTxn b u f).free = b.free := rfl
@[simp] theorem setTxn_usBase (u : Nat) (f : Txn → Txn) : (setTxn b u f).usBase = b.usBase := rfl
@[simp] theorem setTxn_zeroLines (u : Nat) (f : Txn → Txn) : (setTxn b u f).zeroLines = b.zeroLines := rfl
@[simp] theorem setTxn_ctlClear (u : Nat) (f : Txn → Txn) : (setTxn b u f).ctlClear = b.ctlClear := rfl
@[simp] theorem setTxn_seams (u : Nat) (f : Txn → Txn) : (setTxn b u f).seams = b.seams := rfl
@[simp] theorem setTxn_xfers (u : Nat) (f : Txn → Txn) : (setTxn b u f).xfers = b.xfers := rfl
@[simp] theorem setTxn_ops (u : Nat) (f : Txn → Txn) : (setTxn b u f).ops = b.ops := rfl
@[simp] theorem setTxn_descs (u : Nat) (f : Txn → Txn) : (setTxn b u f).descs = b.descs := rfl
@[simp] theorem setTxn_paths (u : Nat) (f : Txn → Txn) : (setTxn b u f).paths = b.paths := rfl
@[simp] theorem setTxn_outs (u : Nat) (f : Txn → Txn) : (setTxn b u f).outs = b.outs := rfl
@[simp] theorem setTxn_chans (u : Nat) (f : Txn → Txn) : (setTxn b u f).chans = b.chans := rfl
@[simp] theorem setTxn_ctxs (u : Nat) (f : Txn → Txn) : (setTxn b u f).ctxs = b.ctxs := rfl
@[simp] theorem setTxn_tallies (u : Nat) (f : Txn → Txn) : (setTxn b u f).tallies = b.tallies := rfl
@[simp] theorem setTxn_marks (u : Nat) (f : Txn → Txn) : (setTxn b u f).marks = b.marks := rfl
@[simp] theorem setTxn_marksDropped (u : Nat) (f : Txn → Txn) : (setTxn b u f).marksDropped = b.marksDropped := rfl
@[simp] theorem setTxn_regs (u : Nat) (f : Txn → Txn) : (setTxn b u f).regs = b.regs := rfl
@[simp] theorem setTxn_arb (u : Nat) (f : Txn → Txn) : (setTxn b u f).arb = b.arb := rfl
@[simp] theorem setTxn_sump (u : Nat) (f : Txn → Txn) : (setTxn b u f).sump = b.sump := rfl
@[simp] theorem setTxn_cw (u : Nat) (f : Txn → Txn) : (setTxn b u f).cw = b.cw := rfl
@[simp] theorem setTxn_bring (u : Nat) (f : Txn → Txn) : (setTxn b u f).bring = b.bring := rfl
@[simp] theorem setTxn_power (u : Nat) (f : Txn → Txn) : (setTxn b u f).power = b.power := rfl
@[simp] theorem setTxn_recov (u : Nat) (f : Txn → Txn) : (setTxn b u f).recov = b.recov := rfl
@[simp] theorem setTxn_safety (u : Nat) (f : Txn → Txn) : (setTxn b u f).safety = b.safety := rfl
@[simp] theorem setTxn_ev (u : Nat) (f : Txn → Txn) : (setTxn b u f).ev = b.ev := rfl
@[simp] theorem setTxn_rlog (u : Nat) (f : Txn → Txn) : (setTxn b u f).rlog = b.rlog := rfl
@[simp] theorem setTxn_time (u : Nat) (f : Txn → Txn) : (setTxn b u f).time = b.time := rfl
@[simp] theorem setTxn_obs (u : Nat) (f : Txn → Txn) : (setTxn b u f).obs = b.obs := rfl
@[simp] theorem setTxn_dbg (u : Nat) (f : Txn → Txn) : (setTxn b u f).dbg = b.dbg := rfl
@[simp] theorem setTxn_cmdq (u : Nat) (f : Txn → Txn) : (setTxn b u f).cmdq = b.cmdq := rfl
@[simp] theorem setTxn_g0 (u : Nat) (f : Txn → Txn) : (setTxn b u f).g0 = b.g0 := rfl
@[simp] theorem dropTxn_build (u : Nat) : (dropTxn b u).build = b.build := rfl
@[simp] theorem dropTxn_now (u : Nat) : (dropTxn b u).now = b.now := rfl
@[simp] theorem dropTxn_serial (u : Nat) : (dropTxn b u).serial = b.serial := rfl
@[simp] theorem dropTxn_free (u : Nat) : (dropTxn b u).free = b.free := rfl
@[simp] theorem dropTxn_usBase (u : Nat) : (dropTxn b u).usBase = b.usBase := rfl
@[simp] theorem dropTxn_zeroLines (u : Nat) : (dropTxn b u).zeroLines = b.zeroLines := rfl
@[simp] theorem dropTxn_ctlClear (u : Nat) : (dropTxn b u).ctlClear = b.ctlClear := rfl
@[simp] theorem dropTxn_seams (u : Nat) : (dropTxn b u).seams = b.seams := rfl
@[simp] theorem dropTxn_xfers (u : Nat) : (dropTxn b u).xfers = b.xfers := rfl
@[simp] theorem dropTxn_ops (u : Nat) : (dropTxn b u).ops = b.ops := rfl
@[simp] theorem dropTxn_descs (u : Nat) : (dropTxn b u).descs = b.descs := rfl
@[simp] theorem dropTxn_paths (u : Nat) : (dropTxn b u).paths = b.paths := rfl
@[simp] theorem dropTxn_outs (u : Nat) : (dropTxn b u).outs = b.outs := rfl
@[simp] theorem dropTxn_chans (u : Nat) : (dropTxn b u).chans = b.chans := rfl
@[simp] theorem dropTxn_ctxs (u : Nat) : (dropTxn b u).ctxs = b.ctxs := rfl
@[simp] theorem dropTxn_tallies (u : Nat) : (dropTxn b u).tallies = b.tallies := rfl
@[simp] theorem dropTxn_marks (u : Nat) : (dropTxn b u).marks = b.marks := rfl
@[simp] theorem dropTxn_marksDropped (u : Nat) : (dropTxn b u).marksDropped = b.marksDropped := rfl
@[simp] theorem dropTxn_regs (u : Nat) : (dropTxn b u).regs = b.regs := rfl
@[simp] theorem dropTxn_arb (u : Nat) : (dropTxn b u).arb = b.arb := rfl
@[simp] theorem dropTxn_sump (u : Nat) : (dropTxn b u).sump = b.sump := rfl
@[simp] theorem dropTxn_cw (u : Nat) : (dropTxn b u).cw = b.cw := rfl
@[simp] theorem dropTxn_bring (u : Nat) : (dropTxn b u).bring = b.bring := rfl
@[simp] theorem dropTxn_power (u : Nat) : (dropTxn b u).power = b.power := rfl
@[simp] theorem dropTxn_recov (u : Nat) : (dropTxn b u).recov = b.recov := rfl
@[simp] theorem dropTxn_safety (u : Nat) : (dropTxn b u).safety = b.safety := rfl
@[simp] theorem dropTxn_ev (u : Nat) : (dropTxn b u).ev = b.ev := rfl
@[simp] theorem dropTxn_rlog (u : Nat) : (dropTxn b u).rlog = b.rlog := rfl
@[simp] theorem dropTxn_time (u : Nat) : (dropTxn b u).time = b.time := rfl
@[simp] theorem dropTxn_obs (u : Nat) : (dropTxn b u).obs = b.obs := rfl
@[simp] theorem dropTxn_dbg (u : Nat) : (dropTxn b u).dbg = b.dbg := rfl
@[simp] theorem dropTxn_cmdq (u : Nat) : (dropTxn b u).cmdq = b.cmdq := rfl
@[simp] theorem dropTxn_g0 (u : Nat) : (dropTxn b u).g0 = b.g0 := rfl
@[simp] theorem setDesc_build (u : Nat) (f : DescOp → DescOp) : (setDesc b u f).build = b.build := rfl
@[simp] theorem setDesc_now (u : Nat) (f : DescOp → DescOp) : (setDesc b u f).now = b.now := rfl
@[simp] theorem setDesc_serial (u : Nat) (f : DescOp → DescOp) : (setDesc b u f).serial = b.serial := rfl
@[simp] theorem setDesc_free (u : Nat) (f : DescOp → DescOp) : (setDesc b u f).free = b.free := rfl
@[simp] theorem setDesc_usBase (u : Nat) (f : DescOp → DescOp) : (setDesc b u f).usBase = b.usBase := rfl
@[simp] theorem setDesc_zeroLines (u : Nat) (f : DescOp → DescOp) : (setDesc b u f).zeroLines = b.zeroLines := rfl
@[simp] theorem setDesc_ctlClear (u : Nat) (f : DescOp → DescOp) : (setDesc b u f).ctlClear = b.ctlClear := rfl
@[simp] theorem setDesc_seams (u : Nat) (f : DescOp → DescOp) : (setDesc b u f).seams = b.seams := rfl
@[simp] theorem setDesc_txns (u : Nat) (f : DescOp → DescOp) : (setDesc b u f).txns = b.txns := rfl
@[simp] theorem setDesc_xfers (u : Nat) (f : DescOp → DescOp) : (setDesc b u f).xfers = b.xfers := rfl
@[simp] theorem setDesc_ops (u : Nat) (f : DescOp → DescOp) : (setDesc b u f).ops = b.ops := rfl
@[simp] theorem setDesc_paths (u : Nat) (f : DescOp → DescOp) : (setDesc b u f).paths = b.paths := rfl
@[simp] theorem setDesc_outs (u : Nat) (f : DescOp → DescOp) : (setDesc b u f).outs = b.outs := rfl
@[simp] theorem setDesc_chans (u : Nat) (f : DescOp → DescOp) : (setDesc b u f).chans = b.chans := rfl
@[simp] theorem setDesc_ctxs (u : Nat) (f : DescOp → DescOp) : (setDesc b u f).ctxs = b.ctxs := rfl
@[simp] theorem setDesc_tallies (u : Nat) (f : DescOp → DescOp) : (setDesc b u f).tallies = b.tallies := rfl
@[simp] theorem setDesc_marks (u : Nat) (f : DescOp → DescOp) : (setDesc b u f).marks = b.marks := rfl
@[simp] theorem setDesc_marksDropped (u : Nat) (f : DescOp → DescOp) : (setDesc b u f).marksDropped = b.marksDropped := rfl
@[simp] theorem setDesc_regs (u : Nat) (f : DescOp → DescOp) : (setDesc b u f).regs = b.regs := rfl
@[simp] theorem setDesc_arb (u : Nat) (f : DescOp → DescOp) : (setDesc b u f).arb = b.arb := rfl
@[simp] theorem setDesc_sump (u : Nat) (f : DescOp → DescOp) : (setDesc b u f).sump = b.sump := rfl
@[simp] theorem setDesc_cw (u : Nat) (f : DescOp → DescOp) : (setDesc b u f).cw = b.cw := rfl
@[simp] theorem setDesc_bring (u : Nat) (f : DescOp → DescOp) : (setDesc b u f).bring = b.bring := rfl
@[simp] theorem setDesc_power (u : Nat) (f : DescOp → DescOp) : (setDesc b u f).power = b.power := rfl
@[simp] theorem setDesc_recov (u : Nat) (f : DescOp → DescOp) : (setDesc b u f).recov = b.recov := rfl
@[simp] theorem setDesc_safety (u : Nat) (f : DescOp → DescOp) : (setDesc b u f).safety = b.safety := rfl
@[simp] theorem setDesc_ev (u : Nat) (f : DescOp → DescOp) : (setDesc b u f).ev = b.ev := rfl
@[simp] theorem setDesc_rlog (u : Nat) (f : DescOp → DescOp) : (setDesc b u f).rlog = b.rlog := rfl
@[simp] theorem setDesc_time (u : Nat) (f : DescOp → DescOp) : (setDesc b u f).time = b.time := rfl
@[simp] theorem setDesc_obs (u : Nat) (f : DescOp → DescOp) : (setDesc b u f).obs = b.obs := rfl
@[simp] theorem setDesc_dbg (u : Nat) (f : DescOp → DescOp) : (setDesc b u f).dbg = b.dbg := rfl
@[simp] theorem setDesc_cmdq (u : Nat) (f : DescOp → DescOp) : (setDesc b u f).cmdq = b.cmdq := rfl
@[simp] theorem setDesc_g0 (u : Nat) (f : DescOp → DescOp) : (setDesc b u f).g0 = b.g0 := rfl
@[simp] theorem dropDesc_build (u : Nat) : (dropDesc b u).build = b.build := rfl
@[simp] theorem dropDesc_now (u : Nat) : (dropDesc b u).now = b.now := rfl
@[simp] theorem dropDesc_serial (u : Nat) : (dropDesc b u).serial = b.serial := rfl
@[simp] theorem dropDesc_free (u : Nat) : (dropDesc b u).free = b.free := rfl
@[simp] theorem dropDesc_usBase (u : Nat) : (dropDesc b u).usBase = b.usBase := rfl
@[simp] theorem dropDesc_zeroLines (u : Nat) : (dropDesc b u).zeroLines = b.zeroLines := rfl
@[simp] theorem dropDesc_ctlClear (u : Nat) : (dropDesc b u).ctlClear = b.ctlClear := rfl
@[simp] theorem dropDesc_seams (u : Nat) : (dropDesc b u).seams = b.seams := rfl
@[simp] theorem dropDesc_txns (u : Nat) : (dropDesc b u).txns = b.txns := rfl
@[simp] theorem dropDesc_xfers (u : Nat) : (dropDesc b u).xfers = b.xfers := rfl
@[simp] theorem dropDesc_ops (u : Nat) : (dropDesc b u).ops = b.ops := rfl
@[simp] theorem dropDesc_paths (u : Nat) : (dropDesc b u).paths = b.paths := rfl
@[simp] theorem dropDesc_outs (u : Nat) : (dropDesc b u).outs = b.outs := rfl
@[simp] theorem dropDesc_chans (u : Nat) : (dropDesc b u).chans = b.chans := rfl
@[simp] theorem dropDesc_ctxs (u : Nat) : (dropDesc b u).ctxs = b.ctxs := rfl
@[simp] theorem dropDesc_tallies (u : Nat) : (dropDesc b u).tallies = b.tallies := rfl
@[simp] theorem dropDesc_marks (u : Nat) : (dropDesc b u).marks = b.marks := rfl
@[simp] theorem dropDesc_marksDropped (u : Nat) : (dropDesc b u).marksDropped = b.marksDropped := rfl
@[simp] theorem dropDesc_regs (u : Nat) : (dropDesc b u).regs = b.regs := rfl
@[simp] theorem dropDesc_arb (u : Nat) : (dropDesc b u).arb = b.arb := rfl
@[simp] theorem dropDesc_sump (u : Nat) : (dropDesc b u).sump = b.sump := rfl
@[simp] theorem dropDesc_cw (u : Nat) : (dropDesc b u).cw = b.cw := rfl
@[simp] theorem dropDesc_bring (u : Nat) : (dropDesc b u).bring = b.bring := rfl
@[simp] theorem dropDesc_power (u : Nat) : (dropDesc b u).power = b.power := rfl
@[simp] theorem dropDesc_recov (u : Nat) : (dropDesc b u).recov = b.recov := rfl
@[simp] theorem dropDesc_safety (u : Nat) : (dropDesc b u).safety = b.safety := rfl
@[simp] theorem dropDesc_ev (u : Nat) : (dropDesc b u).ev = b.ev := rfl
@[simp] theorem dropDesc_rlog (u : Nat) : (dropDesc b u).rlog = b.rlog := rfl
@[simp] theorem dropDesc_time (u : Nat) : (dropDesc b u).time = b.time := rfl
@[simp] theorem dropDesc_obs (u : Nat) : (dropDesc b u).obs = b.obs := rfl
@[simp] theorem dropDesc_dbg (u : Nat) : (dropDesc b u).dbg = b.dbg := rfl
@[simp] theorem dropDesc_cmdq (u : Nat) : (dropDesc b u).cmdq = b.cmdq := rfl
@[simp] theorem dropDesc_g0 (u : Nat) : (dropDesc b u).g0 = b.g0 := rfl

/-! Reading one part of a block of which another has been set. -/

@[simp] theorem ctxOf_setChan (c : Nat) (f : Channel → Channel) (j : Nat) : ctxOf (setChan b c f) j = ctxOf b j := rfl
@[simp] theorem seamOf_setChan (c : Nat) (f : Channel → Channel) (j : Nat) : seamOf (setChan b c f) j = seamOf b j := rfl
@[simp] theorem linkOf_setChan (c : Nat) (f : Channel → Channel) (j : Nat) : linkOf (setChan b c f) j = linkOf b j := rfl
@[simp] theorem outOf_setChan (c : Nat) (f : Channel → Channel) (j : PortId) : outOf (setChan b c f) j = outOf b j := rfl
@[simp] theorem pathOf_setChan (c : Nat) (f : Channel → Channel) (j : PathId) : pathOf (setChan b c f) j = pathOf b j := rfl
@[simp] theorem txnOf_setChan (c : Nat) (f : Channel → Channel) (j : Nat) : txnOf (setChan b c f) j = txnOf b j := rfl
@[simp] theorem chan_setCtx (c : Nat) (f : Ctx → Ctx) (j : Nat) : chan (setCtx b c f) j = chan b j := rfl
@[simp] theorem seamOf_setCtx (c : Nat) (f : Ctx → Ctx) (j : Nat) : seamOf (setCtx b c f) j = seamOf b j := rfl
@[simp] theorem linkOf_setCtx (c : Nat) (f : Ctx → Ctx) (j : Nat) : linkOf (setCtx b c f) j = linkOf b j := rfl
@[simp] theorem outOf_setCtx (c : Nat) (f : Ctx → Ctx) (j : PortId) : outOf (setCtx b c f) j = outOf b j := rfl
@[simp] theorem pathOf_setCtx (c : Nat) (f : Ctx → Ctx) (j : PathId) : pathOf (setCtx b c f) j = pathOf b j := rfl
@[simp] theorem txnOf_setCtx (c : Nat) (f : Ctx → Ctx) (j : Nat) : txnOf (setCtx b c f) j = txnOf b j := rfl
@[simp] theorem chan_setSeam (n : Nat) (f : Seam → Seam) (j : Nat) : chan (setSeam b n f) j = chan b j := rfl
@[simp] theorem ctxOf_setSeam (n : Nat) (f : Seam → Seam) (j : Nat) : ctxOf (setSeam b n f) j = ctxOf b j := rfl
@[simp] theorem linkOf_setSeam (n : Nat) (f : Seam → Seam) (j : Nat) : linkOf (setSeam b n f) j = linkOf b j := rfl
@[simp] theorem outOf_setSeam (n : Nat) (f : Seam → Seam) (j : PortId) : outOf (setSeam b n f) j = outOf b j := rfl
@[simp] theorem pathOf_setSeam (n : Nat) (f : Seam → Seam) (j : PathId) : pathOf (setSeam b n f) j = pathOf b j := rfl
@[simp] theorem txnOf_setSeam (n : Nat) (f : Seam → Seam) (j : Nat) : txnOf (setSeam b n f) j = txnOf b j := rfl
@[simp] theorem chan_setLink (n : Nat) (f : Link → Link) (j : Nat) : chan (setLink b n f) j = chan b j := rfl
@[simp] theorem ctxOf_setLink (n : Nat) (f : Link → Link) (j : Nat) : ctxOf (setLink b n f) j = ctxOf b j := rfl
@[simp] theorem seamOf_setLink (n : Nat) (f : Link → Link) (j : Nat) : seamOf (setLink b n f) j = seamOf b j := rfl
@[simp] theorem outOf_setLink (n : Nat) (f : Link → Link) (j : PortId) : outOf (setLink b n f) j = outOf b j := rfl
@[simp] theorem pathOf_setLink (n : Nat) (f : Link → Link) (j : PathId) : pathOf (setLink b n f) j = pathOf b j := rfl
@[simp] theorem txnOf_setLink (n : Nat) (f : Link → Link) (j : Nat) : txnOf (setLink b n f) j = txnOf b j := rfl
@[simp] theorem chan_setOut (p : PortId) (o : PortOut) (j : Nat) : chan (setOut b p o) j = chan b j := rfl
@[simp] theorem ctxOf_setOut (p : PortId) (o : PortOut) (j : Nat) : ctxOf (setOut b p o) j = ctxOf b j := rfl
@[simp] theorem seamOf_setOut (p : PortId) (o : PortOut) (j : Nat) : seamOf (setOut b p o) j = seamOf b j := rfl
@[simp] theorem linkOf_setOut (p : PortId) (o : PortOut) (j : Nat) : linkOf (setOut b p o) j = linkOf b j := rfl
@[simp] theorem pathOf_setOut (p : PortId) (o : PortOut) (j : PathId) : pathOf (setOut b p o) j = pathOf b j := rfl
@[simp] theorem txnOf_setOut (p : PortId) (o : PortOut) (j : Nat) : txnOf (setOut b p o) j = txnOf b j := rfl
@[simp] theorem chan_setPath (p : PathId) (o : PathSt) (j : Nat) : chan (setPath b p o) j = chan b j := rfl
@[simp] theorem ctxOf_setPath (p : PathId) (o : PathSt) (j : Nat) : ctxOf (setPath b p o) j = ctxOf b j := rfl
@[simp] theorem seamOf_setPath (p : PathId) (o : PathSt) (j : Nat) : seamOf (setPath b p o) j = seamOf b j := rfl
@[simp] theorem linkOf_setPath (p : PathId) (o : PathSt) (j : Nat) : linkOf (setPath b p o) j = linkOf b j := rfl
@[simp] theorem outOf_setPath (p : PathId) (o : PathSt) (j : PortId) : outOf (setPath b p o) j = outOf b j := rfl
@[simp] theorem txnOf_setPath (p : PathId) (o : PathSt) (j : Nat) : txnOf (setPath b p o) j = txnOf b j := rfl
@[simp] theorem chan_setTxn (u : Nat) (f : Txn → Txn) (j : Nat) : chan (setTxn b u f) j = chan b j := rfl
@[simp] theorem ctxOf_setTxn (u : Nat) (f : Txn → Txn) (j : Nat) : ctxOf (setTxn b u f) j = ctxOf b j := rfl
@[simp] theorem seamOf_setTxn (u : Nat) (f : Txn → Txn) (j : Nat) : seamOf (setTxn b u f) j = seamOf b j := rfl
@[simp] theorem linkOf_setTxn (u : Nat) (f : Txn → Txn) (j : Nat) : linkOf (setTxn b u f) j = linkOf b j := rfl
@[simp] theorem outOf_setTxn (u : Nat) (f : Txn → Txn) (j : PortId) : outOf (setTxn b u f) j = outOf b j := rfl
@[simp] theorem pathOf_setTxn (u : Nat) (f : Txn → Txn) (j : PathId) : pathOf (setTxn b u f) j = pathOf b j := rfl
@[simp] theorem chan_dropTxn (u : Nat) (j : Nat) : chan (dropTxn b u) j = chan b j := rfl
@[simp] theorem ctxOf_dropTxn (u : Nat) (j : Nat) : ctxOf (dropTxn b u) j = ctxOf b j := rfl
@[simp] theorem seamOf_dropTxn (u : Nat) (j : Nat) : seamOf (dropTxn b u) j = seamOf b j := rfl
@[simp] theorem linkOf_dropTxn (u : Nat) (j : Nat) : linkOf (dropTxn b u) j = linkOf b j := rfl
@[simp] theorem outOf_dropTxn (u : Nat) (j : PortId) : outOf (dropTxn b u) j = outOf b j := rfl
@[simp] theorem pathOf_dropTxn (u : Nat) (j : PathId) : pathOf (dropTxn b u) j = pathOf b j := rfl
@[simp] theorem chan_setDesc (u : Nat) (f : DescOp → DescOp) (j : Nat) : chan (setDesc b u f) j = chan b j := rfl
@[simp] theorem ctxOf_setDesc (u : Nat) (f : DescOp → DescOp) (j : Nat) : ctxOf (setDesc b u f) j = ctxOf b j := rfl
@[simp] theorem seamOf_setDesc (u : Nat) (f : DescOp → DescOp) (j : Nat) : seamOf (setDesc b u f) j = seamOf b j := rfl
@[simp] theorem linkOf_setDesc (u : Nat) (f : DescOp → DescOp) (j : Nat) : linkOf (setDesc b u f) j = linkOf b j := rfl
@[simp] theorem outOf_setDesc (u : Nat) (f : DescOp → DescOp) (j : PortId) : outOf (setDesc b u f) j = outOf b j := rfl
@[simp] theorem pathOf_setDesc (u : Nat) (f : DescOp → DescOp) (j : PathId) : pathOf (setDesc b u f) j = pathOf b j := rfl
@[simp] theorem txnOf_setDesc (u : Nat) (f : DescOp → DescOp) (j : Nat) : txnOf (setDesc b u f) j = txnOf b j := rfl
@[simp] theorem chan_dropDesc (u : Nat) (j : Nat) : chan (dropDesc b u) j = chan b j := rfl
@[simp] theorem ctxOf_dropDesc (u : Nat) (j : Nat) : ctxOf (dropDesc b u) j = ctxOf b j := rfl
@[simp] theorem seamOf_dropDesc (u : Nat) (j : Nat) : seamOf (dropDesc b u) j = seamOf b j := rfl
@[simp] theorem linkOf_dropDesc (u : Nat) (j : Nat) : linkOf (dropDesc b u) j = linkOf b j := rfl
@[simp] theorem outOf_dropDesc (u : Nat) (j : PortId) : outOf (dropDesc b u) j = outOf b j := rfl
@[simp] theorem pathOf_dropDesc (u : Nat) (j : PathId) : pathOf (dropDesc b u) j = pathOf b j := rfl
@[simp] theorem txnOf_dropDesc (u : Nat) (j : Nat) : txnOf (dropDesc b u) j = txnOf b j := rfl

end Sys2Proof.Machine
end

