-- ==== Sys2Proof/Laws/Still.lean ====
section
/-! SUPPORT. The frame of the work of the ports: one lemma for each operation, which says that it leaves the still part of
the block alone. -/

namespace Sys2Proof.Machine

section
variable (b : Block)

@[simp] theorem still_setChan (c : Nat) (f : Channel → Channel) : (setChan b c f).still = b.still := rfl
@[simp] theorem still_setTxn (u : Nat) (f : Txn → Txn) : (setTxn b u f).still = b.still := rfl
@[simp] theorem still_dropTxn (u : Nat) : (dropTxn b u).still = b.still := rfl
@[simp] theorem still_setOut (p : PortId) (o : PortOut) : (setOut b p o).still = b.still := rfl
@[simp] theorem still_setDesc (u : Nat) (f : DescOp → DescOp) : (setDesc b u f).still = b.still := rfl
@[simp] theorem still_dropDesc (u : Nat) : (dropDesc b u).still = b.still := rfl
@[simp] theorem still_answer (u : Nat) (st : Status) (d : Nat) : (answer b u st d).still = b.still := rfl
@[simp] theorem still_waitFor (u : Nat) (h : Hold) : (waitFor b u h).still = b.still := rfl
@[simp] theorem still_ops (l : List LineOp) : ({ b with ops := l } : Block).still = b.still := rfl
@[simp] theorem still_descs (l : List DescOp) : ({ b with descs := l } : Block).still = b.still := rfl
@[simp] theorem still_serial (n : Nat) : ({ b with serial := n } : Block).still = b.still := rfl
@[simp] theorem still_obs (o : Observe) : ({ b with obs := o } : Block).still = b.still := rfl
@[simp] theorem still_ev (l : RLog) (e : Events) : ({ b with rlog := l, ev := e } : Block).still = b.still := rfl
@[simp] theorem still_addXfer (p : PathId) (r : List PathId) (s : Nat) (o : Origin) (c q x t n : Nat) (pl : Payload) :
    (addXfer b p r s o c q x t n pl).still = b.still := rfl

end

theorem still_foldl {α : Type} (f : Block → α → Block) (h : ∀ b x, (f b x).still = b.still) (l : List α) (b : Block) :
    (l.foldl f b).still = b.still := by
  induction l generalizing b with
  | nil => rfl
  | cons x l ih => rw [List.foldl_cons, ih, h]

@[simp] theorem still_count (b : Block) (e : Nat) (t : Tap) (n : Nat) : (count b e t n).still = b.still := by
  obtain ⟨o, h⟩ := count_eq b e t n; rw [h]; rfl
@[simp] theorem still_trace (b : Block) (c k : Nat) (t : Tap) (a : Option Nat) (p : Word) : (trace b c k t a p).still = b.still := by
  obtain ⟨o, h⟩ := trace_eq b c k t a p; rw [h]; rfl
@[simp] theorem still_traceSys (b : Block) (k i : Nat) (p : Word) : (traceSys b k i p).still = b.still := by
  obtain ⟨o, h⟩ := traceSys_eq b k i p; rw [h]; rfl
theorem still_setPower (b : Block) (f : Power → Power) (h : ∀ q, { f q with ch := [], waking := [], lastWake := 0 } =
    { q with ch := [], waking := [], lastWake := 0 }) : (setPower b f).still = b.still := by
  obtain ⟨t, o, e⟩ := setPower_eq b f; rw [e]; simp only [Block.still, h]
@[simp] theorem still_emit (b : Block) (ty : Nat) (ch : Option Nat) (c : Option (Nat × BitVec 8)) (x y z w : Word) :
    (emit b ty ch c x y z w).still = b.still := by
  obtain ⟨l, e, o, h⟩ := emit_eq b ty ch c x y z w; rw [h]; rfl
@[simp] theorem still_wakeRecord (b : Block) (o n m s : Nat) : (wakeRecord b o n m s).still = b.still := by
  obtain ⟨l, e, q, h⟩ := wakeRecord_eq b o n m s; rw [h]; rfl
@[simp] theorem still_runChan (b : Block) (c s : Nat) : (runChan b c s).still = b.still := by
  unfold runChan; dsimp only; repeat' split
  all_goals simp [still_setPower]
@[simp] theorem still_accessChan (b : Block) (c : Nat) (w : Bool) : (accessChan b c w).1.still = b.still := by
  unfold accessChan; repeat' split
  all_goals first | rfl | simp
@[simp] theorem still_noteIssue (b : Block) (i : Issuer) (n : Nat) : (noteIssue b i n).still = b.still := by
  unfold noteIssue; split <;> simp
@[simp] theorem still_arrive (b : Block) (op : LineOp) (t : Nat) : (arrive b op t).still = b.still := rfl
theorem still_bidLine {past : Block → LineOp → Block} (h : ∀ b op, (past b op).still = b.still) (b : Block) (p : PathId) (r : List PathId)
    (s : Nat) (op : LineOp) : (bidLine past b p r s op).still = b.still := by
  unfold bidLine; repeat' split
  all_goals first | exact h _ _ | rfl
@[simp] theorem still_bidBridge (b : Block) (s : Nat) (op : LineOp) : (bidBridge b s op).still = b.still :=
  still_bidLine (past := fun b op => pastBridge b op op.readyAt) (fun _ _ => rfl) _ _ _ _ _
@[simp] theorem still_bidEgress (b : Block) (c s : Nat) (op : LineOp) : (bidEgress b c s op).still = b.still :=
  still_bidLine (past := fun b op => pastEgress b c op op.readyAt) (fun _ _ => still_bidBridge _ _ _) _ _ _ _ _
@[simp] theorem still_issueOps (b : Block) (i : Issuer) (l : List LineOp) : (issueOps b i l).still = b.still := by
  unfold issueOps; extract_lets c
  have h : c.still = b.still := by
    rw [still_foldl (h := by intro b x; dsimp only; split <;> simp)]; simp
  rw [still_foldl (h := by intro b x; dsimp only; repeat' split
                           all_goals first | exact still_bidBridge _ _ _ | exact still_bidEgress _ _ _ _ | rfl), h]
@[simp] theorem still_issueFor (b : Block) (x : Txn) (i : Issuer) (mk : List (Nat → LineOp)) (c : Bool) :
    (issueFor b x i mk c).still = b.still := by
  unfold issueFor; dsimp only; split <;> simp
@[simp] theorem still_issueLinear (b : Block) (x : Txn) : (issueLinear b x).still = b.still := by
  unfold issueLinear; simp
@[simp] theorem still_noteSump (b : Block) (x : Txn) (n : Nat) : (noteSump b x n).still = b.still := by
  unfold noteSump; dsimp only; split <;> simp
@[simp] theorem still_issueFar (b : Block) (x : Txn) : (issueFar b x).still = b.still := by
  unfold issueFar; dsimp only
  generalize (if x.op.isRange = true then (reqLines x.req).length else 1) = n
  split
  · rfl
  split
  · simp
  split
  · rfl
  · rw [still_foldl (h := by intro b x; split <;> rfl)]
    split <;> simp
@[simp] theorem still_tallySpine (b : Block) (x : Txn) (s t : Nat) : (tallySpine b x s t).still = b.still := rfl
@[simp] theorem still_tallyReach (b : Block) (x : Txn) (t : Nat) : (tallyReach b x t).still = b.still := rfl
@[simp] theorem still_tallyStart (b : Block) (x : Txn) : (tallyStart b x).still = b.still := by
  unfold tallyStart; dsimp only; repeat' split
  all_goals simp
@[simp] theorem still_gateWait (b : Block) (u l : Nat) (g : Gate) : (gateWait b u l g).still = b.still := by
  unfold gateWait; split <;> rfl
@[simp] theorem still_endDesc (b : Block) (x : Txn) (d : DescOp) (st : Status) : (endDesc b x d st).still = b.still := by
  unfold endDesc; dsimp only; split <;> rfl
@[simp] theorem still_endFetch (b : Block) (x : Txn) (d : DescOp) (st : Status) : (endFetch b x d st).still = b.still := rfl
@[simp] theorem still_noteGather (b : Block) (c s : Nat) : (noteGather b c s).still = b.still := rfl
@[simp] theorem still_fetchDesc (b : Block) (x : Txn) (d : DescOp) : (fetchDesc b x d).still = b.still := by
  unfold fetchDesc; dsimp only; split <;> simp
@[simp] theorem still_laneFetch (b : Block) (c l : Nat) : (laneFetch b c l).still = b.still := by
  unfold laneFetch; dsimp only; repeat' split
  all_goals simp
@[simp] theorem still_queueDesc (b : Block) (x : Txn) (c t : Nat) : (queueDesc b x c t).still = b.still := by
  unfold queueDesc; simp
@[simp] theorem still_lineGate (b : Block) (x : Txn) (s l : Nat) : (lineGate b x s l).1.still = b.still := by
  unfold lineGate; dsimp only
  split <;> try rfl
  split <;> try rfl
  split <;> (rename_i h; rw [← still_accessChan b _ true, h])
@[simp] theorem still_issuedDesc (b : Block) (d : DescOp) : (issuedDesc b d).still = b.still := by unfold issuedDesc; simp
theorem still_ite {p : Prop} [Decidable p] {b : Block} {x y : Block × Bool} (hx : x.1.still = b.still) (hy : y.1.still = b.still) :
    (if p then x else y).1.still = b.still := by split <;> assumption
@[simp] theorem still_laneIssue (b : Block) (x : Txn) (d : DescOp) (pl : PlanLine) : (laneIssue b x d pl).1.still = b.still := by
  unfold laneIssue; dsimp only
  refine still_ite rfl ?_
  split <;> (rename_i h; have := still_lineGate b x (seamNo b pl.line) pl.line; rw [h] at this; simpa using this)
@[simp] theorem still_laneRun (b : Block) (u n : Nat) : (laneRun b u n).still = b.still := by
  induction n generalizing b with
  | zero => rfl
  | succ n ih =>
    unfold laneRun
    split <;> try rfl
    split <;> try rfl
    split
    · simp
    · split
      all_goals rename_i h
      all_goals have := congrArg (fun e => e.1.still) h
      all_goals simp at this
      all_goals simp [ih, this]
@[simp] theorem still_indexRun (b : Block) (u n : Nat) : (indexRun b u n).still = b.still := by
  induction n generalizing b with
  | zero => rfl
  | succ n ih =>
    unfold indexRun
    split <;> try rfl
    dsimp only
    split <;> try rfl
    split
    all_goals rename_i h
    all_goals have := congrArg (fun e => e.1.still) h
    all_goals simp at this
    all_goals simp [ih, this]
@[simp] theorem still_skipRow (b : Block) (x : Txn) (d : DescOp) (g : GatherD) (j : Nat) (m : Bool) : (skipRow b x d g j m).still = b.still := by
  unfold skipRow; dsimp only; split <;> rfl
@[simp] theorem still_rowIssue (b : Block) (x : Txn) (d : DescOp) (g : GatherD) (j : Nat) : (rowIssue b x d g j).1.still = b.still := by
  unfold rowIssue; dsimp only
  split
  · simp
  · simp
  · split <;> simp
  · split
    · rfl
    split
    all_goals rename_i h
    all_goals have := congrArg (fun e => e.1.still) h
    all_goals simp at this
    · split <;> simp [this]
    · simp [this]
    · simp [this]
@[simp] theorem still_gatherRun (b : Block) (u n : Nat) : (gatherRun b u n).still = b.still := by
  induction n generalizing b with
  | zero => rfl
  | succ n ih =>
    unfold gatherRun
    split <;> try rfl
    dsimp only
    repeat' split
    all_goals try rfl
    all_goals rename_i h
    all_goals have := congrArg (fun e => e.1.still) h
    all_goals simp at this
    all_goals simp [ih, this]
@[simp] theorem still_descRun (b : Block) (u : Nat) : (descRun b u).still = b.still := by
  unfold descRun; repeat' split
  all_goals simp
@[simp] theorem still_startGo (b : Block) (x : Txn) : (startGo b x).still = b.still := by
  unfold startGo; dsimp only; repeat' split
  all_goals simp
@[simp] theorem still_startPast (b : Block) (x : Txn) : (startPast b x).still = b.still := by
  unfold startPast; dsimp only; repeat' split
  all_goals try simp
  all_goals rename_i h
  all_goals have := congrArg (fun e => e.1.still) h
  all_goals simp at this
  all_goals simp [this]
@[simp] theorem still_startTxn (b : Block) (x : Txn) : (startTxn b x).still = b.still := by
  unfold startTxn; repeat' split
  all_goals simp
@[simp] theorem still_tryStart (b : Block) (u : Nat) : (tryStart b u).still = b.still := by
  unfold tryStart; dsimp only; repeat' split
  all_goals simp
/-- Another look at the outstanding requests leaves the still part of the block alone. -/
@[simp] theorem still_pump (b : Block) : (pump b).still = b.still := by
  unfold pump; exact still_foldl _ still_tryStart _ _

end Sys2Proof.Machine
end

