-- ==== Sys2Proof/Tests/Slice0.lean ====
section
/-! SUPPORT. Tests of one command each on small states, with their source in the manual, and for every statement with hypotheses a
witness: concrete states and operands that meet the hypotheses of each of its clauses, at the edges where a clause has a
range. -/

namespace Sys2Proof.Tests

open Sys2Proof.Machine

set_option Elab.async false

/-! Small states: two channels of banks of 256 KiB, two peer ports, booted and ready. -/

def build : Build := { channels := 2, bankSize := 0, peers := 2 }

/-- A seam of one granule at 0 without interleave, owned by context 5. -/
def seam0 : Seam := { Seam.init with valid := true, size := 1, hash := 0, owners := 1#64 <<< 5 }

def ready0 : Block :=
  { Block.powerOn build 0 true with
    now := 10000000
    bring := { Bring.init (0, true) with phase := 5, coreLost := false }
    seams := [(0, seam0)]
    chans := [(0, { Channel.init with stopped := false }), (1, { Channel.init with stopped := false })]
    ctxs := [(5, { Ctx.init with state := .open, shift := 3, job := 9, pkg := 2 })]
    arb := { Arb.init with admitted := 1, fresh := false } }

def st (b : Block) : State := { arr := { mem := [], tags := [] }, blk := b, pending := [] }

def m0 : PortId := { ch := 0, port := .M0 }

/-- A request of context 5 for the first line of the seam. -/
def beat : ReqBeat :=
  { id := 1, addr := 0, len := 127, aux := 0, cls := 0, qos := 0, ctx := 5, shift := 3, ff := false, wake := false }

/-- It stands outstanding at M0, active. -/
def txn (o : Op) (ph : Phase) : Txn := { newTxn ready0 7 (.loc m0) o beat with phase := ph, seam := some 0, total := 1 }

def ready1 (x : Txn) : Block := { ready0 with txns := [x], serial := 7 }

/-- A line operation of that request in the first line of bank 0. -/
def lop (k : LKind) (sg : Stage) (at_ : Nat) : LineOp :=
  { serial := 8, uid := 7, org := .loc m0, src := 0, cls := 0, qos := 0, ctx := 5, shift := 3, kind := k, ch := 0, bank := 0, row := 0,
    line := 0, seam := 0, fmt := 0, no := 0, stage := sg, readyAt := at_, waited := 0, data := 0, be := BitVec.allOnes 128, wp := 0,
    checked := 0, coll := 0, park := 0, back := 0, id := 1, desc := false, pairX := 0, pair := 0, reported := false, full := false, noTag := false }

def withOp (k : LKind) (sg : Stage) (now at_ : Nat) : Block :=
  { ready1 (txn .rd .active) with now := now, ops := [lop k sg at_] }

/-- A merge entry of the same line. -/
def entry : MergeEntry :=
  { serial := 6, first := 6, id := 1, line := 0, seam := 0, bank := 0, row := 0, data := 0, mask := 1, wp := 0, ctx := 5, shift := 3,
    org := .loc m0, src := 0, cls := 0, qos := 0, alloc := 100, checked := 0, draining := false }

/-- The command queue holds one command, which can be taken. -/
def queued (b : Block) (dw0 dw1 dw2 : Word) : Block :=
  { b with cmdq := { CmdQ.init with tail := 1, slots := [(0, dw0), (1, dw1), (2, dw2)] } }
def taken (dw0 dw1 dw2 : Word) : Taken := { idx := 0, dw0 := dw0, dw1 := dw1, dw2 := dw2 }

/-- One link in a state. -/
def linked (l : Link) : Block := { ready0 with cw := { ready0.cw with links := [(0, l)] } }

/-! Witnesses: the machine and the data ports. -/

theorem witness_StepRunsFrontCommand :
    ({ st ready0 with pending := [.nop, .apply] }).pending = .nop :: [.apply] ∧ (st ready0).pending = [] := by decide

theorem witness_CommandsKeepTheQueue : ∃ t, exec .nop (st ready0) = .next t := ⟨_, rfl⟩

theorem witness_OnlySevenCommandsTouchArrays : (∃ t, exec .heartbeatWrite (st ready0) = .next t) ∧ Instr.touchesArrays .heartbeatWrite = false :=
  ⟨⟨_, rfl⟩, rfl⟩

theorem witness_StepKeepsSafe : (st ready0).Safe ∧ ∃ t, step { st ready0 with pending := [.nop] } = .next t := ⟨rfl, _, rfl⟩

theorem witness_EveryCommandCompletes : Instr.wf build (.pathGrant (.x0e 1)) = true ∧ Instr.wf build (.pathGrant (.x0e 2)) = false := by decide

theorem witness_RecordEffect :
    let r := mkRecord ready0 0x19 none none 0 0 0 0
    ({ Events.init with queue := List.replicate 63 r }).queue.length < 64 ∧ 64 ≤ ({ Events.init with queue := List.replicate 64 r }).queue.length := by
  decide +kernel

theorem witness_PortTakesRequest :
    portOk ready0 m0 = true ∧ canAccept ready0 m0 = true ∧ (outOf ready0 m0).reqFree ≤ ready0.now := by decide +kernel

theorem witness_ContextCheckAborts :
    portOk ready0 m0 = true ∧ canAccept ready0 m0 = true ∧ (outOf ready0 m0).reqFree ≤ ready0.now
      ∧ (ctxOf ready0 4).state ≠ .open ∧ (ctxOf ready0 5).shift ≠ 2
      ∧ (ctxOf (setCtx ready0 5 (fun c => { c with faulted := true })) 5).faulted = true := by decide +kernel

theorem witness_BadBeatIsUnsupported :
    ctxOpen ready0 5 3 = true ∧ beatOk .I0 .wr beat = false ∧ (reservedCode { beat with rsv := some 31 }).isSome = true ∧ portOk ready0 { ch := 0, port := .I0 } = true
      ∧ canAccept ready0 { ch := 0, port := .I0 } = true := by decide +kernel

theorem witness_RequestStarts :
    let c := chanAt ready0 0 (localOf beat.addr)
    let accepted (o : Op) (r : ReqBeat) : Txn := { newTxn ready0 7 (.loc m0) o r with acceptedAt := 9999999 }
    (∀ o ∈ [Op.rd, .tileRd, .tallyAcq], (ready1 (accepted o beat)).txns = [accepted o beat] ∧ (accepted o beat).org = .loc m0
          ∧ (accepted o beat).phase = .waiting .decode ∧ (accepted o beat).acceptedAt < ready0.now ∧ (accepted o beat).wbeats = []
          ∧ (accepted o beat).gotLast = false ∧ (accepted o beat).mismatch = false ∧ (accepted o beat).unlocked = false)
      ∧ ready0.tallies = [] ∧ ready0.power.hs = none ∧ ready0.recov.stopWait = [] ∧ c = 0
      ∧ (chan ready0 c).stopped = false ∧ (chan ready0 c).recov = none ∧ chPower ready0 c = .run
      ∧ ctxOpen ready0 5 3 = true ∧ reservedCode beat = none
      ∧ beatOk .M0 .rd beat = true ∧ beatOk .M0 .fence { beat with len := 0 } = true ∧ beatOk .M0 .tallyAcq { beat with len := 0, aux := 1 } = true
      ∧ beatOk .M0 .tileRd { beat with len := 0 } = true
      ∧ instOf beat.addr = ready0.cw.instNum ∧ localOf beat.addr < Config.sumpBase
      ∧ decodeReq ready0 .rd beat = .seam 0 ∧ decodeReq ready0 .tileRd { beat with len := 0 } = .seam 0
      ∧ decodeReq ready0 .tallyAcq { beat with len := 0, aux := 1 } = .seam 0 := by decide +kernel

/-! Witnesses: responses, paths, banks, check points, the merge buffer, descriptors and tallies. -/

def wbeat : WBeat := { data := 5, be := 255, wpoison := 0, last := true }

theorem witness_WriteBeatJoins :
    let b := ready1 (txn .wr .active)
    portOk b m0 = true ∧ portClk b m0 = true ∧ m0.port ≠ .I0 ∧ (outOf b m0).wdatFree ≤ b.now
      ∧ (portTxns b m0).find? (fun x => x.op.hasData && !x.gotLast) = some (txn .wr .active)
      ∧ (txn .wr .active).mismatch = false ∧ (txn .wr .active).phase = .active ∧ (txn .wr (.waiting .power)).phase = .waiting .power
      ∧ (txn .wr .active).wbeats.length = 0 ∧ beatBreaksRed (txn .wr .active) 0 wbeat = false ∧ beatsDue (txn .wr .active) = some 1 := by decide +kernel

/-- The read of the first line with its line come back. -/
def readDone : Txn :=
  { txn .rd .active with issuedLines := 1, results := [{ no := 0, data := 9, pm := 0, coll := 0, st := .okay, due := 5 }] }

/-- A read of two beats at the 128 B port V0. -/
def v0 : PortId := { ch := 0, port := .V0 }
def readTwo : Txn :=
  { readDone with
    org := .loc v0, req := { beat with len := 255 }, total := 2, issuedLines := 2
    results := readDone.results ++ [{ no := 1, data := 8, pm := 0, coll := 0, st := .okay, due := 5 }] }

def beat1 : RBeat := { id := 1, data := 0, pmask := 0, coll := false, status := .okay, shift := 3, last := true }

theorem witness_ResponsesTransfer :
    let b := ready1 readDone
    let h := setOut b m0 { PortOut.init with rdatHeld := some (7, beat1) }
    let w := ready1 (txn .fence (.answered .okay))
    portOk b m0 = true ∧ portClk b m0 = true ∧ portOk (ready1 readTwo) v0 = true ∧ portClk w m0 = true ∧ (outOf b m0).rdat = none
      ∧ (outOf h m0).rdatHeld = some (7, beat1) ∧ (outOf h m0).rdat = none
      ∧ (outOf b m0).rdatHeld = none ∧ offers b m0 (fun x => x.req.id == 1) = some readDone ∧ (beatOut b readDone).last = true
      ∧ offers (ready1 readTwo) v0 (fun x => x.req.id == 1) = some readTwo ∧ (beatOut (ready1 readTwo) readTwo).last = false
      ∧ (outOf w m0).wrsp = none ∧ (outOf w m0).wrspHeld = none
      ∧ (portTxns w m0).find? (fun x => x.req.id == 1 && (wrspReady w x).isSome) = some (txn .fence (.answered .okay))
      ∧ wrspReady w (txn .fence (.answered .okay)) = some .okay := by decide +kernel

theorem witness_FenceCompletes :
    let f := txn .fence (.waiting .fence)
    let earlier := { txn .rd .active with uid := 6, acceptedAt := 1 }
    let b := ready1 f
    let c := { b with txns := [earlier, f] }
    portOk b m0 = true ∧ (portTxns b m0).find? (fun x => x.op == .fence && x.req.id == 1 && x.phase == .waiting .fence) = some f
      ∧ fenceDone b f = true
      ∧ (portTxns c m0).find? (fun x => x.op == .fence && x.req.id == 1 && x.phase == .waiting .fence) = some f
      ∧ fenceDone c f = false := by decide +kernel

/-- A transfer of one line that reached its path in the cycle before. -/
def xfer (p : PathId) (rest : List PathId) (l : Payload) : Xfer :=
  { serial := 8, path := p, rest := rest, src := 0, org := .loc m0, cls := 0, qos := 0, ctx := 5, readyAt := 9999999, waited := 0, beats := 1,
    reported := false, payload := l }
def onPath (x : Xfer) : Block := { ready1 (txn .rd .active) with xfers := [x] }

theorem witness_PathGrantPasses :
    let l := [lop .read .bank 0]
    let x1 := xfer (.spine 0 0) [] (.lines l)
    let x2 := xfer (.x0e 0) [.brX0 1] (.lines l)
    let x3 := xfer (.brX0 1) [] (.lines l)
    pathOk ready0 (.spine 0 0) = true ∧ pathPick ready0 (.spine 0 0) = none
      ∧ pathPick (onPath x1) (.spine 0 0) = some x1 ∧ pathPick (onPath x2) (.x0e 0) = some x2 ∧ pathOk (onPath x2) (.x0e 0) = true
      ∧ beatPast (onPath x2) (.brX0 0) (lop .read .bank 0) = false
      ∧ (onPath x2).xfers.any (beatMate (.brX0 0) { lop .read .bank 0 with readyAt := 10000002 }) = false
      ∧ pathPick (onPath x3) (.brX0 1) = some x3 ∧ pathOk (onPath x3) (.brX0 1) = true := by decide +kernel

theorem witness_SlotReadsLine :
    let b := withOp .read .bank 10000001 10000000
    b.grants 0 0 1 6 (lop .read .bank 10000000) ∧ ∀ d ∈ opLine (st b).arr b (lop .read .bank 10000000), d.verdict = .clean := by
  unfold Block.grants Block.decides Block.noneHeld; decide +kernel

theorem witness_SlotStoresLine :
    let b := withOp .write .store 10000001 10000000
    b.grants 0 0 1 6 (lop .write .store 10000000) ∧ b.zeroLines.contains (lineKey 0 0 0) = false ∧ (lop .write .store 10000000).old = false := by
  unfold Block.grants Block.decides Block.noneHeld; decide +kernel

theorem witness_SlotStartsTurn :
    let b := withOp (.reduce 0) .bank 10000001 10000000
    b.grants 0 0 1 6 (lop (.reduce 0) .bank 10000000) ∧ ∀ d ∈ opLine (st b).arr b (lop (.reduce 0) .bank 10000000), d.verdict = .clean := by
  unfold Block.grants Block.decides Block.noneHeld; decide +kernel

/-- The fence of context 5 is on, its canary has tripped here in cycle 3, and the seam is watched. -/
def tripped (b : Block) : Block :=
  { setCtx b 5 (fun c => { c with trip := [(3, 0, 0)] }) with
    regs := { b.regs with canaryFlag := 1#64 <<< 5, canaryFence := 1#64 <<< 5 }
    seams := [(0, { seam0 with watch := true, format := 4 })] }

theorem witness_WriteAtCheckPointE :
    let op := lop .write .chkE 0
    let b := withOp .write .chkE 10000000 0
    let m := setChan b 0 (fun c => { c with merge := [entry] })
    b.checks (st b).arr 0 0 op ∧ rejected b op (some (opCluster op)) = false ∧ mergeFind (chan b 0) op.line = none
      ∧ m.checks (st m).arr 0 0 op ∧ rejected m op (some (opCluster op)) = false ∧ mergeFind (chan m 0) op.line = some entry ∧ entry.draining = false
      ∧ (tripped b).checks (st b).arr 0 0 op ∧ rejected (tripped b) op (some (opCluster op)) = true := by
  unfold Block.checks Block.noneHeld; decide +kernel

theorem witness_TurnStoresAtK :
    let op := lop (.reduce 0) .chkK 0
    let b := withOp (.reduce 0) .chkK 10000000 0
    b.checks (st b).arr 0 0 op ∧ rejected b op (some (opCluster op)) = false ∧ b.zeroLines.contains (lineKey 0 0 0) = false := by
  unfold Block.checks Block.noneHeld; decide +kernel

theorem witness_ZeroWriteSetsTag :
    let op := lop .write .chkF 0
    let b := withOp .write .chkF 10000000 0
    b.checks (st b).arr 0 0 op ∧ rejected b op (some (opCluster op)) = false ∧ op.noTag = false
      ∧ b.zeroLines.contains (lineKey 0 0 0) = false := by
  unfold Block.checks Block.noneHeld; decide +kernel

/-- Element 0 of the line is the FP32 number +infinity. -/
def bad : LineOp := { lop .write .chkE 0 with fmt := 4, data := 0x7F800000 }
def badBlock : Block := { withOp .write .chkE 10000000 0 with ops := [bad], seams := [(0, { seam0 with watch := true, format := 4 })] }

theorem witness_CanaryTrips :
    chanOk badBlock 0 = true ∧ failsNow (st badBlock).arr badBlock = [(bad, 0, 0, 2)]
      ∧ bit badBlock.regs.canaryFlag bad.ctx = false ∧ ∀ o ∈ badBlock.ops, o.stage ≠ .line ∧ o.unread = false := by decide +kernel

theorem witness_MergeBufferWorks :
    let op := { lop .write .merge 0 with be := 1 }
    let b := { withOp .write .merge 10000000 0 with ops := [op] }
    let holds (l : List MergeEntry) : Block := setChan b 0 (fun c => { c with merge := l })
    let other := { entry with ctx := 4 }
    let waits (b : Block) : Prop := dueMerges b 0 = [op] ∧ failsNow (st b).arr b = [] ∧ watched b op = false
    let nearly := holds (List.replicate 31 { entry with line := 1, ctx := 5 })
    let aged (n : Nat) : Block := { holds [{ entry with alloc := n }] with ops := [] }
    chanOk b 0 = true ∧ isNarrow op.be op.wp = true ∧ (chan b 0).spare.phase ≠ 1
      ∧ waits b ∧ mergeFind (chan b 0) op.line = none ∧ (chan b 0).merge.length = 0
      ∧ waits nearly ∧ mergeFind (chan nearly 0) op.line = none ∧ (chan nearly 0).merge.length = 31
      ∧ waits (holds [entry]) ∧ mergeFind (chan (holds [entry]) 0) op.line = some entry ∧ entry.ctx = op.ctx ∧ drainsNow (chan (holds [entry]) 0) (mergeInto op entry) = false
      ∧ (∀ m ∈ (chan (holds [entry]) 0).merge, m.serial = entry.serial → m = entry)
      ∧ waits (holds [other]) ∧ mergeFind (chan (holds [other]) 0) op.line = some other ∧ other.ctx ≠ op.ctx
      ∧ (∀ n ∈ [9999936, 9999937], (chan (aged n) 0).merge[0]? = some { entry with alloc := n } ∧ { entry with alloc := n }.draining = false)
      ∧ (aged 9999937).now < 9999937 + 64 ∧ 9999936 + 64 ≤ (aged 9999936).now ∧ failsNow (st (aged 9999936)).arr (aged 9999936) = []
      ∧ dueMerges (aged 9999936) 0 = [] ∧ (∀ m ∈ (chan (aged 9999936) 0).merge, m.serial = 6 → m = { entry with alloc := 9999936 })
      ∧ tagSeen (st b).arr (aged 9999936) 0 0 0 = false ∧ (aged 9999936).zeroLines.contains (lineKey 0 0 0) = false := by decide +kernel

/-- A fetched descriptor in lane 0 or the gather unit. -/
def descop (lane : Nat) (d : BitVec 512) (bad : Bool) : DescOp :=
  { uid := 7, ch := 0, lane := lane, stage := .ready, desc := d, bad := bad, readyAt := 0, snap := 0, plan := [], next := 0, index := [],
    indexNext := 0, rowNext := 0, rowLine := 0, oor := false }
def inLane (o : Op) (d : DescOp) : Block := { ready1 (txn o .active) with descs := [d] }

/-- A tile of 32 elements of FP32 at address `a`. -/
def tileDesc (a : Nat) : BitVec 512 := BitVec.ofNat 512 (a + 4 * 2 ^ 48 + 4 * 2 ^ 56 + 31 * 2 ^ 128)

theorem witness_DescriptorsRun :
    let good := descop 0 (tileDesc 0) false
    let off := descop 0 (tileDesc 0x8000000) false
    let wrong := descop 0 0 true
    let x := txn .tileRd .active
    let v (d : DescOp) : Verdict138 := tileVerdict (inLane .tileRd d) x d (if tileFieldsOk .tileRd 0 d.desc then tilePlan .tileRd 256 (tileOf d.desc) else [])
    let g := { descop 8 0 false with stage := .expanding, index := [{ no := 0, data := 0, pm := 0, due := 0 }] }
    chanOk (inLane .tileRd good) 0 = true
      ∧ (readyDescs (inLane .tileRd good) 0)[0]? = some good ∧ txnOf (inLane .tileRd good) 7 = some x ∧ v good = .go
      ∧ (readyDescs (inLane .tileRd off) 0)[0]? = some off ∧ v off = .held
      ∧ (readyDescs (inLane .tileRd wrong) 0)[0]? = some wrong ∧ v wrong = .malformed
      ∧ (indexDescs (inLane .gather g) 0)[0]? = some g := by decide +kernel

/-- Tally entry 3: lines 0 and 1, lease of 100 µs from tick 0. -/
def tally (s : TState) (granting : Bool) : Tally :=
  { idx := 3, state := s, ctx := 5, shift := 3, line := 0, span := 2, lease := 100, leaseUs := 0, granting := granting, uid := 7, ch := 0, arrival := 1,
    fromUs := 0, waitReported := false }
def tallied (l : List Tally) : Block := { ready1 (txn .tallyAcq .active) with tallies := l }

theorem witness_TallyTimersRun :
    let g := tally .held true
    let b := tallied [g]
    let busy := { b with ops := [{ lop .write .store 0 with ctx := 4 }] }
    let h := tally .held false
    let late := { h with leaseUs := usNow b }
    let k := { tally .held false with idx := 1, ctx := 4 }
    let w := { tally .waiting false with uid := 7 }
    let c := tallied [k, w]
    tallyAt b 3 = some g ∧ g.granting = true ∧ txnOf b g.uid = some (txn .tallyAcq .active) ∧ spanBusy b g = false
      ∧ tallyAt busy 3 = some g ∧ spanBusy busy g = true
      ∧ tallyAt (tallied [late]) 3 = some late ∧ usDue b late.leaseUs late.lease = false
      ∧ tallyAt (tallied [h]) 3 = some h ∧ usDue b h.leaseUs h.lease = true ∧ (∀ w ∈ (tallied [h]).tallies, w.state = .waiting → w.ch ≠ h.ch)
      ∧ tallyAt c 3 = some w ∧ blocker c (.loc m0) 5 0 2 = some k ∧ k.idx ≠ 3
      ∧ (∃ r : Word, fld ({ c.regs with tallyCtl := r }).tallyCtl 0 16 = 0)
      ∧ fld c.regs.tallyCtl 0 16 = 1000 ∧ usDue c w.fromUs 1000 = true ∧ w.waitReported = false
      ∧ usDue c (usNow c) 1000 = false := by
  refine ⟨?_, ?_, ?_, ?_, ?_, ?_, ?_, ?_, ?_, ?_, ?_, ?_, ?_, ?_, ⟨0, ?_⟩, ?_, ?_, ?_, ?_⟩ <;> decide +kernel

/-! Witnesses: arbitration, integrity and the sump. -/

def arbIs (b : Block) (f : Arb → Arb) : Block := { b with arb := f b.arb }

theorem witness_WindowsTurnOver :
    let turn (n : Nat) := arbIs ready0 (fun a => { a with bankCycles := n })
    let rot (n : Nat) := arbIs ready0 (fun a => { a with rotation := n })
    let conf (n : Nat) := arbIs ready0 (fun a => { a with bankCycles := n })
    let ce (n : Nat) := arbIs { ready0 with now := n * Config.refCycles } (fun a => { a with ceLen := 1 })
    ((turn 256).arb.fresh = false ∧ (turn 256).arb.rotation = 0 ∧ 1 * 256 ≤ (turn 256).arb.bankCycles ∧ (turn 255).arb.bankCycles < 1 * 256)
      ∧ (fld (rot 4).regs.bgBudgetA 56 8 + 1 = 4 ∧ (rot 4).arb.budgetRot + 4 ≤ (rot 4).arb.rotation ∧ (rot 3).arb.rotation < (rot 3).arb.budgetRot + 4)
      ∧ ((conf 125000).arb.confFrom + (conf 125000).arb.confLen ≤ (conf 125000).arb.bankCycles
          ∧ (conf 124999).arb.bankCycles < (conf 124999).arb.confFrom + (conf 124999).arb.confLen)
      ∧ (isReady (ce 100000000) = true
          ∧ (ce 100000000).arb.ceFrom + (ce 100000000).arb.ceLen * 100000000 ≤ (ce 100000000).now / Config.refCycles
          ∧ (ce 99999999).now / Config.refCycles < (ce 99999999).arb.ceFrom + (ce 99999999).arb.ceLen * 100000000) := by decide +kernel

/-- The read of a line has waited `n` cycles for its bank. -/
def waiting (n : Nat) : LineOp := { lop .read .bank (10000000 - n) with cls := 1 }
def starving (n : Nat) : Block := { withOp .read .bank 10000000 0 with ops := [waiting n] }

theorem witness_ArbitrationReports :
    let storm (n : Nat) : Block := { setChan ready0 0 (fun c => { c with confWin := [(0, n)] }) with regs := { ready0.regs with conflictCtl := 0x0000F42401000000#64 } }
    let due (b : Block) : Bool :=
      bit b.regs.conflictCtl 24 && decide (max 1 (fld b.regs.conflictCtl 32 20) ≤ tget 0 (chan b 0).confWin 0) && !(chan b 0).confRep.contains 0
    let stepped (n : Nat) : Block := { arbIs ready0 (fun a => { a with stepFrom := some (0, 77) }) with
      regs := { ready0.regs with stepCtl := 10 }, now := n * Config.usCycles }
    chanOk (storm 62500) 0 = true ∧ due (storm 62500) = true ∧ due (storm 62499) = false
      ∧ (stepped 11).arb.stepFrom = some (0, 77) ∧ fld (stepped 11).regs.stepCtl 0 32 = 10 ∧ usDue (stepped 11) 0 10 = true
      ∧ usDue (stepped 10) 0 10 = false ∧ (stepped 11).arb.stepReported = false
      ∧ fld ready0.regs.stepCtl 0 32 = 0
      ∧ starveForces (starving 0) = false ∧ starveLimit (starving 0) = 1024
      ∧ (bankWaiters (starving 1024) 0)[0]? = some (waiting 1024) ∧ (waiting 1024).reported = false ∧ opOwned (starving 1024) (waiting 1024) = false
      ∧ 1024 ≤ opWait (starving 1024) (waiting 1024) ∧ (chan (starving 1024) 0).starveRep.contains 0 = false
      ∧ (bankWaiters (starving 1023) 0)[0]? = some (waiting 1023) ∧ opWait (starving 1023) (waiting 1023) < 1024 := by decide +kernel

theorem witness_RostersAreKept :
    let bad := setChan ready0 0 (fun c => { c with rosterBad := [slotKey 0 0 255] })
    let word := (List.range 8).map (fun i => slotKey 0 0 (255 / 8 * 8 + i))
    let good (b : Block) (ok : Bool) : Bool := ok && (word.map (fun w => (w, tget 0x80 b.arb.copy (0 * 8192 + w)))).all (fun v => parOk v.2)
    let link (n width : Nat) (d : List (Nat × Nat)) : Block :=
      { setLink (setChan ready0 0 (fun c => { c with roster := (List.range n).map (fun i => (slotKey 0 0 i, 4)) })) 0
          (fun l => { l with state := .active, width := width }) with
        arb := { ready0.arb with degraded := d } }
    chanOk bad 0 = true ∧ (chan bad 0).rosterBad.contains (slotKey 0 0 255) = true ∧ (chan bad 0).rosterBad.contains (slotKey 0 0 254) = false
      ∧ good bad true = true ∧ good bad false = false ∧ bad.arb.active = 0
      ∧ peerOk (link 52 1 []) 0 = true ∧ bit (link 52 1 []).arb.admitted 0 = true ∧ rosterPeer (link 52 1 []) 0 0 = 52
      ∧ (∀ q < 4, q ≠ 0 → rosterPeer (link 52 1 []) q 0 = 0)
      ∧ ¬ rosterPeer (link 52 1 []) 0 0 ≤ peerSlots (linkWidth (linkOf (link 52 1 []) 0)) ∧ (link 52 1 []).arb.degraded.contains (0, 0) = false
      ∧ rosterPeer (link 51 1 [(0, 0)]) 0 0 ≤ peerSlots (linkWidth (linkOf (link 51 1 [(0, 0)]) 0)) ∧ (link 51 1 [(0, 0)]).arb.degraded.contains (0, 0) = true
      ∧ rosterPeer (link 51 1 []) 0 0 ≤ peerSlots (linkWidth (linkOf (link 51 1 []) 0)) := by decide +kernel

theorem witness_DredgeSteps :
    let at_ (d : Dredge) : Block := setChan ready0 0 (fun c => { c with dredge := d })
    let fresh := Channel.init.dredge
    let run : Dredge := { fresh with running := true }
    chanOk ready0 0 = true ∧ banksRun ready0 0 = true ∧ (chan ready0 0).tagFix = [] ∧ (chan ready0 0).dredge.running = false
      ∧ (chan ready0 0).dredge.passStart ≤ usNow ready0 ∧ usNow ready0 < (chan (at_ { fresh with passStart := 4001 }) 0).dredge.passStart
      ∧ (tagDecode (st ready0).arr 0 0).verdict = .clean
      ∧ (chan (at_ { run with reads := [65] }) 0).dredge.reads ≠ [] ∧ (chan (at_ { run with turns := [0] }) 0).dredge.turns ≠ []
      ∧ run.row + 1 < linesPerBank build ∧ (tagDecode (st ready0).arr 0 1).verdict = .clean
      ∧ (let b := { at_ run with now := 293000 * Config.usCycles }
         (0 + 1) * dredgeInterval b ≤ (usNow b - 0) * linesPerBank build) := by decide +kernel

theorem witness_SparingMovesBank :
    let at_ (n : Nat) (s : Sparing → Sparing) : Block :=
      setChan { ready0 with now := n * Config.usCycles } 0 (fun c => { c with spare := s { c.spare with phase := 1, bank := 9, onto := 64 } })
    let rows := linesPerBank build
    let q := at_ 0 id
    let copy (r : Nat) := at_ 0 (fun s => { s with phase := 2, row := r })
    let verify (r : Nat) := at_ 0 (fun s => { s with phase := 3, row := r })
    let failed := at_ 0 (fun s => { s with phase := 3, bad := true })
    let full := { ready0 with ops := [lop (.reduce 0) .chkK 0] }
    let one : Memory := writeWord [] (lineKey 0 9 (rows - 1)) (storeWord false 5)
    let two : Memory := writeWord one (lineKey 0 64 (rows - 1)) (storeWord false 5)
    let clean (m : Memory) (b : Block) (bank : Nat) : Prop := ∀ d ∈ rawLine m (storeKey b 0 bank (rows - 1)), d.verdict = .clean
    chanOk q 0 = true
      ∧ ((chan q 0).spare.phase = 1 ∧ (chan q 0).merge = [] ∧ (chan q 0).repair = [] ∧ bankBusy q 0 9 = false)
      ∧ (chan ready0 0).spare.phase ≠ 1 ∧ bankBusy full 0 0 = true
      ∧ (∀ b ∈ [copy (rows - 1), verify (rows - 1)], b.decides 0 9 0 .spareRow ∧ (chan b 0).spare.row < rows ∧ (chan b 0).spare.bad = false
          ∧ (chan b 0).spare.redo = false ∧ spareSource b 0 = 9 ∧ clean one b 9)
      ∧ clean two (verify (rows - 1)) 64 ∧ clean one (verify (rows - 1)) 64
      ∧ rowDiffers (rawLine two (storeKey (verify 0) 0 9 (rows - 1))) (rawLine two (storeKey (verify 0) 0 64 (rows - 1))) = false
      ∧ rowDiffers (rawLine one (storeKey (verify 0) 0 9 (rows - 1))) (rawLine one (storeKey (verify 0) 0 64 (rows - 1))) = true
      ∧ ((chan (copy rows) 0).spare.phase = 2 ∧ rows ≤ (chan (copy rows) 0).spare.row ∧ (chan (copy (rows - 1)) 0).spare.row < rows)
      ∧ ((chan failed 0).spare.phase = 3 ∧ (chan failed 0).spare.bad = true ∧ freeSpare (failSpare 64 (chan failed 0).spare) = some 65)
      ∧ ((chan (verify rows) 0).spare.phase = 3 ∧ (chan (verify rows) 0).spare.bad = false ∧ rows ≤ (chan (verify rows) 0).spare.row
          ∧ (chan (verify rows) 0).spare.waiting = none)
      ∧ usDue (at_ 401 id) 0 400 = true ∧ (chan (at_ 401 id) 0).spare.waiting = none ∧ usDue (at_ 400 id) 0 400 = false
      ∧ (chan ready0 0).spare.phase = 0 := by
  unfold Block.decides Block.noneHeld; decide +kernel

/-- A request of request 7 on S0, in a seam in the sump. -/
def s0 (write : Bool) : S0Req :=
  { id := 3, write := write, addr := 0, len := 127, cls := 0, qos := 0, ctx := 5, shift := 3, who := .data 7, data := [], beats := 0, err := false,
    since := 0 }
def sumped (o : Op) (fill : Nat) (f : Sump → Sump) : Block :=
  { ready1 (txn o .active) with seams := [(0, { seam0 with sump := true, sumpInvalid := true, fill := fill })], sump := f Sump.init }

theorem witness_S0RequestTransfers :
    let rd (fill : Nat) := sumped .rd fill (fun s => { s with queue := [s0 false] })
    let x := txn .rd .active
    let w := { txn .wr .active with wbeats := [{ data := 5, be := BitVec.allOnes 256, wpoison := 0, last := true }] }
    let wr (fill : Nat) := { sumped .wr fill (fun s => { s with queue := [s0 true] }) with txns := [w] }
    let own := { sumped .rd 0 (fun s => { s with queue := [{ s0 true with who := .doorbell }] }) with txns := [] }
    let busy := { rd 128 with recov := { Recovery.init with draining := some 0 } }
    let free (b : Block) (r : S0Req) : Prop :=
      b.sump.queue = [r] ∧ r.since ≤ b.now ∧ b.bring.inReset = false ∧ b.recov.draining = none ∧ b.power.inst = .on ∧ b.sump.out.length < maxOut b
        ∧ (r.write = true ∨ s0Reserved b + r.len + 1 ≤ 262144)
    (free (rd 128) (s0 false) ∧ (s0 false).who = .data 7 ∧ txnOf (rd 128) 7 = some x ∧ beyondFill (rd 128) x = false ∧ (s0 false).write = false)
      ∧ (free (rd 127) (s0 false) ∧ beyondFill (rd 127) x = true)
      ∧ (free (wr 0) (s0 true) ∧ txnOf (wr 0) 7 = some w ∧ beyondFill (wr 0) w = false ∧ (s0 true).write = true
          ∧ (seamOf (wr 0) (w.seam.getD 0)).sumpInvalid = true ∧ reqLo w ≤ 0 ∧ (∀ k ≤ 127, byteEnabled w k = true) ∧ reqHi w = 127)
      ∧ (seamOf (wr 128) (w.seam.getD 0)).fill = 128
      ∧ (free own { s0 true with who := .doorbell })
      ∧ (free (wr 0) (s0 true) ∧ txnOf { wr 0 with txns := [] } 7 = none)
      ∧ s0Free busy (s0 false) = false ∧ busy.sump.queue = [s0 false] := by decide +kernel

theorem witness_S0ResponsesReturn :
    let rd := sumped .rd 0 (fun s => { s with out := [s0 false] })
    let wr := sumped .wr 0 (fun s => { s with out := [s0 true] })
    staleShift rd 5 3 = false ∧ (s0 false).who = .data 7 ∧ rd.sump.out.find? (fun r => !r.write && r.id == 3) = some (s0 false)
      ∧ s0Beats (s0 false) = 1 ∧ (s0 false).beats < s0Beats (s0 false)
      ∧ wr.sump.out.find? (fun r => r.write && r.id == 3 && (match r.who with | .data _ => true | _ => false)) = some (s0 true)
      ∧ rd.sump.out.find? (fun r => !r.write && r.id == 4) = none ∧ rd.bring.inReset = false := by decide +kernel

/-! Witnesses: resets, boot, life cycle and power. -/

def bringIs (b : Block) (f : Bring → Bring) : Block := { b with bring := f b.bring }
def recovIs (b : Block) (f : Recovery → Recovery) : Block := { b with recov := f b.recov }
def powerIs (b : Block) (f : Power → Power) : Block := { b with power := f b.power }
def safetyIs (b : Block) (f : Safety → Safety) : Block := { b with safety := f b.safety }

theorem witness_ResetsReset :
    let off := powerIs ready0 (fun p => { p with inst := .off })
    let low := bringIs ready0 (fun r => { r with pins := 3 })
    let aon := bringIs ready0 (fun r => { r with pins := 4 })
    let drain := recovIs ready0 (fun r => { r with draining := some 0 })
    let out (n : Nat) : Block := { drain with now := n * Config.usCycles, sump := { Sump.init with out := [s0 true] } }
    let none_ := { drain with regs := { drain.regs with sumpCtl := 0 }, sump := (out 0).sump }
    aon.bring.pins &&& 4#3 ≠ 0 ∧ off.power.inst = .off ∧ ready0.power.inst ≠ .off ∧ ready0.bring.inReset = false
      ∧ ready0.bring.pins &&& ~~~2#3 = 0 ∧ ready0.safety.clkHeld = false ∧ low.bring.pins &&& ~~~2#3 ≠ 0
      ∧ drain.recov.draining = some 0 ∧ drain.bring.inReset = false ∧ drain.sump.out = [] ∧ drain.bring.pins = 0
      ∧ drainLimit none_ = 0 ∧ none_.sump.out ≠ []
      ∧ (out 101).sump.out ≠ [] ∧ usDue (out 101) 0 (drainLimit (out 101)) = true
      ∧ (out 100).sump.out ≠ [] ∧ drainLimit (out 100) ≠ 0 ∧ usDue (out 100) 0 (drainLimit (out 100)) = false
      ∧ (out 100).recov.draining = some 0 := by decide +kernel

def bootInput (ok : Bool) : BootInput :=
  { sfdp := { signature := true, erase4k := true, log2Size := 22, native4 := false, entry4 := 1, quadEnable := 0, readQuad := false, read8d := false,
              xspiKhz := none, programUs := 100, eraseMs := 100 },
    image := [], faults := [], unitsOk := ok }

theorem witness_BootClearsArrays :
    let worker := { State.reset.blk with cw := Causeway.init 1 false }
    bootable ready0 = false ∧ bootable State.reset.blk = true ∧ (bootInput true).faults = [] ∧ (bootInput true).unitsOk = true
      ∧ (bootInput false).faults = [] ∧ (bootInput false).unitsOk = false
      ∧ isPithead State.reset.blk = true ∧ State.reset.blk.bring.coreLost = true
      ∧ isPithead worker = false ∧ worker.bring.coreLost = true ∧ bootable worker = true := by decide +kernel

theorem witness_ReadyOpensPorts :
    let booted := bringIs ready0 (fun r => { r with phase := 4 })
    let two := arbIs booted (fun a => { a with admitted := 6 })
    let retrain := { recovIs booted (fun r => { r with retraining := true, resetUs := 0 }) with
      now := 2000001 * Config.usCycles, sump := { Sump.init with out := [{ s0 false with who := .probe }] } }
    ready0.bring.phase ≠ 4 ∧ (bringIs booted (fun r => { r with inReset := true })).bring.inReset = true
      ∧ booted.bring.phase = 4 ∧ booted.bring.inReset = false ∧ booted.recov.retrain = false
      ∧ (bit two.arb.admitted 1 = true ∧ ∀ q < 1, bit two.arb.admitted q = false) ∧ (arbIs booted (fun a => { a with admitted := 0 })).arb.admitted = 0
      ∧ booted.recov.retraining = false ∧ retrain.recov.retraining = true
      ∧ (retrain.sump.queue ++ retrain.sump.out).any (fun r => decide (r.who = .probe)) = true
      ∧ usDue retrain retrain.recov.resetUs 2000000 = true ∧ hasDumpArea retrain = false := by decide +kernel

/-- A line of the channel sequencer that waits at its bank, in a block that wipes seam 0, and in one that clears it. -/
def secureSeam : Block := { ready0 with seams := [(0, { seam0 with secure := true })] }
def wiping0 : Block := bringIs secureSeam (fun r => { r with wiping := true, wipeSeams := [0] })
def seqLine (k : LKind) : LineOp := { seqOp ready0 k 0 0 0 0 0 with readyAt := 0 }
def clears (k : LKind) (b : Block) : Block := { b with ops := [seqLine k], now := 10000001 }
def reseed0 : Block := { ready0 with seams := [(0, { seam0 with clearing := true })] }
theorem clears_grant : (clears .wipe wiping0).grants 0 0 1 3 (seqLine .wipe) ∧ (clears .clear reseed0).grants 0 0 1 6 (seqLine .clear) := by
  unfold Block.grants Block.decides Block.noneHeld; decide +kernel

theorem witness_TamperWipesSecureSeams :
    let low (n : Nat) : Block := bringIs { ready0 with now := n * Config.usCycles } (fun r => { r with presenceLow := true })
    let tampered := bringIs ready0 (fun r => { r with tamper := true })
    let secure := secureSeam
    let wiping := wiping0
    ((clears .wipe wiping0).grants 0 0 1 3 (seqLine .wipe) ∧ (clears .clear reseed0).grants 0 0 1 6 (seqLine .clear)) ∧ ready0.bring.presenceLow = false
      ∧ holdNow (low 99999) < 100 ∧ 100 ≤ holdNow (low 100000)
      ∧ tampered.bring.tamper = true
      ∧ (secure.bring.tamper = false ∧ isReady secure = true ∧ secure.power.inst = .on ∧ secure.safety.clkHeld = false ∧ secure.bring.wiping = false
          ∧ secure.power.hs = none ∧ coreState secure ≤ 1 ∧ (0, { seam0 with secure := true }) ∈ secure.seams)
      ∧ secure.bring.wiping = false ∧ (clears .wipe wiping).bring.wipeSeams.all (seamZeroed (clears .wipe wiping)) = false
      ∧ (lineIn wiping (seamOf wiping 0) 0 0 1).isSome = true ∧ (lineIn reseed0 (seamOf reseed0 0) 0 0 1).isSome = true
      ∧ (wiping.bring.wipeSeams.all (seamZeroed wiping) = true ∧ wiping.bring.wiping = true ∧ wipeReady wiping = true ∧ ∀ n ∈ wiping.bring.wipeSeams, (seamOf wiping n).zmap = false) :=
  ⟨clears_grant, by decide +kernel⟩

theorem witness_NvmSequencesRun :
    let due := bringIs ready0 (fun r => { r with nvmDensity := 25, dumpArea := true, dumpPending := true, dumpSlots := 7, holdupMin := 40 })
    let deferred (n : Nat) := bringIs { due with now := n * Config.usCycles } (fun r => { r with dumpDeferred := some 0 })
    let seq (k : Nat × Option Nat) := bringIs ready0 (fun r => { r with nvmSeq := some k })
    let wait (n : Nat) := recovIs { ready0 with now := n * Config.usCycles } (fun r => { r with dumpWait := some 0 })
    (dumpDue due = true ∧ hasDumpArea due = true ∧ emptySlot due = some 3 ∧ due.bring.dumpDeferred = none ∧ due.bring.holdupMin = (40#8).toNat
        ∧ (39#8).toNat < due.bring.holdupMin)
      ∧ (dumpDue (deferred 1001) = true ∧ (deferred 1001).bring.dumpDeferred = some 0 ∧ usDue (deferred 1001) 0 1000 = true)
      ∧ ready0.bring.dumpPending = false ∧ ready0.bring.nvmSeq = none
      ∧ (seq (0, some 4)).bring.nvmSeq = some (0, some 4) ∧ (seq (1, some 4)).bring.nvmSeq = some (1, some 4)
      ∧ ((seq (2, none)).bring.nvmSeq = some (2, none) ∧ (seq (2, none)).recov.dumpWait = none ∧ emptySlot (seq (2, none)) = some 0)
      ∧ (wait 100001).recov.dumpWait = some 0 ∧ usDue (wait 100001) 0 100000 = true ∧ usDue (wait 100000) 0 100000 = false := by
  decide +kernel

/-- A handshake of the instance or of channel 0, at tick 0. -/
def hs (target : Nat) (mask : List Nat) (p : HsPhase) (granted : Bool) : Handshake :=
  { target := target, mask := mask, auto := false, cmd := none, phase := p, granted := granted, usedUs := 0, fromUs := 0, drainUs := 0 }
def shaking (h : Handshake) (n : Nat) : Block := { powerIs ready0 (fun p => { p with hs := some h }) with now := n * Config.usCycles }

theorem witness_PowerHandshakeRuns :
    let policy (r : Word) (n : Nat) : Block := { ready0 with now := n, regs := { ready0.regs with pwrPolicy := r } }
    let idle (r : Word) (n : Nat) : Block := powerIs (policy r (n * Config.usCycles)) (fun p => { p with ch := [(0, .idle)] })
    let ask (t : Nat) (g : Bool) := hs t [0, 1] .ask g
    let tally := { shaking (hs 1 [0] .ask false) 1001 with tallies := [tally .held false] }
    (chanOk ready0 0 = true ∧ autoReady (policy 10 10) 0 = true ∧ chPower (policy 10 10) 0 = .run ∧ fld (10 : Word) 0 16 = 10
        ∧ (chan (policy 10 10) 0).idleFrom + 10 ≤ 10 ∧ noWork (policy 10 10) 0 = true ∧ rosterOwned (policy 10 10) 0 = false)
      ∧ fld ready0.regs.pwrPolicy 0 16 = 0 ∧ (policy 10 9).now < (chan (policy 10 9) 0).idleFrom + 10
      ∧ noWork { policy 10 10 with txns := [txn .rd .active], ops := [lop .read .bank 0], tallies := tally.tallies } 0 = false
      ∧ (chPower (idle (10 <<< 16) 11) 0 = .idle ∧ fld ((10 <<< 16) : Word) 16 32 = 10 ∧ usDue (idle (10 <<< 16) 11) (tget 0 (idle (10 <<< 16) 11).power.idleUs 0) 10 = true
          ∧ noWork (idle (10 <<< 16) 11) 0 = true ∧ autoReady (idle (10 <<< 16) 11) 0 = true)
      ∧ chPower ready0 0 ≠ .idle ∧ fld ready0.regs.pwrPolicy 16 32 = 0
      ∧ (∀ t < 5, ∀ g, (shaking (ask t g) 4).power.hs = some (ask t g) ∧ allAgree (shaking (ask t g) 4) (ask t g) = true)
      ∧ ((shaking (ask 4 true) 4).now % 4 = 0 ∧ sumpQuiet (shaking (ask 4 true) 4) = true ∧ (shaking (ask 4 true) 4).bring.wiping = false)
      ∧ (hs 4 [0] .drain true).phase ≠ .ask
      ∧ (tally.power.hs = some (hs 1 [0] .ask false) ∧ usDue tally 0 (max 1 (fld tally.regs.pwrPolicy 48 12) - 0) = true
          ∧ hsReason tally (hs 1 [0] .ask false) = some (1, 0))
      ∧ ((hs 4 [0] .offAck false).phase = .offAck ∧ usDue (shaking (hs 4 [0] .offAck false) 20001) 0 20000 = true)
      ∧ (hs 4 [0] .ask false).phase ≠ .offAck
      ∧ (shaking (hs 2 [0] .entering false) 4).power.hs = some (hs 2 [0] .entering false) ∧ (shaking (hs 2 [0] .entering false) 4).power.inst = .on := by
  decide +kernel

theorem witness_OffIsEntered :
    let drain := hs 4 [0, 1] .drain true
    let msg : Msg := { kind := .control, hdr := 0, be := none, data := none, since := 0, inp := 0, seq := 0, chunk := 0 }
    let empty (b : Block) : Bool := (List.range b.build.peers).all (fun n => portEmpty (linkOf b n)) && b.cw.held.isEmpty
    let full (n : Nat) : Block := setLink (shaking drain n) 1 (fun l => { l with tx := [msg] })
    (shaking drain 4).power.hs = some drain ∧ drain.target = 4 ∧ empty (shaking drain 4) = true
      ∧ empty (full 1001) = false ∧ usDue (full 1001) drain.drainUs 1000 = true ∧ usDue (full 1000) drain.drainUs 1000 = false
      ∧ (full 1000).power.hs = some drain
      ∧ (shaking (hs 4 [0, 1] .entering true) 4).power.wakingInst = none := by decide +kernel

theorem witness_WakesRunChannels :
    let wakes := powerIs ready0 (fun p => { p with waking := [(0, 2)], ch := [(0, .sleep)] })
    let inst := powerIs ready0 (fun p => { p with wakingInst := some 1 })
    (chanOk wakes 0 = true ∧ wakes.power.waking.find? (fun e => e.1 == 0) = some (0, 2) ∧ committed wakes 0 = false ∧ wakes.power.inst = .on
        ∧ chPower wakes 0 ≠ .run)
      ∧ (inst.power.wakingInst = some 1 ∧ inst.power.inst = .on ∧ inst.power.hs = none)
      ∧ ready0.power.wakingInst = none
      ∧ (∃ s : IState, s = .deep ∧ (powerIs ready0 (fun p => { p with inst := s })).power.inst = .deep)
      ∧ (powerIs ready0 (fun p => { p with inst := .off })).power.inst = .off :=
  ⟨by decide +kernel, by decide +kernel, by decide +kernel, ⟨_, rfl, rfl⟩, by decide +kernel⟩

theorem witness_SafetyReacts :
    let run (n : Nat) : Block := { ready0 with now := n * Config.usCycles }
    let halted := { ready0 with dbg := { Debug.init with halt := true }, bring := { ready0.bring with unlocked := true } }
    let held (g : Nat) := safetyIs (run 1000001) (fun s => { s with clkHeld := true, good := g, faultPwr := true })
    coresClocked ready0 = true ∧ coresHalted halted = true ∧ coresHalted ready0 = false
      ∧ (safetyIs ready0 (fun s => { s with lockstepReact := true })).safety.lockstepReact = true ∧ ready0.safety.lockstepReact = false
      ∧ coresClocked (powerIs ready0 (fun p => { p with inst := .off })) = false
      ∧ beatArmed (run 100000) = true ∧ usDue (run 100000) 0 (ready0.safety.heartbeatMs * 1000) = false
      ∧ beatArmed (run 100001) = true ∧ usDue (run 100001) 0 (ready0.safety.heartbeatMs * 1000) = true ∧ beatArmed State.reset.blk = false
      ∧ isReady ready0 = true ∧ ready0.power.inst = .on ∧ ready0.safety.clkHeld = false
      ∧ windowBad ready0 0 = true ∧ (∃ n, windowBad ready0 n = false ∧ windowBad (held 98) n = false)
      ∧ (held 98).safety.good + 1 < 100 ∧ (held 99).safety.good = 99 ∧ (held 99).bring.pins = 0
      ∧ usDue (held 0) (held 0).safety.faultUs 1000000 = true
      ∧ (safetyIs (held 0) (fun s => { s with faultPwr := false })).safety.faultPwr = false
      ∧ usDue (run 1000000) 0 1000000 = false
      ∧ usDue (run 100000) 0 (ready0.safety.scrubMs * 1000) = false ∧ usDue (run 100001) 0 (ready0.safety.scrubMs * 1000) = true
      ∧ coresHalted (run 100001) = false ∧ (run 100001).cmdq.running = [] ∧ isReady (run 100001) = true ∧ coresClocked (run 100001) = true := by
  refine ⟨?_, ?_, ?_, ?_, ?_, ?_, ?_, ?_, ?_, ?_, ?_, ?_, ?_, ?_, ?_, ⟨600, ?_⟩, ?_, ?_, ?_, ?_, ?_, ?_, ?_, ?_, ?_, ?_, ?_, ?_⟩ <;> decide +kernel

/-! Witnesses: recovery, contexts, events, time and observation. -/

/-- A recovery of channel 0 in a phase, with two suspects. -/
def rec (p : RPhase) : Recov :=
  { phase := p, startAt := 0, fromUs := 0, grants0 := 0, replay := true, abort := false, cmd := none, ctx := 5, suspects := [5, 6], left := [5, 6],
    guilty := [], last := [], removed := [], replayUs := 0, late := false }
def inRecov (r : Recov) (n : Nat) : Block := setChan { withOp .read .bank n 0 with now := n } 0 (fun c => { c with recov := some r })
def regsIs (b : Block) (f : Regs → Regs) : Block := { b with regs := f b.regs }

theorem witness_ChannelRecoveryRuns :
    let hung (age : Nat) : Txn := { txn .rd (.decodeHeld 2) with age := age }
    let due (x : Txn) : Option Txn := (portTxns (ready1 x) m0).find? (fun y => y.req.id == 1 && !y.hung && decide (hangLimit (ready1 x) ≤ y.age))
    let us (n : Nat) : Nat := n * Config.usCycles
    let quiet (b : Block) : Block := regsIs b (fun r => { r with recovCtl := 0 })
    let check (n : Nat) : Block := inRecov (rec .check) (us n)
    let found := { rec .replay with last := [(6, 7)] }
    let reading := { inRecov (rec .replay) 4 with ops := [{ lop .replay .bank 0 with no := 0 }] }
    (portOk ready0 m0 = true ∧ due (hung 2000) = some (hung 2000) ∧ (hung 2000).phase = .decodeHeld 2 ∧ (ctxOf (ready1 (hung 2000)) 5).state = .open)
      ∧ due (hung 1999) = none
      ∧ (chanOk ready0 0 = true ∧ (chan (check 2) 0).recov = some (rec .check) ∧ usDue (check 2) (rec .check).fromUs 2 = false)
      ∧ (usDue (check 3) (rec .check).fromUs 2 = true ∧ (chan (check 3) 0).grants = (rec .check).grants0
          ∧ bit (check 3).regs.recovCtl 1 = true ∧ (check 3).power.hs = none
          ∧ (bankWaiters (check 3) 0).any (fun o => decide (o.readyAt ≤ (rec .check).startAt)) = true)
      ∧ ((rec .reset).replay = true ∧ (rec .reset).suspects ≠ [] ∧ (chan (inRecov (rec .reset) 4) 0).spare.phase = 0)
      ∧ ((chan (inRecov (rec .replay) 4) 0).recov = some (rec .replay) ∧ (rec .replay).left = [5, 6]
          ∧ (rec .replay).last.find? (fun e => e.1 == 6) = none ∧ (inRecov (rec .replay) 4).ops.any (fun o => o.kind == .replay && o.no == 0) = false
          ∧ found.last.find? (fun e => e.1 == 6) = some (6, 7) ∧ (txnOf (inRecov found 4) 7).isSome = true
          ∧ reading.ops.any (fun o => o.kind == .replay && o.no == 0) = true)
      ∧ usDue (inRecov (rec .replay) (us 5)) (rec .replay).replayUs (replayLimit (inRecov (rec .replay) (us 4))) = true
      ∧ usDue (inRecov (rec .replay) (us 4)) (rec .replay).replayUs (replayLimit (inRecov (rec .replay) (us 4))) = false
      ∧ ((rec .reset).phase ≠ .check ∧ (rec .reset).late = false ∧ usDue (inRecov (rec .reset) (us 501)) (rec .reset).fromUs 500 = true
          ∧ bit (quiet (inRecov (rec .reset) (us 501))).regs.recovCtl 2 = false)
      ∧ usDue (inRecov (rec .reset) (us 500)) (rec .reset).fromUs 500 = false ∧ { rec .reset with late := true }.late = true := by decide +kernel

def sweeping (abortOnly : Bool) (n : Nat) (b : Block) : Block :=
  setCtx { b with now := n } 5 (fun c => { c with sweep := some {
    abortOnly := abortOnly, abort := false, final := .closed, startAt := 0, limitUs := 0, escalated := false, cmds := [4] } })

theorem witness_SweepEnds :
    let us (n : Nat) : Nat := n * Config.usCycles
    let busy := regsIs (sweeping false (us 51) (withOp .write .store 0 0)) (fun r => { r with recovCtl := 0 })
    let waits := sweeping false 4 (ready1 (txn .rd .swept))
    let done_ := sweeping false 4 ready0
    let abort := sweeping true 4 ready0
    (ctxOf busy 5).sweep.isSome = true ∧ sweepBusy busy 5 = true
      ∧ (sweepBusy waits 5 = false ∧ waits.txns.any (ofCtx 5) = true)
      ∧ (sweepBusy done_ 5 = false ∧ done_.txns.any (ofCtx 5) = false ∧ (ctxOf abort 5).sweep.isSome = true ∧ sweepBusy abort 5 = false)
      ∧ ((ctxOf busy 5).sweep.any (fun w => !w.escalated && usDue busy w.limitUs 50) = true ∧ busy.chans.any (fun e => e.2.recov.isSome) = false
          ∧ sweepChan busy 5 = some 0 ∧ bit busy.regs.recovCtl 1 = false)
      ∧ usDue (inRecov (rec .reset) (us 50)) 0 50 = false := by decide +kernel

theorem witness_ContextCommandsAct :
    let quiet (b : Block) : Block := setCtx b 6 (fun c => { c with quietFrom := some (usNow b) })
    let soon (b : Block) : Block := setCtx b 5 (fun c => { c with lastBump := some b.now })
    let cmd (opc k : Nat) : Word := BitVec.ofNat 64 (opc + k * 2 ^ 32)
    let q (opc k : Nat) : Block := queued ready0 (cmd opc k) 0 0
    let t (opc k : Nat) : Taken := taken (cmd opc k) 0 0
    ((q 0x10 5).takes 0x10 (t 0x10 5) ∧ (ctxOf (q 0x10 5) 5).wait = [] ∧ (ctxOf (q 0x10 5) 5).state ≠ .closed)
      ∧ ((q 0x10 6).takes 0x10 (t 0x10 6) ∧ (ctxOf (q 0x10 6) 6).state = .closed ∧ inQuiet (q 0x10 6) 6 = false)
      ∧ ((quiet (q 0x10 6)).takes 0x10 (t 0x10 6) ∧ inQuiet (quiet (q 0x10 6)) 6 = true ∧ (ctxOf (quiet (q 0x10 6)) 6).wait = [])
      ∧ ((q 0x11 6).takes 0x11 (t 0x11 6) ∧ (ctxOf (q 0x11 6) 6).state = .closed)
      ∧ ((q 0x12 5).takes 0x12 (t 0x12 5) ∧ (ctxOf (q 0x12 5) 5).state = .open ∧ (ctxOf (q 0x12 5) 5).sweep = none ∧ bit (t 0x12 5).dw0 40 = false
          ∧ bumpReady (q 0x12 5) 5 = true)
      ∧ ((soon (q 0x11 5)).takes 0x11 (t 0x11 5) ∧ bumpReady (soon (q 0x11 5)) 5 = false)
      ∧ ((q 0x13 0).takes 0x13 (t 0x13 0) ∧ (q 0x13 0).recov.abortOut = [] ∧ (q 0x13 0).recov.abortNow = none) := by
  unfold Block.takes; decide +kernel

theorem witness_ContextWaitsEnd :
    let wait (w : CtxWait) : Block := setCtx ready0 63 (fun c => { c with wait := [w] })
    let quiet := setCtx ready0 63 (fun c => { c with quietFrom := some (usNow ready0) })
    let soon := setCtx ready0 63 (fun c => { c with lastBump := some ready0.now })
    let opened := setCtx (wait (.bump 4 false true)) 63 (fun c => { c with state := .open })
    inQuiet quiet 63 = true
      ∧ (inQuiet (wait (.openQuiet 4 9 2)) 63 = false ∧ (ctxOf (wait (.openQuiet 4 9 2)) 63).wait = [.openQuiet 4 9 2]
          ∧ (ctxOf (wait (.openQuiet 4 9 2)) 63).state = .closed)
      ∧ bumpReady soon 63 = false
      ∧ (bumpReady opened 63 = true ∧ (ctxOf opened 63).wait = [.bump 4 false true] ∧ (ctxOf opened 63).state = .open ∧ (ctxOf opened 63).sweep = none) := by
  decide +kernel

/-- The event ring is on, with 64 slots. -/
def ring : Events := { Events.init with ctl := 1, ringSize := 4096 }
def evtIs (e : Events) : Block := { ready0 with ev := e }
def record : Record := mkRecord ready0 0x19 none none 0 0 0 0

theorem witness_EventRingIssues :
    let on (e : Events) : Prop := evtOn e = true ∧ s0Reach (evtIs e) = true ∧ ringFree e = true
    let lost := { ring with lost := 1 }
    let some_ := { ring with queue := [record], issued := List.replicate 31 (0, true, record) }
    let s0w : S0Req := { s0 true with who := .record 0 }
    let out := { evtIs { ring with nextSeq := 1, issued := [(0, false, record)] } with sump := { Sump.init with out := [s0w] } }
    let late (n : Nat) (o : Bool) : Block :=
      { evtIs { ring with dbFromUs := some 0, dbCtl := 10 <<< 32, dbOut := o } with now := n * Config.usCycles }
    on { ring with again := [record] }
      ∧ (on some_ ∧ some_.again = [] ∧ uncovered some_ < 32 ∧ some_.lost = 0 ∧ some_.queue = [record])
      ∧ (on lost ∧ uncovered lost < 32 ∧ 0 < lost.lost)
      ∧ evtOn Events.init = false ∧ ringFree { ring with nextSeq := 64 } = false ∧ s0Reach State.reset.blk = true
      ∧ (out.sump.out.find? (fun r => r.id == 3 && match r.who with | .record _ => true | _ => false) = some s0w ∧ s0w.who = .record 0
          ∧ out.ev.issued = [(0, false, record)] ∧ fld out.ev.dbCtl 0 16 = 0 ∧ out.ev.issued.any (fun x => x.1 == 0) = true)
      ∧ ((late 11 false).ev.dbFromUs = some 0 ∧ fld (late 11 false).ev.dbCtl 32 16 = 10 ∧ evtOn (late 11 false).ev = true
          ∧ usDue (late 11 false) 0 10 = true ∧ (late 11 true).ev.dbOut = true)
      ∧ ring.dbFromUs = none := by decide +kernel

theorem witness_TimebaseFollowsFrames :
    let t := TimeBase.init
    let synced := { t with synced := true, ns := 500 }
    let off := { t with syncEn := false }
    off.syncEn = false ∧ t.syncEn = true ∧ (ones (3 : Word) % 2 == 1) = false ∧ ((ones (3 : Word) % 2 == 1) == true) = false
      ∧ ((ones (3 : Word) % 2 == 1) == false) = true
      ∧ { t with frozen := true }.frozen = true ∧ (synced.synced = true ∧ timeDist 600 synced.ns ≤ synced.tol ∧ synced.tol < timeDist 601 synced.ns)
      ∧ t.frozen = false ∧ t.synced = false ∧ t.resumedUs = none
      ∧ { t with resumedUs := some 0 }.resumedUs = some 0 ∧ usDue (inRecov (rec .reset) (1001 * Config.usCycles)) 0 (max 1 t.syncWait) = true := by decide +kernel

theorem witness_ObservationRuns :
    let o := Observe.init
    let obs (o : Observe) : Block := { ready0 with obs := o }
    let armed := { o with trigDue := true, trcState := .armed, trcTrig := (3 <<< 60 : Word) }
    let sampled := { o with trcCtl := (1 <<< 48 : Word) ||| (1 <<< 40) ||| 1, trcState := .armed, stamp := 1024 }
    let streamed := { o with buffer := [{ w0 := 1, w1 := 2, cls := 1, inWindow := true }], stream := true }
    (armed.trigDue = true ∧ fld armed.trcTrig 60 3 = 3 ∧ armed.trcState = .armed) ∧ o.trigDue = false
      ∧ { o with trcState := .triggered }.trcState = .triggered ∧ o.postLeft = 0 ∧ o.trcState ≠ .triggered ∧ { o with postLeft := 1 }.postLeft ≠ 0
      ∧ (trcRuns (obs { o with stamp := 2 ^ 20 }) = true ∧ 2 ^ 20 ≤ stampSince { o with stamp := 2 ^ 20 } 0
          ∧ stampSince { o with stamp := 2 ^ 20 - 1 } 0 < 2 ^ 20)
      ∧ (clsOn sampled 0 = true ∧ fld sampled.trcCtl 48 16 * 1024 = 1024 ∧ trcRuns (obs sampled) = true ∧ trcLive sampled = true
          ∧ 1024 ≤ stampSince sampled sampled.sampleFrom)
      ∧ (fld o.trcCtl 48 16 * 1024 = 0 ∧ trcLive o = false)
      ∧ (streamed.buffer.length = 1 ∧ streamed.stream = true ∧ trcRuns (obs streamed) = true ∧ streamed.t0 = none
          ∧ { streamed with t0 := some (1, 2), t0At := ready0.now - 16 }.t0At + 16 ≤ ready0.now)
      ∧ o.buffer = [] ∧ o.stream = false ∧ { o with sndBusy := true }.sndBusy = true ∧ o.sndBusy = false := by decide +kernel

/-! Witnesses: management commands. -/

def le (n v : Nat) : List Byte := (List.range n).map (fun k => BitVec.ofNat 8 (v >>> (8 * k)))

/-- An image of 128 B with 32 B of firmware and no other record (R327 to R329). -/
def imgBody : List Byte := le 2 1 ++ le 2 255 ++ le 4 32 ++ le 8 0 ++ le 32 7 ++ le 2 0xFFFF ++ le 2 255 ++ le 12 0
def imgHead : List Byte :=
  le 4 0x4F4C5956 ++ le 2 1 ++ le 2 0 ++ le 4 128 ++ le 4 3 ++ le 4 0 ++ le 4 2 ++ le 8 0 ++ le 4 1502731319 ++ le 24 0
def image : List Byte := imgHead ++ le 4 3261105561 ++ imgBody

/-- CRC-32C with its register forced to a numeral in each step, as the kernel evaluates it. -/
def crcForced (c : Nat) : List Byte → BitVec 32
  | [] => BitVec.ofNat 32 c
  | x :: l => match (crcByte (BitVec.ofNat 32 c) x).toNat with
    | 0 => crcForced 0 l
    | n + 1 => crcForced (n + 1) l

theorem crcForced_eq (l : List Byte) (c : BitVec 32) : crcForced c.toNat l = l.foldl crcByte c := by
  induction l generalizing c with
  | nil => simp [crcForced]
  | cons x l ih =>
    rw [List.foldl_cons, ← ih]
    simp only [crcForced, BitVec.ofNat_toNat, BitVec.setWidth_eq]
    split <;> simp_all

theorem crc32c_forced (l : List Byte) : crc32c l = ~~~(crcForced 0xFFFFFFFF l) := by
  rw [show (0xFFFFFFFF : Nat) = (0xFFFFFFFF#32).toNat from rfl, crcForced_eq]; rfl

theorem image_checks : checksOk image = true := by
  simp only [checksOk, crc32c_forced]; decide +kernel

theorem witness_CommandsAreTaken :
    let q := queued ready0 0 0 0
    let odd := queued ready0 0x7F 0 0
    canTake ready0 = false ∧ q.takes 0 (taken 0 0 0)
      ∧ (canTake odd = true ∧ taken 0x7F 0 0 = { idx := odd.cmdq.head, dw0 := headDw odd 0, dw1 := headDw odd 1, dw2 := headDw odd 2 }
          ∧ cmdOk odd (taken 0x7F 0 0) (headDw odd 3) = false) := by
  unfold Block.takes; decide +kernel

theorem witness_ShadowsTakeEffect :
    (queued ready0 1 0 0).takes 1 (taken 1 0 0) ∧ (queued ready0 2 0 0).takes 2 (taken 2 0 0) := by
  unfold Block.takes; decide +kernel

def word (v : Nat) : Word := BitVec.ofNat 64 v
def cmdIn (b : Block) (v : Nat) : Block := queued b (word v) 0 0
def cmd (v : Nat) : Taken := taken (word v) 0 0
def has (e : Seam) : Block := { ready0 with seams := [(0, e)] }
def assign : Nat := 8
def seed : Nat := 8 + 2 ^ 40
def released (b : Block) : Block := { b with cmdq := { CmdQ.init with running := [cmd 9] } }
def clearing (z : Bool) : Block := { has { seam0 with clearing := true, zmap := z, owners := 0 } with cmdq := { CmdQ.init with running := [cmd 8] } }
def sumpSeam : Seam := { seam0 with sump := true }

/-- The command of value `opc + v` at the head of the queue can be taken. -/
def takesOk (b : Block) (opc v : Nat) : Prop := (cmdIn b (opc + v)).takes opc (cmd (opc + v))

theorem witness_SeamCommandsAct :
    ((cmdIn ready0 3).takes 3 (cmd 3) ∧ selectable (cmdIn ready0 3) 0 = true)
      ∧ ((cmdIn ready0 (3 + 3 * 2 ^ 32)).takes 3 (cmd (3 + 3 * 2 ^ 32)) ∧ selectable (cmdIn ready0 3) 3 = false)
      ∧ ((cmdIn ready0 (assign + 255 * 2 ^ 32)).takes 8 (cmd (assign + 255 * 2 ^ 32)) ∧ (seamOf (cmdIn ready0 0) 255).valid = false)
      ∧ ((cmdIn (has { seam0 with secure := true }) assign).takes 8 (cmd assign) ∧ (seamOf (cmdIn (has { seam0 with secure := true }) assign) 0).secure = true
          ∧ present ready0 = false)
      ∧ ((cmdIn ready0 assign).takes 8 (cmd assign) ∧ ((cmdIn ready0 assign).taken (cmd assign)).seamFree 0 0 ∧ bit (cmd assign).dw0 40 = false)
      ∧ ((cmdIn ready0 seed).takes 8 (cmd seed) ∧ ((cmdIn ready0 seed).taken (cmd seed)).seamFree 0 0 ∧ bit (cmd seed).dw0 40 = true ∧ (seamOf ready0 0).owners ≠ 0)
      ∧ ((cmdIn (has { sumpSeam with owners := 0 }) seed).takes 8 (cmd seed) ∧ ((cmdIn (has { sumpSeam with owners := 0 }) seed).taken (cmd seed)).seamFree 0 0)
      ∧ ((cmdIn (has { seam0 with owners := 0 }) seed).takes 8 (cmd seed) ∧ ((cmdIn (has { seam0 with owners := 0 }) seed).taken (cmd seed)).seamFree 0 0
          ∧ (lineIn ready0 seam0 1 63 0).isSome = true ∧ (cmdIn ready0 seed).chans.any (fun h => h.2.merge.any (fun m => m.seam == 0)) = false)
      ∧ ((cmdIn ready0 9).takes 9 (cmd 9) ∧ ((cmdIn ready0 9).taken (cmd 9)).seamFree 0 0)
      ∧ ((cmdIn ready0 10).takes 10 (cmd 10) ∧ (seamOf ready0 0).sump = false)
      ∧ ((cmdIn (has { sumpSeam with sumpInvalid := true }) 10).takes 10 (cmd 10) ∧ seamBusy ((cmdIn (has sumpSeam) 10).taken (cmd 10)) 0 0 = false
          ∧ (cmdIn (has sumpSeam) 10).takes 10 (cmd 10) ∧ (seamOf (has sumpSeam) 0).sumpInvalid = false)
      ∧ (seamCmd (released ready0) 9 0 = some (cmd 9) ∧ seamInUse (released ready0) 0 = false
          ∧ seamCmd (released (ready1 (txn .rd .active))) 9 0 = some (cmd 9) ∧ seamInUse (released (ready1 (txn .rd .active))) 0 = true)
      ∧ (seamOf ready0 0).clearing = false ∧ seamZeroed { clearing false with ops := [seqLine .clear] } 0 = false
      ∧ ((seamOf (clearing false) 0).clearing = true ∧ seamZeroed (clearing false) 0 = true ∧ seamZeroed (clearing true) 0 = true ∧ seamCmd (clearing false) 8 0 = some (cmd 8) ∧ (seamOf (clearing true) 0).zmap = true
          ∧ seamCmd (clearing true) 8 0 = some (cmd 8) ∧ (clearing true).build.bankSize ≤ 2) := by
  refine ⟨?_, ?_, ?_, ?_, ?_, ?_, ?_, ?_, ?_, ?_, ?_, ?_, ?_, ?_⟩ <;> (try unfold Block.takes) <;> (try unfold Block.seamFree) <;> decide +kernel

def stops : Block := recovIs ready0 (fun r => { r with stopWait := [(9, [0])] })
def spares (p : Nat) (f : Sparing → Sparing) : Block := setChan ready0 1 (fun c => { c with spare := f { c.spare with phase := p, bank := 9, onto := 64 } })
def noSpare : Block := spares 0 (fun s => { s with s0State := 3, s1State := 3, noSpare := [0] })
def ch1 : Nat := 1 * 2 ^ 32
def shake (auto : Bool) : Block := powerIs ready0 (fun p => { p with hs := some { hs 1 [0] .ask false with auto := auto } })
def asleep : Block := powerIs ready0 (fun p => { p with ch := [(0, .sleep)] })
def snd (busy held : Bool) : Block := { ready0 with obs := { Observe.init with sndBusy := busy, sndHeld := held } }
def here (lc : Nat) : Block := bringIs ready0 (fun r => { r with holdMs := 100, lcState := lc })
def nvmRuns (b : Block) : Block := bringIs b (fun r => { r with nvmSeq := some (2, none) })
def nvm (b : Block) : Block := queued b 0x31 (word Config.sumpBase) 128
def nvmT : Taken := taken 0x31 (word Config.sumpBase) 128
def workerHere : Block := { here 1 with cw := Causeway.init 1 false }

theorem image_taken : imageRefused ((nvm (here 1)).taken nvmT) (image.take 128) = false := by
  have h : image.take 128 = image := by decide +kernel
  have c : headerCause ((nvm (here 1)).taken nvmT).bring.lcState image = 0 := by
    have : headerOk ((nvm (here 1)).taken nvmT).bring.lcState image = true := by decide +kernel
    simp [headerCause, this, image_checks]
  simp only [h, imageRefused, c]
  decide +kernel

theorem witness_ChannelAndPrivilegedCommandsAct :
    (takesOk ready0 0x18 (3 * 2 ^ 32) ∧ (cmdIn ready0 0).recov.stopWait = [])
      ∧ (stops.recov.stopWait = [(9, [0])] ∧ [0].all (chSettled stops) = true
          ∧ [0].all (chSettled (setChan stops 0 (fun c => { c with recov := some (rec .check) }))) = false)
      ∧ (takesOk ready0 0x19 (1 * 2 ^ 32) ∧ ready0.recov.stopWait = [] ∧ takesOk stops 0x19 (1 * 2 ^ 32) ∧ [0].any (fun j => (chansOf 1).contains j) = true)
      ∧ (takesOk ready0 0x1A ch1 ∧ chFrozen ready0 1 = false ∧ ready0.power.hs = none ∧ ready0.obs.sndBusy = false
          ∧ takesOk (setChan ready0 1 (fun c => { c with recov := some (rec .reset) })) 0x1A ch1 ∧ chFrozen (setChan ready0 1 (fun c => { c with recov := some (rec .reset) })) 1 = true)
      ∧ (takesOk ready0 0x1B 0 ∧ ready0.recov.draining = none ∧ ready0.bring.inReset = false ∧ jobPairs ready0 = [])
      ∧ (takesOk (spares 1 id) 0x1C (ch1 + 9 * 2 ^ 40) ∧ (chan (spares 1 id) 1).spare.phase ≠ 0 ∧ (chan (spares 1 id) 1).spare.bank = 9
          ∧ takesOk (spares 1 id) 0x1C (ch1 + 63 * 2 ^ 40) ∧ (chan (spares 1 id) 1).spare.waiting = none
          ∧ takesOk (spares 0 id) 0x1C ch1 ∧ (chan (spares 0 id) 1).spare.phase = 0 ∧ freeSpare (chan (spares 0 id) 1).spare = some 64
          ∧ (takesOk noSpare 0x1C ch1 ∧ freeSpare (chan noSpare 1).spare = none ∧ (chan noSpare 1).spare.noSpare.contains 0 = true))
      ∧ (takesOk (shake false) 0x20 (1 * 2 ^ 40) ∧ (shake false).power.hs.any (fun g => !g.auto) = true
          ∧ takesOk ready0 0x20 (3 * 2 ^ 40) ∧ ready0.power.runWait = [] ∧ (∀ k ∈ chansOf 3, chPower ready0 k = .run)
          ∧ takesOk ready0 0x20 (2 * 2 ^ 32 + 3 * 2 ^ 40) ∧ (chansOf 3).filter (fun k => decide (levelOf ready0 k < 2)) ≠ []
          ∧ (∀ k ∈ chansOf 3, (chan ready0 k).merge = [] ∧ holdsTallies ready0 k = false)
          ∧ (takesOk asleep 0x20 (2 * 2 ^ 32 + 1 * 2 ^ 40) ∧ (chansOf 1).filter (fun k => decide (levelOf asleep k < 2)) = [])
          ∧ takesOk ready0 0x20 (4 * 2 ^ 32) ∧ takesOk ready0 0x20 (3 * 2 ^ 32))
      ∧ (takesOk (snd true false) 0x28 0 ∧ takesOk (snd false true) 0x28 0 ∧ takesOk (snd false true) 0x28 (1 * 2 ^ 32) ∧ takesOk (snd false false) 0x28 0)
      ∧ ((∀ opc ∈ [0x30, 0x32, 0x33], takesOk ready0 opc 0) ∧ (nvm ready0).takes 0x31 nvmT ∧ present ready0 = false ∧ present (here 0) = true)
      ∧ (takesOk (here 1) 0x30 (1 * 2 ^ 32) ∧ takesOk (here 1) 0x30 (2 * 2 ^ 32) ∧ nvmBusy ((cmdIn (here 1) 0).taken (cmd 0x30)) 0 = false
          ∧ takesOk (nvmRuns (here 1)) 0x30 (2 * 2 ^ 32) ∧ nvmBusy (nvmRuns (here 1)) 0 = true)
      ∧ ((nvm (here 1)).takes 0x31 nvmT ∧ isPithead (here 1) = true ∧ nvmBusy ((nvm (here 1)).taken nvmT) 0 = false ∧ imageRefused (here 1) [] = true
          ∧ ready0.bring.holdupMin = (255#8).toNat)
      ∧ imageRefused ((nvm (here 1)).taken nvmT) (image.take 128) = false
      ∧ (takesOk (here 2) 0x32 0 ∧ (here 2).bring.lcState = 2 ∧ takesOk (here 0) 0x32 0 ∧ takesOk (here 3) 0x32 0)
      ∧ (takesOk (here 1) 0x33 0 ∧ isPithead workerHere = false ∧ takesOk workerHere 0x33 0) := by
  refine ⟨?_, ?_, ?_, ?_, ?_, ?_, ?_, ?_, ?_, ?_, ?_, image_taken, ?_, ?_⟩ <;> (try unfold takesOk) <;> (try unfold Block.takes) <;> decide +kernel

/-! Witnesses: G0. -/

theorem witness_GlobalRegistersAct :
    let b := ready0
    let opened := { bringIs b (fun r => { r with holdMs := 100, unlocked := true, lcState := 1 }) with dbg := { Debug.init with halt := true } }
    let running_ := { opened with dbg := Debug.init }
    let at_ (a : Word) : Block := { opened with dbg := { opened.dbg with addr := a } }
    let ok (lo : BitVec 32) (q : CmdQ) : Bool := decide ((lo - q.tail).toNat ≤ 64 ∧ (lo - q.cplTail).toNat ≤ 64)
    (b.bring.phase = 5 ∧ b.bring.inReset = false ∧ b.power.inst = .on ∧ b.safety.clkHeld = false)
      ∧ ok 64 b.cmdq = true ∧ ok 65 b.cmdq = false
      ∧ (let q := { CmdQ.init with cplHead := 3 }
         ((3 : BitVec 32) - q.cplTail).toNat ≤ (q.cplHead - q.cplTail).toNat ∧ ¬ ((4 : BitVec 32) - q.cplTail).toNat ≤ (q.cplHead - q.cplTail).toNat)
      ∧ (let e := { Events.init with head := 3 }
         ((3 : BitVec 32) - e.tail).toNat ≤ (e.head - e.tail).toNat ∧ ¬ ((4 : BitVec 32) - e.tail).toNat ≤ (e.head - e.tail).toNat)
      ∧ evtOn ring = true ∧ evtOn b.ev = false
      ∧ (∃ e ∈ (setCtx b 5 (fun c => { c with trip := [(10000003, 0, 0)] })).ctxs, ∃ t ∈ e.2.trip, t.1 / 4 = b.now / 4)
      ∧ (∀ e ∈ (setCtx b 5 (fun c => { c with trip := [(9999999, 0, 0)] })).ctxs, ¬ ∃ t ∈ e.2.trip, t.1 / 4 = b.now / 4)
      ∧ debugOpen { b with bring := { b.bring with lcState := 2 } } = false ∧ debugOpen opened = true ∧ running_.dbg.halt = false ∧ opened.dbg.halt = true
      ∧ fld (at_ 0).dbg.addr 62 2 = 0 ∧ (fld (at_ 0x400000000007FFF8).dbg.addr 62 2 = 1 ∧ fld (at_ 0x400000000007FFF8).dbg.addr 3 18 < 65536)
      ∧ (fld (at_ 0x8000000000000108).dbg.addr 62 2 = 2 ∧ fld (at_ 0x8000000000000108).dbg.addr 3 18 < 34)
      ∧ (g0Offset 0x0178 < 0xC0000 ∧ regAt b (g0Offset 0x0178) = none)
      ∧ (g0Offset 0x0007 < 0xC0000 ∧ (regAt b (g0Offset 0x0007)).isSome = true ∧ writable (g0Offset 0x0007) = false)
      ∧ (g0Offset 0x0107 = 0x0100 ∧ (regAt b 0x0100).isSome = true) := by
  and_intros <;> decide +kernel

theorem witness_UnitRegistersAct :
    let tested (t : EccTest) : Block := setChan ready0 1 (fun c => { c with ecc := t })
    let e := Channel.init.ecc
    let link (f : Link → Link) : Block := setLink ready0 1 f
    (ready0.bring.phase = 5 ∧ ready0.bring.inReset = false ∧ ready0.power.inst = .on ∧ ready0.safety.clkHeld = false)
      ∧ chanOk ready0 1 = true ∧ (chan (tested { e with busy := true }) 1).ecc.busy = true ∧ (chan ready0 1).ecc.busy = false
      ∧ 66 ≤ fld (66 : Word) 0 7 ∧ fld (63 : Word) 0 7 < 64
      ∧ rawProtected ready0 0 0 0 = true ∧ rawProtected ready0 0 63 (linesPerBank build - 1) = false
      ∧ ((tested { e with busy := true, op := 1 }).ops.any (fun o => o.kind == .test && o.ch == 1) = false
          ∧ (chan (tested { e with busy := true, op := 4 }) 1).ecc.op = 4)
      ∧ bit (0 : Word) 3 = false ∧ bit (4 : Word) 1 = false ∧ bit (2 : Word) 2 = false
      ∧ { Observe.init with trcState := .armed }.trcState = .armed ∧ Observe.init.trcState ≠ .armed
      ∧ peerOk ready0 1 = true
      ∧ ((linkOf ready0 1).disable = false ∧ (linkOf ready0 1).state = .down ∧ (linkOf ready0 1).tx = [] ∧ (linkOf ready0 1).state ≠ .disabled)
      ∧ (linkOf (link (fun l => { l with state := .active })) 1).state = .active
      ∧ (linkOf (link (fun l => { l with state := .disabled, disable := true })) 1).state = .disabled := by
  and_intros <;> decide +kernel

/-! Witnesses: peer links and messages. -/

def link1 (f : Link → Link) : Block := setLink ready0 1 f
def at_ (n : Nat) (b : Block) : Block := { b with now := n * Config.usCycles }
def ctl (h : Nat) : Msg := { kind := .control, hdr := BitVec.ofNat 128 h, be := none, data := none, since := 0, inp := 1, seq := 0, chunk := 0 }
def lanes (f p : BitVec 64) : Trained := { ok := true, failed := f, partner := p }
def flit (ctl : BitVec 96) : Flit := mkFlit ctl 0

/-- HELLO of instance 9 with the protocol's version, and with another. -/
def hello (v : Nat) : Msg := ctl (1 + 9 * 2 ^ 4 + v * 2 ^ 24)
def greeted (m : Msg) (sent : Bool) : Block := link1 (fun l => { l with state := .hello, rx := [m], helloSent := sent })

theorem witness_LinksChangeState :
    let retry (n : Nat) : Block := at_ n { ready0 with cw := { ready0.cw with ctl := 0x1000F } }
    let training (k n : Nat) : Block := at_ n (link1 (fun l => { l with state := .training, attempts := k }))
    let retraining (n : Nat) : Block := at_ n (link1 (fun l => { l with state := .retraining }))
    (peerOk ready0 1 = true ∧ cwLive ready0 = true ∧ (linkOf ready0 1).state = .down)
      ∧ (linkOf (training 1 0) 1).state ≠ .down
      ∧ ((linkOf (retry 1000001) 1).state = .down ∧ fld (retry 1000001).cw.ctl 16 16 = 1 ∧ usDue (retry 1000001) 0 1000000 = true)
      ∧ ((linkOf (training 3 5001) 1).state = .training ∧ usDue (training 3 5001) 0 5000 = true ∧ (linkOf (training 3 5001) 1).attempts < 4)
      ∧ (4 ≤ (linkOf (training 4 5001) 1).attempts ∧ (linkOf (training 4 5001) 1).tx = [] ∧ usDue (training 4 5000) 0 5000 = false)
      ∧ ((lanes 7 3).ok = true ∧ commonWidth ((lanes 7 3).failed ||| fusedLanes ready0 1) (lanes 7 3).partner = 2
          ∧ commonWidth ((lanes 3 3).failed ||| fusedLanes ready0 1) (lanes 3 3).partner = 3
          ∧ commonWidth ((lanes 7 0x700000000).failed ||| fusedLanes ready0 1) (lanes 7 0x700000000).partner = 0)
      ∧ (linkOf (link1 (fun l => { l with state := .active })) 1).state = .active
      ∧ ((linkOf (retraining 100) 1).state = .retraining ∧ usDue (retraining 100) 0 100 = false ∧ usDue (retraining 101) 0 100 = true
          ∧ (linkOf (retraining 101) 1).tx = [])
      ∧ showingCtl ready0 (.peer 1) 1 = none
      ∧ (showingCtl (greeted (hello 3) false) (.peer 1) 1 = some (hello 3) ∧ (linkOf (greeted (hello 3) false) 1).state = .hello ∧ fld (hello 3).hdr 24 8 = 3
          ∧ (hello 3).src ≠ ready0.cw.instNum ∧ expected (greeted (hello 3) false) 1 = none ∧ (linkOf (greeted (hello 3) true) 1).helloSent = true)
      ∧ (showingCtl (greeted (hello 2) false) (.peer 1) 1 = some (hello 2) ∧ fld (hello 2).hdr 24 8 ≠ 3 ∧ (linkOf (greeted (hello 2) false) 1).tx = []) := by
  and_intros <;> decide +kernel

/-- Flits that acknowledge nothing: an idle one, a NAK, and DATA with SEQ 0 and 1. -/
def ack0 : Nat := 4095 * 2 ^ 14
def idleFlit : Flit := flit (BitVec.ofNat 96 ack0)
def nakFlit : Flit := flit (BitVec.ofNat 96 (2 + ack0))
def dataFlit (seq : Nat) : Flit := flit (BitVec.ofNat 96 (1 + seq * 4 + ack0))

/-- A DATA flit with one control message, a BEACON of instance 9. -/
def beaconFlit : Flit := mkFlit (BitVec.ofNat 96 (1 + ack0 + 4 * 2 ^ 26)) (BitVec.ofNat 1920 (2 + 9 * 2 ^ 4))

theorem flit_crc (c : BitVec 96) (d : BitVec 1920) : (mkFlit c d).crc = flitCrc (mkFlit c d).ctl (mkFlit c d).body := rfl

theorem wrong_crc (c : BitVec 96) (d : BitVec 1920) :
    { mkFlit c d with crc := ~~~(flitCrc c d) }.crc ≠ flitCrc { mkFlit c d with crc := ~~~(flitCrc c d) }.ctl { mkFlit c d with crc := ~~~(flitCrc c d) }.body := by
  intro h
  have := congrArg (fun x => x.getLsbD 0) h
  simp [mkFlit] at this

theorem witness_FlitsAreExchanged :
    let active (f : Link → Link) : Block := link1 (fun l => f { l with state := .active, credit := (1024, 2048, 64) })
    let l := linkOf (active id) 1
    let replay (n t : Nat) : Link := linkOf (active (fun l => { l with replay := List.replicate n idleFlit, seqNext := n, replayTries := t })) 1
    (peerOk (active id) 1 = true ∧ cwLive (active id) = true ∧ l.state = .active)
      ∧ (linkOf ready0 1).state ≠ .active ∧ (linkOf ready0 1).state ≠ .hello
      ∧ (∃ f : Flit, f.crc ≠ flitCrc f.ctl f.body)
      ∧ (∀ f ∈ [idleFlit, nakFlit, dataFlit 0, dataFlit 1, beaconFlit], f.ctl >>> 91 = 0 ∧ flitAck f = ackedSeq l)
      ∧ idleFlit.crc = flitCrc idleFlit.ctl idleFlit.body
      ∧ (flitKind (dataFlit 1) = 1 ∧ flitSeq (dataFlit 1) ≠ l.seqExp) ∧ (flitKind (dataFlit 0) = 1 ∧ flitSeq (dataFlit 0) = l.seqExp ∧ l.partialKind = none)
      ∧ (∀ k, 1 ≤ k → k ≤ 15 → flitMap (dataFlit 0) k = 0 ∧ flitChunk (dataFlit 0) k = 0)
      ∧ (∀ k, 2 ≤ k → k ≤ 15 → flitMap beaconFlit k = 0 ∧ flitChunk beaconFlit k = 0)
      ∧ (flitKind beaconFlit = 1 ∧ flitSeq beaconFlit = l.seqExp ∧ flitMap beaconFlit 1 = 4 ∧ (msgOf .control [flitChunk beaconFlit 1]).len = 1
          ∧ fieldsOk (msgOf .control [flitChunk beaconFlit 1]) = true ∧ (msgOf .control [flitChunk beaconFlit 1]).hops ≤ hopLimit (active id)
          ∧ rxChunks l 2 + l.owed.2.2 + 1 ≤ 64)
      ∧ (flitKind idleFlit ≠ 2 ∧ flitKind nakFlit = 2 ∧ (replay 1 3).replay ≠ [] ∧ (replay 1 3).replayTries < 4)
      ∧ ((replay 1 3).replayPos = none ∧ usDue (at_ 2 (active id)) (usAt (at_ 2 (active id)) ((replay 1 3).sentAt.headD 0)) 1 = true
          ∧ usDue (at_ 1 (active id)) (usAt (at_ 1 (active id)) ((replay 1 3).sentAt.headD 0)) 1 = false ∧ l.replay = [])
      ∧ (linkOf (active (fun l => { l with nakDue := true })) 1).nakDue = true
      ∧ (linkOf (active (fun l => { l with replay := [idleFlit], replayPos := some 0 })) 1).replay[0]? = some idleFlit
      ∧ (128 ≤ (replay 128 0).replay.length ∧ (replay 127 0).replay.length < 128 ∧ (replay 127 0).nakDue = false)
      ∧ (l.tx = [] ∧ l.txRest = none)
      ∧ (let m := linkOf (active (fun l => { l with tx := [hello 3], credit := (0, 0, 1) })) 1
         m.tx = [hello 3] ∧ (hello 3).kind = .control ∧ (hello 3).len = 1 ∧ 1 ≤ m.credit.2.2 ∧ m.seqNext < 4096)
      ∧ (let h := linkOf (greeted (hello 3) false) 1
         h.state = .hello ∧ h.nakDue = false ∧ h.replayPos = none ∧ h.replay = [] ∧ h.helloSent = false ∧ h.helloGot = false ∧ h.txRest = none
          ∧ h.seqNext < 4096) := by
  refine ⟨?_, ?_, ?_, ⟨_, wrong_crc 0 0⟩, ?_, flit_crc _ _, ?_, ?_, ?_, ?_, ?_, ?_, ?_, ?_, ?_, ?_, ?_, ?_, ?_⟩
  case refine_7 => intro k h1 h2; interval_cases k <;> decide +kernel
  case refine_8 => intro k h1 h2; interval_cases k <;> decide +kernel
  all_goals first | rfl | decide +kernel

/-- A message of a kind with this header at peer port 1. -/
def msg (k : MKind) (h : BitVec 128) : Msg := { kind := k, hdr := h, be := none, data := none, since := 0, inp := 1, seq := 0, chunk := 0 }
def reqMsg (dst ctx : Nat) : Msg :=
  msg .request (msgOfReq .rd { beat with addr := BitVec.ofNat 48 (dst * 2 ^ 42), ctx := BitVec.ofNat 6 ctx } 9 0)
def lineMsg (dst : Nat) : Msg := msg .writeLine (BitVec.ofNat 128 (9 * 2 ^ 8 + dst * 2 ^ 20 + 2 ^ 52))
/-- A read response to ID 1 of port M0 of channel 0, OKAY, of context 5 under a shift. -/
def rspMsg (dst shift : Nat) : Msg := msg .response (BitVec.ofNat 128 (1 + shift * 2 ^ 12 + 5 * 2 ^ 20 + dst * 2 ^ 26 + 9 * 2 ^ 32))
def shows (b : Block) (m : Msg) : Block := setLink b 1 (fun l => { l with state := .active, rx := [m] })

/-- Destination 2 has its first option on peer port 0, which is ACTIVE. -/
def routed2 (b : Block) : Block :=
  { setLink b 0 (fun l => { l with state := .active }) with cw := { (setLink b 0 (fun l => { l with state := .active })).cw with route := [(2, 0x8008)] } }

/-- A read of this instance that went to instance 9, and a write of instance 9. -/
def farRead : Txn := { txn .rd .active with req := { beat with addr := BitVec.ofNat 48 (9 * 2 ^ 42) } }
def farWrite : Txn := { txn .wr (.answered .aborted) with org := .remote 9 0 1 }

theorem witness_MessagesReachTheirRequests :
    (peerOk ready0 1 = true ∧ showing ready0 (.peer 1) .request = none ∧ showing ready0 (.peer 1) .writeLine = none
        ∧ showing ready0 (.peer 1) .response = none)
      ∧ (∀ m ∈ [reqMsg 2 5, lineMsg 2, rspMsg 2 3], (showing (routed2 (shows ready0 m)) (.peer 1) m.kind = some m ∧ m.dst ≠ ready0.cw.instNum
          ∧ pickRoute (routed2 (shows ready0 m)) m.dst = some (0, 0) ∧ tget 0 (routed2 (shows ready0 m)).cw.changing m.dst = 0
          ∧ m.hops + 1 ≤ hopLimit (routed2 (shows ready0 m))))
      ∧ tget (0, 0) ready0.cw.openCls (openKey (lineMsg 2).inp (lineMsg 2).src (lineMsg 2).orig) ≠ (9, 0)
      ∧ ((reqMsg 2 5).inp = 1 ∧ showing (shows ready0 (reqMsg 2 5)) (.peer 1) .request = some (reqMsg 2 5) ∧ pickRoute (shows ready0 (reqMsg 2 5)) 2 = none)
      ∧ (showing (shows ready0 (reqMsg 0 6)) (.peer 1) .request = some (reqMsg 0 6) ∧ (reqMsg 0 6).dst = ready0.cw.instNum
          ∧ ready0.bring.wipeHold = false ∧ ready0.safety.portsStopped = false ∧ opOfCode (fld (reqMsg 0 6).hdr 8 5) = some .rd
          ∧ ready0.power.inst = .on ∧ localTurn (shows ready0 (reqMsg 0 6)) (.peer 1) (reqMsg 0 6) = true
          ∧ (ctxOf ready0 (fld (reqMsg 0 6).hdr 96 6)).state ≠ .open)
      ∧ (showing (shows (ready1 farWrite) (lineMsg 0)) (.peer 1) .writeLine = some (lineMsg 0) ∧ (lineMsg 0).dst = ready0.cw.instNum
          ∧ localTurn (shows (ready1 farWrite) (lineMsg 0)) (.peer 1) (lineMsg 0) = true
          ∧ lineOwner (shows (ready1 farWrite) (lineMsg 0)) (lineMsg 0) = some farWrite ∧ descOf (ready1 farWrite) 7 = none)
      ∧ (lineOwner (shows ready0 (lineMsg 0)) (lineMsg 0) = none ∧ (lineMsg 0).inp = 1 ∧ localTurn (shows ready0 (lineMsg 0)) (.peer 1) (lineMsg 0) = true)
      ∧ (let b := setLink (shows ready0 (reqMsg 0 6)) 1 (fun l => { l with rx := [reqMsg 0 6, rspMsg 0 3] })
         showing b (.peer 1) .request = some (reqMsg 0 6) ∧ localTurn b (.peer 1) (reqMsg 0 6) = false)
      ∧ (let b := bringIs (shows ready0 (rspMsg 0 3)) (fun r => { r with phase := 4 })
         showing b (.peer 1) .response = some (rspMsg 0 3) ∧ isReady b = false)
      ∧ (showing (shows ready0 (rspMsg 0 4)) (.peer 1) .response = some (rspMsg 0 4) ∧ (rspMsg 0 4).dst = ready0.cw.instNum ∧ isReady ready0 = true
          ∧ staleShift ready0 (fld (rspMsg 0 4).hdr 20 6) ((rspMsg 0 4).hdr.extractLsb' 12 8) = true)
      ∧ (staleShift ready0 (fld (rspMsg 0 3).hdr 20 6) ((rspMsg 0 3).hdr.extractLsb' 12 8) = false ∧ bit (rspMsg 0 3).hdr 71 = false
          ∧ (ready1 farRead).txns.find? (fun x => decide (x.org = .loc (portOfOrig (rspMsg 0 3).orig)) && x.req.id == (rspMsg 0 3).hdr.extractLsb' 0 8
              && x.phase == .active && decide (instOf x.req.addr = (rspMsg 0 3).src) && x.op.isRead == decide (fld (rspMsg 0 3).hdr 76 2 = 0)) = some farRead)
      ∧ ready0.txns = [] := by
  and_intros <;> decide +kernel

/-- A worker that waits for its image, with peer port 1 its parent. -/
def worker (f : Causeway → Causeway) : Block :=
  { bringIs ready0 (fun r => { r with phase := 3 }) with cw := f { Causeway.init 4 false with parent := some 1, pitheadInst := 0 } }
/-- A control message of type `ty` from instance `src` to `dst`. -/
def ctlTo (ty src dst more : Nat) : Msg := ctl (ty + src * 2 ^ 4 + dst * 2 ^ 10 + more)
def cwIs (b : Block) (f : Causeway → Causeway) : Block := { b with cw := f b.cw }
/-- The image of the store names the instances 0 and 4 in its MESH record. -/
def meshBody : List Byte :=
  le 2 1 ++ le 2 255 ++ le 12 0 ++ (le 2 10 ++ le 2 255 ++ le 4 8 ++ le 8 0 ++ le 8 17 ++ le 8 0) ++ le 2 0xFFFF ++ le 2 255 ++ le 12 0
def meshImage : List Byte := imgHead.take 20 ++ le 4 3 ++ le 40 0 ++ meshBody

theorem zero_crc : (crc32c (List.replicate 128 (0 : Byte))).toNat = 136799451 := by
  rw [crc32c_forced]; decide +kernel

theorem witness_ControlMessagesAct :
    let p1 : CwIn := .peer 1
    let off (b : Block) : Block := powerIs b (fun p => { p with hs := some (hs 4 [] .offAck false) })
    let plan (w : List Nat) : Block := cwIs ready0 (fun c => { c with offPlans := [{ inst := 4, waiting := w, fromUs := 0 }] })
    let held := cwIs (routed2 ready0) (fun c => { c with changing := [(2, 2)], held := [(2, 9, reqMsg 2 5)] })
    let mesh (m : List Nat) : Block := at_ 80001 (cwIs (bringIs ready0 (fun r => { r with store := meshImage, releasedUs := 0 }))
      (fun c => { c with imageReady := true, missing := m }))
    let late := bringIs ready0 (fun r => { r with phase := 4 })
    (peerOk ready0 1 = true ∧ ∀ ty, 1 ≤ ty → ty < 13 → showingCtl ready0 p1 ty = none)
      ∧ (let b := shows (worker (fun c => { c with parent := none })) (ctlTo 2 0 0 0)
         showingCtl b p1 2 = some (ctlTo 2 0 0 0) ∧ isPithead b = false ∧ bootWaits b = false ∧ b.cw.parent = none ∧ b.cw.started = false
          ∧ firstBeacon b = some (1, ctlTo 2 0 0 0))
      ∧ (showingCtl (shows ready0 (ctlTo 2 0 0 0)) p1 2 = some (ctlTo 2 0 0 0) ∧ isPithead ready0 = true ∧ ready0.cw.instNum ≤ (ctlTo 2 0 0 0).src)
      ∧ (showingCtl (shows (worker id) (ctlTo 3 0 4 0)) p1 3 = some (ctlTo 3 0 4 0) ∧ bootMsg (worker id) 1 (ctlTo 3 0 4 0) = .take
          ∧ (ctlTo 3 0 4 0).bcast = false ∧ (worker id).cw.imageOk = false)
      ∧ (let m := ctlTo 4 0 4 (128 * 2 ^ 21 + 136799451 * 2 ^ 46)
         showingCtl (shows (worker id) m) p1 4 = some m ∧ bootMsg (worker id) 1 m = .take
          ∧ imageBytes (worker (fun c => { c with bootBytes := [(0, 0)] })) (fld m.hdr 21 25) = some (List.replicate 128 0) ∧ fld m.hdr 46 32 = 136799451
          ∧ imageBytes (worker id) (fld m.hdr 21 25) = none)
      ∧ (showingCtl (shows (worker id) (ctlTo 6 0 4 0)) p1 6 = some (ctlTo 6 0 4 0) ∧ bootMsg (worker id) 1 (ctlTo 6 0 4 0) = .take
          ∧ bit (ctlTo 6 0 4 0).hdr 21 = false)
      ∧ (bootMsg (worker (fun c => { c with imageOk := true })) 1 (ctlTo 6 0 4 (2 ^ 21)) = .take ∧ bit (ctlTo 6 0 4 (2 ^ 21)).hdr 21 = true)
      ∧ (showingCtl (shows ready0 (ctlTo 5 4 0 0)) p1 5 = some (ctlTo 5 4 0 0) ∧ (ctlTo 5 4 0 0).dst = ready0.cw.instNum ∧ bit (ctlTo 5 4 0 0).hdr 21 = false
          ∧ bit (ctlTo 5 4 0 (2 ^ 21)).hdr 21 = true ∧ (ctlTo 5 4 0 (2 ^ 21)).src ≠ ready0.cw.instNum ∧ ready0.cw.acked.contains 4 = false)
      ∧ (showingCtl (shows ready0 (ctlTo 7 4 0 0)) p1 7 = some (ctlTo 7 4 0 0) ∧ isReady late = false
          ∧ (tget [] late.cw.seen 4).contains (fld (ctlTo 7 4 0 0).hdr 67 8) = false
          ∧ (tget [] (cwIs late (fun c => { c with seen := [(4, [0])] })).cw.seen 4).contains 0 = true)
      ∧ (showingCtl (shows ready0 (ctlTo 8 4 0 0)) p1 8 = some (ctlTo 8 4 0 0) ∧ (ctlTo 8 4 0 0).dst = ready0.cw.instNum)
      ∧ (showingCtl (shows (plan [4]) (ctlTo 9 4 0 0)) p1 9 = some (ctlTo 9 4 0 0) ∧ (plan [4]).cw.offPlans.map (fun p => p.waiting) = [[4]]
          ∧ (plan [4, 3]).cw.offPlans.map (fun p => p.waiting) = [(ctlTo 9 4 0 0).src :: 3 :: []])
      ∧ (showingCtl (shows ready0 (ctlTo 10 4 0 0)) p1 10 = some (ctlTo 10 4 0 0) ∧ isPithead ready0 = true ∧ isReady ready0 = true ∧ ready0.power.inst = .on
          ∧ (ctlTo 10 4 0 0).src ≠ ready0.cw.instNum ∧ offPlanOf (storeRecs ready0) 4 = [] ∧ isReady late = false
          ∧ isPithead (worker id) = false ∧ showingCtl (shows (worker id) (ctlTo 10 0 4 0)) p1 10 = some (ctlTo 10 0 4 0))
      ∧ (showingCtl (shows (off ready0) (ctlTo 11 4 0 0)) p1 11 = some (ctlTo 11 4 0 0) ∧ (off ready0).power.hs = some (hs 4 [] .offAck false)
          ∧ bit (ctlTo 11 4 0 0).hdr 21 = false ∧ bit (ctlTo 11 4 0 (2 ^ 21)).hdr 21 = true)
      ∧ (showingCtl (shows ready0 (ctlTo 12 4 0 0)) p1 12 = some (ctlTo 12 4 0 0) ∧ (mesh []).cw.imageReady = true ∧ isReady (mesh []) = true
          ∧ (mesh []).power.inst = .on ∧ ready0.cw.imageReady = false ∧ showingCtl (shows (worker id) (ctlTo 12 4 0 0)) p1 12 = some (ctlTo 12 4 0 0))
      ∧ (usDue (at_ 10000 (plan [4])) 0 10000 = false ∧ usDue (at_ 10001 (plan [4])) 0 10000 = true)
      ∧ tget 0 ready0.cw.changing 2 = 0
      ∧ (tget 0 held.cw.changing 2 = 2 ∧ portBusy (linkOf held 1) 2 = false ∧ held.cw.held = [(2, 9, reqMsg 2 5)] ∧ (reqMsg 2 5).dst = 2
          ∧ pickRoute held 2 = some (0, 0) ∧ (reqMsg 2 5).hops + 1 ≤ hopLimit held
          ∧ (reqMsg 2 5).kind = .request ∧ (reqMsg 2 5).inp < 4 ∧ pickRoute (cwIs held (fun c => { c with route := [] })) 2 = none)
      ∧ (isPithead (mesh []) = true ∧ (meshOf (storeRecs (mesh []))).contains 4 = true ∧ (mesh []).cw.heard.contains 4 = false
          ∧ 4 ≠ (mesh []).cw.instNum ∧ usDue (mesh []) (mesh []).bring.releasedUs 80000 = true ∧ (mesh [4]).cw.missing.contains 4 = true) := by
  refine ⟨⟨by decide +kernel, ?_⟩, ?_⟩
  · intro ty h1 h2; interval_cases ty <;> decide +kernel
  · and_intros <;> decide +kernel

/-! Commands that name a unit the build does not have: one ill-formed term for each check. Each is refused, and changes nothing. -/

def isAbsent (c : Instr) : Bool := !Instr.wf build c && (match exec c (st ready0) with | .next t => t == st ready0 | _ => false)

theorem test_no_such_channel : isAbsent (.dredgeStep 2) = true := by decide +kernel
theorem test_no_such_port_channel : isAbsent (.rd { ch := 2, port := .M0 } beat) = true := by decide +kernel
theorem test_x0_is_internal : isAbsent (.wdatBeat { ch := 0, port := .X0 } wbeat) = true := by decide +kernel
theorem test_no_such_path : [Instr.pathGrant (.spine 0 8), .pathGrant (.spine 2 0), .pathGrant (.x0e 2), .pathGrant (.brX0 2)].all isAbsent = true := by
  decide +kernel
theorem test_no_such_bank : isAbsent (.bankSlotGrant 0 66) = true := by decide +kernel
theorem test_no_such_storm_channel : isAbsent (.conflictStorm { ch := 2, port := .X0 }) = true := by decide +kernel
theorem test_no_such_starved_place : [Instr.starve (.bank 2 0), .starve (.path (.x0e 2) 0)].all isAbsent = true := by decide +kernel
theorem test_no_such_wake : isAbsent (.wakeComplete (.chan 2)) = true := by decide +kernel
theorem test_no_such_peer : isAbsent (.beacon 2) = true := by decide +kernel
theorem test_no_such_input : isAbsent (.responseMessage (.peer 2)) = true := by decide +kernel
theorem test_no_such_context : isAbsent (.sweepEnd 64) = true := by decide +kernel

/-! Worked values of the manual. -/

/-- The reference build, and the example of 02: local address 0x000_0123_4580 under the three hashes. -/
def refBuild : Build := { channels := 8, bankSize := 2, peers := 4 }
def hashed (h : Nat) : Loc := locOf refBuild { Seam.init with hash := h, seed := 0x555 } (0x1234580 / 128)
theorem test_hash_h0 : hashed 0 = { ch := 2, bank := 11, row := 291 } := by decide +kernel
theorem test_hash_h1 : hashed 1 = { ch := 2, bank := 44, row := 291 } := by decide +kernel
theorem test_hash_h2 : hashed 2 = { ch := 2, bank := 43, row := 291 } := by decide +kernel

/-- R222: the word 1 has check byte 0x83. R223: one wrong bit is corrected, two are not. R224: the poisoned word. -/
theorem test_ecc_check_byte : eccEncode 1 = 0x83#8 := by decide +kernel
theorem test_ecc_corrects_one : eccDecode 0x8000000000000001 0x83 = { syn := 71, q := true, verdict := .corrected, data := 1 } := by decide +kernel
theorem test_ecc_detects_two : (eccDecode 0x8000000000000003 0x83).verdict = .uncorrectable := by decide +kernel
theorem test_ecc_poison : (eccDecode 0 3).verdict = .poisoned := by decide +kernel

/-- The example of 04: MXFP4 0b0111 under scale 0x7C is BF16 0x3F40, and 0b1010 is 0xBE00. -/
theorem test_mx_read : convRead 0x14 0x05 true 0x7C 7 = 0x3F40 ∧ convRead 0x14 0x05 true 0x7C 10 = 0xBE00 := by decide +kernel
/-- The example of 05: 3.0e38 + 1.0e38 becomes +infinity (R149). R150: the NaN of +infinity and -infinity has sign 0. -/
theorem test_add_overflows : redElem 1 0x7F61B1E6 0x7E967699 = 0x7F800000 := by decide +kernel
theorem test_add_infinities : redElem 1 0x7F800000 0xFF800000 = 0x7FC00000 := by decide +kernel
/-- R84, operation 0xA: INT32 sums. -/
theorem test_add_int : redElem 10 5 0xFFFFFFFE = 3 := by decide +kernel

/-! One step each, on the small state. -/

def after (c : Instr) (b : Block) : Block := match exec c (st b) with | .next t => t.blk | _ => b

/-- R489: the build register; R4: the version. -/
theorem test_read_version : (after (.g0Read 0 true) ready0).g0 = some { rdata := 0x030200, status := 0 } := by decide +kernel
/-- R469: a read of an offset without a register. -/
theorem test_read_unmapped : (after (.g0Read 0x178 true) ready0).g0 = some { rdata := 0, status := 2 } := by decide +kernel
/-- R71: HANG_CTL keeps 24 bits. -/
theorem test_write_hang_limit : (after (.registerWrite 0x0100 0xFFFFFFFF00000064 true) ready0).regs.hangCtl = 100 := by decide +kernel
/-- R481: CMDQ_TAIL more than 64 ahead is ignored, with BAD_TAIL. -/
theorem test_bad_tail : (after (.cmdqTail 65) ready0).cmdq.badTail = true ∧ (after (.cmdqTail 64) ready0).cmdq.tail = 64 := by decide +kernel
/-- R98: a request under another shift is aborted; R502: two cycles later. -/
theorem test_wrong_shift : (after (.rd m0 { beat with shift := 4 }) ready0).txns.map (fun x => (x.phase, x.due)) = [(.answered .aborted, 10000002)] := by
  decide +kernel
/-- R79: no request transfers before the instance is ready. -/
theorem test_not_ready : (after (.rd m0 beat) State.reset.blk).txns = [] := by decide +kernel
/-- R100: a request is accepted in one cycle, decoded in the next, and starts there: after that tick it is active. -/
theorem test_read_issues : (after (.rd m0 beat) ready0).txns.map (fun x => x.phase) = [.waiting .decode]
    ∧ (match step (st (after (.rd m0 beat) ready0)) with | .next t => t.blk.txns.map (fun x => x.phase) | _ => []) = [.active] := by decide +kernel
/-- R376, R377: CTX_OPEN opens a closed context with its job. -/
theorem test_ctx_open : (ctxOf (after .ctxOpen (queued ready0 0x600000010 0x200000009 0)) 6).state = .open
    ∧ (ctxOf (after .ctxOpen (queued ready0 0x600000010 0x200000009 0)) 6).job = 9 := by decide +kernel
/-- R376: CTX_OPEN of an open context is refused, and completes. -/
theorem test_ctx_open_refused : (after .ctxOpen (queued ready0 0x500000010 0 0)).cmdq.cplHead = 1
    ∧ (ctxOf (after .ctxOpen (queued ready0 0x500000010 0 0)) 5).job = 9 := by decide +kernel
/-- R161, R165: +infinity trips the canary of its context, and its site is VALID. -/
theorem test_canary_trips : (after (.checkPoint 0 0) badBlock).regs.canaryFlag = 1#64 <<< 5
    ∧ bit (ctxOf (after (.checkPoint 0 0) badBlock) 5).site 63 = true := by decide +kernel
/-- R291: a link that is down trains. -/
theorem test_link_trains : (linkOf (after (.train 1) ready0) 1).state = .training := by decide +kernel
/-- R401: AON_RST_N low empties the seam table. -/
theorem test_power_on_reset : (after (.aonRstN ⟨true, 0, true⟩) ready0).seams = [] := by decide +kernel
/-- The tick of an empty queue moves one cycle on (log 2). -/
theorem test_tick : (match step State.reset with | .next t => t.blk.now | _ => 0) = 1 := by decide +kernel
/-- R472: HALT that the block sets in the CLK_CTL cycle of the write stays 1; set before, the write clears it. -/
theorem test_set_wins : (let b := setChan ready0 0 (fun c => { c with dmaHalt := true })
    ((chan (after (.dmaResume 0) b) 0).dmaHalt, (chan (after (.dmaResume 0) { b with ctlClear := [(chOff 0 0x918, 1)] }) 0).dmaHalt)) = (false, true) := by
  decide +kernel
/-- R453: records of one CLK_TRC cycle enter in class order; a fifth one takes the place of the lowest. -/
theorem test_trace_order : (let o := { Observe.init with trcState := .armed }
    ([2, 5, 1, 3, 4].foldl (fun b k => trcEnter b k 0 0 0) { ready0 with obs := o }).obs.buffer.map (fun r => r.cls)) = [5, 4, 3, 2, 7] := by
  decide +kernel

end Sys2Proof.Tests
end

section
/-! PROOFS. The reset inputs and the drain of S0 (R281, R312, R398, R401, R496): what a reset of the core domain clears, what it keeps, and
what the record and the aborts before it leave alone. -/

namespace Sys2Proof.Machine

/-! The core domain cleared. -/

/-- What a reset of the core domain makes of the block `b`: nothing is outstanding, the registers and the command queue stand at their
reset values, every context is CLOSED under its next shift, and the retirement list stays (R378, R401, R435). -/
def CoreCleared (b c : Block) : Prop :=
  c.txns = [] ∧ c.ops = [] ∧ c.xfers = [] ∧ c.descs = [] ∧ c.seams = [] ∧ c.chans = [] ∧ c.tallies = [] ∧ c.marks = [] ∧ c.regs = Regs.init
    ∧ c.arb = Arb.init ∧ c.cmdq = CmdQ.init ∧ c.dbg = Debug.init ∧ c.bring.phase = 0 ∧ evtOn c.ev = false
    ∧ (∀ k, k < 64 → (ctxOf c k).state = .closed ∧ (ctxOf c k).shift = (ctxOf b k).shift + 1 ∧ (ctxOf c k).job = 0)
    ∧ c.rlog.retired = b.rlog.retired

/-- Of the block before, only the contexts and the retirement list matter. -/
theorem CoreCleared.of_source {b d c : Block} (h : CoreCleared d c) (hctx : d.ctxs = b.ctxs) (hret : d.rlog.retired = b.rlog.retired) :
    CoreCleared b c := by
  unfold CoreCleared ctxOf at h ⊢
  rwa [← hctx, ← hret]

/-- Of the block after, the causeway, the recovery and all of bring-up but its phase do not matter. -/
theorem CoreCleared.alwaysOn {b c : Block} (h : CoreCleared b c) (w : Causeway) (r : Recovery) (x : Bring) (hx : x.phase = c.bring.phase) :
    CoreCleared b { c with cw := w, recov := r, bring := x } := by
  unfold CoreCleared at h ⊢
  rwa [← hx] at h

/-- Reading a table that gives each number of a list its entry. -/
theorem tget_map_keys {α : Type} (d : α) (f : Nat → α) {l : List Nat} {k : Nat} (h : k ∈ l) : tget d (l.map (fun c => (c, f c))) k = f k := by
  induction l with
  | nil => exact absurd h List.not_mem_nil
  | cons i l ih =>
    by_cases hi : i = k
    · subst hi; simp [tget]
    · have hk : k ∈ l := (List.mem_cons.1 h).resolve_left (Ne.symm hi)
      simp [tget, hi, ih hk]

/-- The contexts after a reset: each is new, under its next shift (R378). -/
theorem tget_resetCtxs (b : Block) {k : Nat} (hk : k < 64) :
    tget Ctx.init (resetCtxs b) k = { Ctx.init with shift := (ctxOf b k).shift + 1, lastBump := some (usNow b) } :=
  tget_map_keys _ _ (List.mem_range.2 hk)

/-- A power cycle, where it is called for, changes the recovery, but not a drain, and the pending crash dump (R399, R400). -/
theorem powerCycle_ite_eq (again : Bool) (b : Block) : ∃ r d, r.draining = b.recov.draining
    ∧ (if again then powerCycle b else b) = { b with recov := r, bring := { b.bring with dumpPending := d } } := by
  unfold powerCycle
  dsimp only
  split
  · split
    · exact ⟨{ b.recov with lastLevel := 4, dumpWait := some (usNow b) }, true, rfl, rfl⟩
    · exact ⟨{ b.recov with lastLevel := 4, pwrCycleReq := true }, b.bring.dumpPending, rfl, rfl⟩
  · exact ⟨b.recov, b.bring.dumpPending, rfl, rfl⟩

/-- All that a reset of the core domain does (R401), whether a power cycle is called for or not: a running drain ends. -/
theorem resetCore_eq (b : Block) (level : Bool) : ∃ t o r d, r.draining = none ∧ resetCore b level =
    { b with
      zeroLines := [], seams := [], txns := [], xfers := [], ops := [], descs := [], paths := [], outs := [], chans := []
      ctxs := resetCtxs b, tallies := [], marks := [], marksDropped := 0, regs := Regs.init, arb := Arb.init
      sump := { Sump.init with stale := b.sump.stale ++ b.sump.out.map (fun r => r.id) }
      cw := { b.cw with latched := [] }, bring := { resetBring b.bring with dumpPending := d }, power := Power.init, recov := r
      safety := resetSafety b.safety, ev := resetEvents b.ev, rlog := { b.rlog with addr := 0 }, time := t, obs := o
      dbg := Debug.init, cmdq := CmdQ.init, g0 := none } := by
  obtain ⟨t, o, hp⟩ := setPower_eq b (fun _ => Power.init)
  unfold resetCore
  rw [hp]
  obtain ⟨r, d, hr, h⟩ := powerCycle_ite_eq _ _
  exact ⟨_, _, r, d, hr, h⟩

@[simp] theorem evtOn_resetEvents (e : Events) : evtOn (resetEvents e) = false := by
  simp [evtOn, resetEvents, Events.init, bit]

theorem resetCore_cleared (b : Block) (level : Bool) : CoreCleared b (resetCore b level) := by
  obtain ⟨t, o, r, d, -, h⟩ := resetCore_eq b level
  rw [h]
  refine ⟨rfl, rfl, rfl, rfl, rfl, rfl, rfl, rfl, rfl, rfl, rfl, rfl, rfl, evtOn_resetEvents _, fun k hk => ?_, rfl⟩
  simp only [ctxOf]
  rw [tget_resetCtxs b hk]
  exact ⟨rfl, rfl, rfl⟩

section
variable (b : Block) (level : Bool)

@[simp] theorem resetCore_inReset : (resetCore b level).bring.inReset = b.bring.inReset := by
  obtain ⟨_, _, _, _, -, h⟩ := resetCore_eq b level; rw [h]; rfl
@[simp] theorem resetCore_pins : (resetCore b level).bring.pins = b.bring.pins := by
  obtain ⟨_, _, _, _, -, h⟩ := resetCore_eq b level; rw [h]; rfl
@[simp] theorem resetCore_straps : (resetCore b level).bring.straps = b.bring.straps := by
  obtain ⟨_, _, _, _, -, h⟩ := resetCore_eq b level; rw [h]; rfl
@[simp] theorem resetCore_clkHeld : (resetCore b level).safety.clkHeld = b.safety.clkHeld := by
  obtain ⟨_, _, _, _, -, h⟩ := resetCore_eq b level; rw [h]; rfl
@[simp] theorem resetCore_jobs : (resetCore b level).cw.jobs = b.cw.jobs := by
  obtain ⟨_, _, _, _, -, h⟩ := resetCore_eq b level; rw [h]
@[simp] theorem resetCore_draining : (resetCore b level).recov.draining = none := by
  obtain ⟨_, _, _, _, hr, h⟩ := resetCore_eq b level; rw [h, hr]

end

/-! The release of the reset, and causeway reset. -/

theorem releaseCore_eq (b : Block) : ∃ i u, releaseCore b = { b with bring := { b.bring with inReset := i, releasedUs := u } } := by
  unfold releaseCore
  split
  · exact ⟨_, _, rfl⟩
  · exact ⟨b.bring.inReset, b.bring.releasedUs, rfl⟩

theorem releaseCore_inReset {b : Block} (hpins : b.bring.pins = 0) (hclk : b.safety.clkHeld = false) :
    (releaseCore b).bring.inReset = false := by
  rw [releaseCore, if_pos ⟨hpins, hclk⟩]

/-- A reset input that is low holds the reset. -/
theorem releaseCore_of_low {b : Block} (hpins : b.bring.pins ≠ 0) : releaseCore b = b := by
  rw [releaseCore, if_neg fun h => hpins h.1]

@[simp] theorem releaseCore_cw (b : Block) : (releaseCore b).cw = b.cw := by
  obtain ⟨_, _, h⟩ := releaseCore_eq b; rw [h]
@[simp] theorem releaseCore_usBase (b : Block) : (releaseCore b).usBase = b.usBase := by
  obtain ⟨_, _, h⟩ := releaseCore_eq b; rw [h]
@[simp] theorem releaseCore_recov (b : Block) : (releaseCore b).recov = b.recov := by
  obtain ⟨_, _, h⟩ := releaseCore_eq b; rw [h]

theorem CoreCleared.releaseCore {b c : Block} (h : CoreCleared b c) : CoreCleared b (releaseCore c) := by
  obtain ⟨i, u, hc⟩ := releaseCore_eq c
  rw [hc]
  exact h.alwaysOn c.cw c.recov _ rfl

theorem CoreCleared.resetCauseway {b c : Block} (h : CoreCleared b c) : CoreCleared b (resetCauseway c) :=
  h.alwaysOn _ _ c.bring rfl

/-! The record of the reset, and its aborts. -/

/-- A record leaves the retirement list of the retention log alone (R435). -/
@[simp] theorem emit_retired (b : Block) (ty : Nat) (ch : Option Nat) (c : Option (Nat × BitVec 8)) (x y z w : Word) :
    (emit b ty ch c x y z w).rlog.retired = b.rlog.retired := by
  obtain ⟨o, h⟩ := emitRecord_eq b (mkRecord b ty ch c x y z w)
  rw [emit, h]
  dsimp only
  split <;> rfl

/-- The record of a reset through an input touches the log's records, the pending queue and the trace alone. -/
theorem inputRecord_eq (b : Block) : ∃ l e o, l.retired = b.rlog.retired ∧ inputRecord b = { b with rlog := l, ev := e, obs := o } := by
  unfold inputRecord
  split
  · exact ⟨b.rlog, b.ev, b.obs, rfl, rfl⟩
  · have hret := emit_retired b 0x64 none none (put 0 4 6) 0 0 0
    obtain ⟨l, e, o, h⟩ := emit_eq b 0x64 none none (put 0 4 6) 0 0 0
    rw [h] at hret
    exact ⟨l, e, o, hret, h⟩

@[simp] theorem inputRecord_bring (b : Block) : (inputRecord b).bring = b.bring := by
  obtain ⟨_, _, _, -, h⟩ := inputRecord_eq b; rw [h]
@[simp] theorem inputRecord_ctxs (b : Block) : (inputRecord b).ctxs = b.ctxs := by
  obtain ⟨_, _, _, -, h⟩ := inputRecord_eq b; rw [h]
@[simp] theorem inputRecord_retired (b : Block) : (inputRecord b).rlog.retired = b.rlog.retired := by
  obtain ⟨_, _, _, hl, h⟩ := inputRecord_eq b; rw [h, hl]

/-- A message placed in the queue of a link changes the causeway, and counts. -/
theorem sendTo_eq (b : Block) (n : Nat) (m : Msg) : ∃ w o, sendTo b n m = { b with cw := w, obs := o } := by
  unfold sendTo
  split
  · exact ⟨_, b.obs, rfl⟩
  · dsimp only
    split
    · obtain ⟨o, h⟩ := count_eq b 0x3C { port := 10 + n } 1
      rw [h]
      exact ⟨_, o, rfl⟩
    · exact ⟨_, b.obs, rfl⟩

theorem flood_eq (b : Block) (skip : Option Nat) (m : Msg) : ∃ w o, flood b skip m = { b with cw := w, obs := o } := by
  refine foldl_inv (fun c => ∃ w o, c = { b with cw := w, obs := o }) _ ?_ _ b ⟨b.cw, b.obs, rfl⟩
  rintro _ n ⟨w, o, rfl⟩
  obtain ⟨w', o', h⟩ := sendTo_eq { b with cw := w, obs := o } n m
  exact ⟨w', o', h⟩

/-- A core in reset takes no delivery of an abort (R320). -/
theorem deliverAbort_inReset {b : Block} (h : b.bring.inReset = true) (a : Arrays) (job : BitVec 32) (pkg : BitVec 14) (src aseq : Nat)
    (cmd : Option Nat) : deliverAbort a b job pkg src aseq cmd = b := by
  simp [deliverAbort, isReady, h]

theorem deliverAbort_flood_inReset {b : Block} (hb : b.bring.inReset = true) (a : Arrays) (m : Msg) (job : BitVec 32) (pkg : BitVec 14)
    (src aseq : Nat) (cmd : Option Nat) : ∃ w o, deliverAbort a (flood b none m) job pkg src aseq cmd = { b with cw := w, obs := o } := by
  obtain ⟨w, o, h⟩ := flood_eq b none m
  rw [h]
  exact ⟨w, o, deliverAbort_inReset (by exact hb) a job pkg src aseq cmd⟩

theorem startPair_inReset {b : Block} (hb : b.bring.inReset = true) (a : Arrays) (p : BitVec 32 × BitVec 14) (cmd : Option Nat) :
    ∃ w o, startPair a b p cmd = { b with cw := w, obs := o } :=
  deliverAbort_flood_inReset (by exact hb) a _ p.1 p.2 _ _ cmd

/-- The aborts of a core in reset change the causeway, the abort outputs and the counters alone (R318, R320, R387). -/
theorem startAborts_inReset {b : Block} (hb : b.bring.inReset = true) (a : Arrays) (l : List (BitVec 32 × BitVec 14)) (cmd : Option Nat) :
    ∃ w r o, startAborts a b l cmd = { b with cw := w, recov := r, obs := o } := by
  unfold startAborts
  split
  · exact ⟨b.cw, b.recov, b.obs, rfl⟩
  · refine foldl_inv (fun c => ∃ w r o, c = { b with cw := w, recov := r, obs := o }) _ ?_ l _ ?_
    · rintro _ p ⟨w, r, o, rfl⟩
      obtain ⟨w', o', h⟩ := startPair_inReset (b := { b with cw := w, recov := r, obs := o }) hb a p cmd
      exact ⟨w', r, o', h⟩
    · exact ⟨b.cw, _, b.obs, rfl⟩

/-- Every CW_CTXJOBc entry is cleared; of what a reset looks at the aborts of a core in reset change nothing. -/
theorem resetAborts_inReset {b : Block} (hb : b.bring.inReset = true) (a : Arrays) :
    (resetAborts a b).ctxs = b.ctxs ∧ (resetAborts a b).rlog = b.rlog ∧ (resetAborts a b).bring = b.bring
      ∧ (resetAborts a b).cw.jobs = [] := by
  obtain ⟨w, r, o, h⟩ := startAborts_inReset hb a (jobPairs b) none
  unfold resetAborts
  rw [h]
  exact ⟨rfl, rfl, rfl, rfl⟩

/-! The reset asserted. -/

theorem assertCore_of_running {b : Block} (h : b.bring.inReset = false) :
    assertCore b = resetCore { b with bring := { b.bring with inReset := true } } true := by
  simp [assertCore, h]

/-- The reset asserted over a running core clears it. -/
theorem assertCore_cleared {b : Block} (h : b.bring.inReset = false) : CoreCleared b (assertCore b) := by
  rw [assertCore_of_running h]
  exact (resetCore_cleared _ true).of_source rfl rfl

/-- The reset asserted with its aborts clears a running core and every CW_CTXJOBc entry, and holds it in reset (R318, R412). -/
theorem dropCore_cleared {b : Block} (h : b.bring.inReset = false) (a : Arrays) :
    CoreCleared b (dropCore a b) ∧ (dropCore a b).bring.inReset = true ∧ (dropCore a b).cw.jobs = [] := by
  have hd : dropCore a b = resetCore (resetAborts a { b with bring := { b.bring with inReset := true } }) true := by simp [dropCore, h]
  obtain ⟨hctx, hlog, hbring, hjobs⟩ := resetAborts_inReset (b := { b with bring := { b.bring with inReset := true } }) rfl a
  rw [hd]
  exact ⟨(resetCore_cleared _ true).of_source hctx (by rw [hlog]), by simp [hbring], by simp [hjobs]⟩

/-! The reset inputs. -/

/-- INST_RST_N low on a running core that is powered (R496). -/
theorem instRst_low_cleared {b : Block} (hpow : b.power.inst ≠ .off) (h : b.bring.inReset = false) (a : Arrays) :
    CoreCleared b (instRst a b true) ∧ (instRst a b true).bring.inReset = true ∧ (instRst a b true).cw.jobs = [] := by
  have hi : instRst a b true = dropCore a (inputRecord { b with bring := { b.bring with pins := b.bring.pins ||| 1#3 } }) := by
    simp [instRst, hpow]
  obtain ⟨hc, hreset, hjobs⟩ :=
    dropCore_cleared (b := inputRecord { b with bring := { b.bring with pins := b.bring.pins ||| 1#3 } }) (by simpa using h) a
  rw [hi]
  exact ⟨hc.of_source (by simp) (by simp), hreset, hjobs⟩

/-- CW_RST_N low on a running core that is powered resets the core and the causeway, which takes the straps (R303, R312). -/
theorem cwRst_low_cleared {b : Block} (hpow : b.power.inst ≠ .off) (h : b.bring.inReset = false) (i : BitVec 6) (p : Bool) :
    CoreCleared b (cwRst b true i p) ∧ (cwRst b true i p).bring.inReset = true ∧ (cwRst b true i p).cw = Causeway.init i.toNat p := by
  obtain ⟨c, hcw, hctx, hret, hreset, hstraps⟩ : ∃ c, cwRst b true i p = resetCauseway (assertCore c) ∧ c.ctxs = b.ctxs
      ∧ c.rlog.retired = b.rlog.retired ∧ c.bring.inReset = false ∧ c.bring.straps = (i.toNat, p) := by
    refine ⟨_, if_neg hpow, ?_⟩
    simp [setStraps, h]
  rw [hcw]
  refine ⟨((assertCore_cleared hreset).resetCauseway).of_source hctx hret, ?_, ?_⟩ <;>
    simp [resetCauseway, assertCore_of_running hreset, hstraps]

/-- CW_RST_N high: the causeway holds the straps of the release, and the core leaves the reset where no other input is low. -/
theorem cwRst_high {b : Block} (hpow : b.power.inst ≠ .off) (i : BitVec 6) (p : Bool) :
    (cwRst b false i p).cw = Causeway.init i.toNat p
      ∧ (b.bring.pins &&& ~~~2#3 = 0 → b.safety.clkHeld = false → (cwRst b false i p).bring.inReset = false)
      ∧ (b.bring.pins &&& ~~~2#3 ≠ 0 → (cwRst b false i p).bring.inReset = b.bring.inReset) := by
  have hi : cwRst b false i p = releaseCore (resetCauseway (setStraps { b with bring := { b.bring with pins := b.bring.pins &&& ~~~2#3 } } i p)) := by
    simp [cwRst, setStraps, hpow]
  rw [hi]
  refine ⟨by simp [resetCauseway, setStraps], fun hp hc => releaseCore_inReset hp hc, fun hp => ?_⟩
  rw [releaseCore_of_low hp]
  rfl

/-- Off ignores INST_RST_N (R498). -/
theorem instRst_off {b : Block} (h : b.power.inst = .off) (a : Arrays) (low : Bool) : instRst a b low = b := by
  rw [instRst, if_pos h]

theorem cwRst_off {b : Block} (h : b.power.inst = .off) (low : Bool) (i : BitVec 6) (p : Bool) : cwRst b low i p = setStraps b i p := by
  simp [cwRst, setStraps, h]

/-- The release of AON_RST_N starts the µs ticks at the last REF_AON edge, and samples the straps (R39, R303). -/
theorem aonRst_high {b : Block} (hpin : b.bring.pins &&& 4#3 ≠ 0) (i : BitVec 6) (p : Bool) :
    (aonRst b false i p).usBase = lastRef b ∧ (aonRst b false i p).cw = Causeway.init i.toNat p := by
  rw [aonRst, if_neg Bool.false_ne_true, if_neg hpin]
  simp [resetCauseway, setStraps]

/-! The drain of S0. -/

theorem s0DrainEnd_due {b : Block} {f : Nat} (hd : b.recov.draining = some f)
    (due : b.sump.out = [] ∨ drainLimit b = 0 ∨ usDue b f (drainLimit b) = true) : s0DrainEnd b = releaseCore (assertCore b) := by
  simp [s0DrainEnd, hd, due]

theorem s0DrainEnd_early {b : Block} {f : Nat} (hd : b.recov.draining = some f) (hout : b.sump.out ≠ []) (hlim : drainLimit b ≠ 0)
    (hdue : usDue b f (drainLimit b) = false) : s0DrainEnd b = b := by
  simp [s0DrainEnd, hd, hout, hlim, hdue]

/-- The end of the drain resets a running core, and releases it at once where no reset input is low (R281, R398). -/
theorem releaseCore_assertCore {b : Block} (h : b.bring.inReset = false) :
    CoreCleared b (releaseCore (assertCore b)) ∧ (releaseCore (assertCore b)).recov.draining = none
      ∧ (b.bring.pins = 0 → b.safety.clkHeld = false → (releaseCore (assertCore b)).bring.inReset = false) := by
  have hd : (assertCore b).recov.draining = none ∧ (assertCore b).bring.pins = b.bring.pins
      ∧ (assertCore b).safety.clkHeld = b.safety.clkHeld := by simp [assertCore_of_running h]
  obtain ⟨hdrain, hpins, hclk⟩ := hd
  exact ⟨(assertCore_cleared h).releaseCore, by simp [hdrain], fun hp hc => releaseCore_inReset (hpins.trans hp) (hclk.trans hc)⟩

/-- Settles O35: each clause is the lemma about its reset input, or about the end of the drain. -/
theorem resetsReset : Obligations.ResetsReset := by
  unfold Obligations.ResetsReset
  intro s b cleared
  refine ⟨fun i p => ?_, fun i p hpin => ?_, fun low hoff => ?_, fun low i p hoff => ?_, fun hpow h => ?_, fun i p hpow h => ?_,
    fun i p hpow => ?_, fun f hd h => ⟨fun due => ?_, fun hout hlim hdue => ?_⟩⟩
  · -- AON_RST_N low is the power-on block, field by field.
    exact ⟨_, rfl, rfl, rfl, rfl, rfl, rfl, rfl, rfl, rfl, rfl, rfl, rfl, rfl, rfl, rfl⟩
  · exact ⟨_, rfl, rfl, aonRst_high hpin i p⟩
  · exact congrArg (done s) (instRst_off hoff s.arr low)
  · exact congrArg (done s) (cwRst_off hoff low i p)
  · exact ⟨_, rfl, rfl, instRst_low_cleared hpow h s.arr⟩
  · exact ⟨_, rfl, rfl, cwRst_low_cleared hpow h i p⟩
  · exact ⟨_, rfl, rfl, cwRst_high hpow i p⟩
  · exact ⟨_, congrArg (done s) (s0DrainEnd_due hd due), rfl, releaseCore_assertCore h⟩
  · exact congrArg (done s) (s0DrainEnd_early hd hout hlim hdue)

end Sys2Proof.Machine
end

section
/-! PROOFS. What the rows answer whose unit the build has, the values after reset, and the reports of arbitration (R65, R204, R205,
R220). -/

namespace Sys2Proof.Machine

/-- A row that names a unit of the build answers the block of its meaning. -/
theorem guarded_eq_next {ok : Bool} {s : State} {b c : Block} (hok : ok = true) (h : b = c) :
    guarded ok s b = .next { s with blk := c } := by
  subst hok h; rfl

/-- Settles O9: the reset block field by field; its tables are empty, so each channel, context and byte has its default (logs 4, 14, 15). -/
theorem resetValues : Obligations.ResetValues := by
  unfold Obligations.ResetValues
  refine ⟨rfl, rfl, rfl, rfl, rfl, rfl, rfl, rfl, rfl, rfl, rfl, rfl, rfl, ?_, ?_, ?_, rfl⟩
  · exact fun c _ => ⟨rfl, rfl⟩
  · exact fun n _ => ⟨rfl, fun r _ k _ slot _ => rfl⟩
  · exact fun k => rfl

/-! Storms and long steps. -/

theorem stepLong_due {b : Block} {us : Nat} {t : Word} (hfrom : b.arb.stepFrom = some (us, t)) (hlim : fld b.regs.stepCtl 0 32 ≠ 0)
    (hrep : b.arb.stepReported = false) (hdue : usDue b us (fld b.regs.stepCtl 0 32) = true) :
    stepLong b = emit { b with arb := { b.arb with stepReported := true } } 0x19 none none t (put 0 32 (fld b.regs.stepCtl 0 32)) := by
  simp [stepLong, hfrom, hlim, hrep, hdue]

theorem stepLong_early {b : Block} {us : Nat} {t : Word} (hfrom : b.arb.stepFrom = some (us, t))
    (h : fld b.regs.stepCtl 0 32 = 0 ∨ b.arb.stepReported = true ∨ usDue b us (fld b.regs.stepCtl 0 32) = false) : stepLong b = b := by
  unfold stepLong
  rw [hfrom]
  refine if_neg fun ⟨hlim, hrep, hdue⟩ => ?_
  simp [hlim, hrep, hdue] at h

/-! Starvation at a bank. -/

/-- The operation with this serial has written its record (R204). -/
def markReported (b : Block) (serial : Nat) : Block :=
  { b with ops := b.ops.map (fun o => if o.serial = serial then { o with reported := true } else o) }

/-- The record of a source of a channel that has written none in this budget window (R204): the source joins STARVED and the sources
that have reported. -/
theorem starveRecord_first {b : Block} {ch src : Nat} (hsrc : src ≤ 8) (hrep : (chan b ch).starveRep.contains src = false)
    (cls : Nat) (p3 : Word) (n : Nat) : ∃ c,
      starveRecord b (some ch) src cls p3 n = emit c 0x13 (some ch) none (p3 ||| put 0 4 src ||| put 4 3 cls ||| put 32 14 (min 8192 n))
        ∧ (chan c ch).starved = (chan b ch).starved ||| (1#9 <<< src) ∧ (chan c ch).starveRep = (chan b ch).starveRep ++ [src]
        ∧ { c with chans := b.chans } = b := by
  refine ⟨setChan (setChan b ch (fun c => { c with starved := c.starved ||| (1#9 <<< min src 8) })) ch
    (fun c => { c with starveRep := c.starveRep ++ [src] }), ?_, ?_, ?_, rfl⟩
  · simp only [starveRecord, chan_setChan_self, hrep, Bool.false_eq_true, if_false]
  · simp only [chan_setChan_self, min_eq_left hsrc]
  · simp only [chan_setChan_self]

theorem starveRow_bank_due {b : Block} {ch n : Nat} {op : LineOp} (hop : (bankWaiters b ch)[n]? = some op)
    (hown : opOwned b op = false) (hrep : op.reported = false) (hlim : reportAt b ≤ opWait b op) :
    starveRow b (.bank ch n) =
      starveRecord (markReported b op.serial) (some ch) (min 8 op.src) op.cls (put 8 3 (opCluster op)) (opWait b op) := by
  simp only [starveRow, hop, hown, hrep, hlim, and_self, if_true]
  rfl

theorem starveRow_bank_early {b : Block} {ch n : Nat} {op : LineOp} (hop : (bankWaiters b ch)[n]? = some op)
    (h : opOwned b op = true ∨ op.reported = true ∨ opWait b op < reportAt b) : starveRow b (.bank ch n) = b := by
  simp only [starveRow, hop]
  refine if_neg fun ⟨hown, hrep, hlim⟩ => ?_
  simp [hown, hrep, Nat.not_lt.2 hlim] at h

/-- Settles O29: each report is due or not by the condition of its row. A storm's THRESHOLD of 0 counts as 1 (log 89). -/
theorem arbitrationReports : Obligations.ArbitrationReports := by
  unfold Obligations.ArbitrationReports
  refine ⟨fun s p hch => ⟨fun hdue => ?_, fun hdue => ?_⟩, fun s us at_ hfrom => ⟨fun hlim hrep hdue => ?_, fun h => ?_⟩,
    fun s ch n op hch hop => ⟨fun h => ?_, fun hown hrep hlim hfirst => ?_⟩⟩
  · exact guarded_eq_next hch (if_pos hdue)
  · exact guarded_eq_next hch (if_neg (Bool.eq_false_iff.1 hdue))
  · exact congrArg (done s) (stepLong_due hfrom hlim hrep hdue)
  · exact congrArg (done s) (stepLong_early hfrom h)
  · exact guarded_eq_next hch (starveRow_bank_early hop h)
  · obtain ⟨c, hc, hstarved, hreps, hrest⟩ :=
      starveRecord_first (b := markReported s.blk op.serial) (Nat.min_le_left 8 op.src) hfirst op.cls (put 8 3 (opCluster op))
        (opWait s.blk op)
    refine ⟨c, guarded_eq_next hch ((starveRow_bank_due hop hown hrep hlim).trans hc), hstarved, hreps, ?_⟩
    exact congrArg (fun d : Block => { d with ops := s.blk.ops }) hrest

end Sys2Proof.Machine
end

section
/-! PROOFS. What drains, marks and grants change of a block (R182, R233, R253, R262, R265): a frame that drains and the tally logic share,
and where the held entries come from. -/

namespace Sys2Proof.Machine

/-! The frame. -/

/-- Everything of a block that drains, marks and grants leave alone. -/
def Block.undrained (b : Block) : Block :=
  { b with serial := 0, zeroLines := [], ops := [], chans := [], tallies := [], marks := [], marksDropped := 0,
           ev := Events.init, rlog := RLog.init, obs := Observe.init }

/-- A channel without its merge buffer. -/
def Channel.unmerged (c : Channel) : Channel := { c with merge := [] }

/-- `c` is `b` but for what drains, marks and grants change: of the channels the merge buffers alone, and the operations that have come are
drains. -/
structure DrainsTo (b c : Block) : Prop where
  fixed : c.undrained = b.undrained
  chan : ∀ j, (chan c j).unmerged = (chan b j).unmerged
  ops : ∀ o ∈ c.ops, o ∈ b.ops ∨ o.kind = .drain

theorem DrainsTo.refl (b : Block) : DrainsTo b b := ⟨rfl, fun _ => rfl, fun _ h => .inl h⟩

theorem DrainsTo.trans {b c d : Block} (hbc : DrainsTo b c) (hcd : DrainsTo c d) : DrainsTo b d :=
  ⟨hcd.fixed.trans hbc.fixed, fun j => (hcd.chan j).trans (hbc.chan j), fun o ho => (hcd.ops o ho).elim (hbc.ops o) .inr⟩

theorem DrainsTo.foldl {α : Type} {f : Block → α → Block} (h : ∀ b x, DrainsTo b (f b x)) (l : List α) (b : Block) :
    DrainsTo b (l.foldl f b) :=
  foldl_inv (DrainsTo b) f (fun c x hc => hc.trans (h c x)) l b (.refl b)

section
variable {b c : Block}

theorem DrainsTo.ctxs (h : DrainsTo b c) : c.ctxs = b.ctxs :=
  (congrArg Block.ctxs h.fixed :)
theorem DrainsTo.txns (h : DrainsTo b c) : c.txns = b.txns :=
  (congrArg Block.txns h.fixed :)

/-- A part of a channel that is not its merge buffer stays. -/
theorem DrainsTo.spare (h : DrainsTo b c) (j : Nat) : (Machine.chan c j).spare = (Machine.chan b j).spare :=
  (congrArg Channel.spare (h.chan j) :)

end

/-! Drains (R233). -/

theorem drainsTo_obs (b : Block) (o : Observe) : DrainsTo b { b with obs := o } := ⟨rfl, fun _ => rfl, fun _ h => .inl h⟩

theorem drainsTo_count (b : Block) (e : Nat) (t : Tap) (n : Nat) : DrainsTo b (count b e t n) := by
  obtain ⟨o, h⟩ := count_eq b e t n
  rw [h]
  exact drainsTo_obs b o

theorem drainsTo_ite {p : Prop} [Decidable p] {b c : Block} (h : DrainsTo b c) : DrainsTo b (if p then b else c) := by
  split
  · exact .refl b
  · exact h

theorem drainsTo_setMerge (b : Block) (ch serial : Nat) (f : MergeEntry → MergeEntry) : DrainsTo b (setMerge b ch serial f) := by
  refine ⟨rfl, fun j => ?_, fun _ h => .inl h⟩
  by_cases hj : ch = j
  · subst hj; simp [setMerge, Channel.unmerged]
  · simp [setMerge, hj]

theorem drainsTo_takeZero (a : Arrays) (seen b : Block) (op : LineOp) : DrainsTo b (takeZero a seen b op) := by
  unfold takeZero
  split
  · exact ⟨rfl, fun _ => rfl, fun _ h => .inl h⟩
  · exact .refl b

theorem drainsTo_dropClaims (b : Block) : DrainsTo b (dropClaims b) := ⟨rfl, fun _ => rfl, fun _ h => .inl h⟩

/-- A drain joins the operations. -/
theorem drainsTo_addDrain (b : Block) (n : Nat) {op : LineOp} (h : op.kind = .drain) :
    DrainsTo b { b with serial := n, ops := b.ops ++ [op] } := by
  refine ⟨rfl, fun _ => rfl, fun o ho => ?_⟩
  rcases List.mem_append.1 ho with ho | ho
  · exact .inl ho
  · exact .inr (by rw [List.mem_singleton.1 ho, h])

theorem startDrain_drainsTo (a : Arrays) (b : Block) (ch : Nat) (e : MergeEntry) : DrainsTo b (startDrain a b ch e) := by
  unfold startDrain
  split
  · exact .refl b
  · extract_lets op full op' d m
    have hd : DrainsTo b d := drainsTo_ite (drainsTo_count ..)
    exact ((hd.trans (drainsTo_addDrain d _ rfl)).trans (drainsTo_setMerge _ ch e.serial _)).trans (drainsTo_takeZero a m m _)

@[simp] theorem takeZero_tallies (a : Arrays) (seen b : Block) (op : LineOp) : (takeZero a seen b op).tallies = b.tallies := by
  unfold takeZero
  split <;> rfl

@[simp] theorem startDrain_tallies (a : Arrays) (b : Block) (ch : Nat) (e : MergeEntry) : (startDrain a b ch e).tallies = b.tallies := by
  unfold startDrain
  split
  · rfl
  · simp only [takeZero_tallies, setMerge, setChan_tallies]
    split
    · rfl
    · exact count_tallies ..

theorem drainWhere_drainsTo (a : Arrays) (b : Block) (ch : Nat) (p : MergeEntry → Bool) : DrainsTo b (drainWhere a b ch p) :=
  .foldl (fun b e => startDrain_drainsTo a b ch e) _ b

@[simp] theorem drainWhere_tallies (a : Arrays) (b : Block) (ch : Nat) (p : MergeEntry → Bool) :
    (drainWhere a b ch p).tallies = b.tallies :=
  foldl_inv (fun c => c.tallies = b.tallies) _ (fun c e hc => (startDrain_tallies a c ch e).trans hc) _ b rfl

/-! Marks and grants (R262, R265, R266). -/

theorem drainsTo_emit (b : Block) (ty : Nat) (ch : Option Nat) (c : Option (Nat × BitVec 8)) (x y z w : Word) :
    DrainsTo b (emit b ty ch c x y z w) := by
  obtain ⟨l, e, o, h⟩ := emit_eq b ty ch c x y z w
  rw [h]
  exact ⟨rfl, fun _ => rfl, fun _ h => .inl h⟩

theorem drainsTo_trace (b : Block) (c k : Nat) (t : Tap) (x : Option Nat) (p : Word) : DrainsTo b (trace b c k t x p) := by
  obtain ⟨o, h⟩ := trace_eq b c k t x p
  rw [h]
  exact drainsTo_obs b o

theorem drainsTo_traceTally (b : Block) (k : Nat) (t : Tally) : DrainsTo b (traceTally b k t) := by
  unfold traceTally
  exact drainsTo_trace ..

@[simp] theorem traceTally_tallies (b : Block) (k : Nat) (t : Tally) : (traceTally b k t).tallies = b.tallies := by
  simp [traceTally]

/-- Only the tally entries change. -/
theorem drainsTo_tallies (b : Block) (l : List Tally) : DrainsTo b { b with tallies := l } := ⟨rfl, fun _ => rfl, fun _ h => .inl h⟩

theorem drainsTo_marks (b : Block) (l : List Mark) (n : Nat) : DrainsTo b { b with marks := l, marksDropped := n } :=
  ⟨rfl, fun _ => rfl, fun _ h => .inl h⟩

theorem addMark_drainsTo (b : Block) (line span : Nat) : DrainsTo b (addMark b line span) := by
  unfold addMark
  split
  · exact drainsTo_marks b _ b.marksDropped
  · split
    · exact .refl b
    · exact (drainsTo_marks b _ _).trans (drainsTo_emit ..)

@[simp] theorem addMark_tallies (b : Block) (line span : Nat) : (addMark b line span).tallies = b.tallies := by
  unfold addMark
  split
  · rfl
  · split
    · rfl
    · exact emit_tallies ..

theorem grantTally_drainsTo (a : Arrays) (b : Block) (t : Nat) : DrainsTo b (grantTally a b t) := by
  unfold grantTally
  extract_lets c
  have hc : DrainsTo b c := drainsTo_tallies b _
  split
  · exact hc
  · exact (hc.trans (drainsTo_traceTally ..)).trans (drainWhere_drainsTo ..)

theorem grantTally_tallies (a : Arrays) (b : Block) (t : Nat) : (grantTally a b t).tallies =
    b.tallies.map (fun e => if e.idx = t then { e with state := .held, granting := true, leaseUs := usNow b } else e) := by
  unfold grantTally
  dsimp only
  split
  · rfl
  · rw [drainWhere_tallies, traceTally_tallies]
    rfl

theorem tallyGrants_drainsTo (a : Arrays) (b : Block) (ch : Nat) : DrainsTo b (tallyGrants a b ch) :=
  .foldl (fun b (e : Tally) => drainsTo_ite (grantTally_drainsTo a b e.idx)) _ b

theorem tallyGrantsAll_drainsTo (a : Arrays) (b : Block) : DrainsTo b (tallyGrantsAll a b) :=
  .foldl (fun b ch => tallyGrants_drainsTo a b ch) _ b

theorem breakTallies_drainsTo (a : Arrays) (b : Block) (p : Tally → Bool) (toLost : Bool) (dropLost : Tally → Bool) :
    DrainsTo b (breakTallies a b p toLost dropLost) :=
  ((DrainsTo.foldl (fun b (e : Tally) => addMark_drainsTo b e.line e.span) _ b).trans (drainsTo_tallies _ _)).trans
    (tallyGrantsAll_drainsTo a _)

/-! Where the held entries come from. -/

theorem mem_insertBy {α : Type} (key : α → Nat) {x y : α} {l : List α} : x ∈ insertBy key y l ↔ x = y ∨ x ∈ l := by
  induction l with
  | nil => simp [insertBy]
  | cons z l ih =>
    unfold insertBy
    split
    · simp
    · simp only [List.mem_cons, ih]
      tauto

theorem mem_foldl_insertBy {α : Type} (key : α → Nat) {x : α} {l acc : List α} (h : x ∈ l.foldl (fun a y => insertBy key y a) acc) :
    x ∈ l ∨ x ∈ acc := by
  induction l generalizing acc with
  | nil => exact .inr h
  | cons z l ih =>
    rcases ih h with hl | hacc
    · exact .inl (List.mem_cons_of_mem z hl)
    · rcases (mem_insertBy key).1 hacc with rfl | hacc
      · exact .inl List.mem_cons_self
      · exact .inr hacc

theorem mem_of_mem_sortBy {α : Type} (key : α → Nat) {x : α} {l : List α} (h : x ∈ sortBy key l) : x ∈ l :=
  (mem_foldl_insertBy key h).resolve_right List.not_mem_nil

/-- The entries `m` are those of `l`, of which some that share their number with a waiting entry are held now. -/
def GrantedFrom (l m : List Tally) : Prop :=
  ∀ t ∈ m, ∃ e ∈ l, e.idx = t.idx ∧ e.ch = t.ch ∧ e.ctx = t.ctx
    ∧ (e.state = t.state ∨ t.state = .held ∧ ∃ w ∈ l, w.idx = t.idx ∧ w.state = .waiting)

theorem GrantedFrom.refl (l : List Tally) : GrantedFrom l l := fun t ht => ⟨t, ht, rfl, rfl, rfl, .inl rfl⟩

/-- A grant of an entry that waits. -/
theorem GrantedFrom.grantTally {l : List Tally} {b : Block} (h : GrantedFrom l b.tallies) {w : Tally} (hw : w ∈ l)
    (hwait : w.state = .waiting) (a : Arrays) : GrantedFrom l (grantTally a b w.idx).tallies := by
  intro t ht
  rw [grantTally_tallies] at ht
  obtain ⟨u, hu, rfl⟩ := List.mem_map.1 ht
  obtain ⟨e, he, hidx, hch, hctx, hstate⟩ := h u hu
  split
  · next hgrant => exact ⟨e, he, hidx, hch, hctx, .inr ⟨rfl, w, hw, hgrant.symm, hwait⟩⟩
  · exact ⟨e, he, hidx, hch, hctx, hstate⟩

theorem GrantedFrom.trans {l m n : List Tally} (hlm : GrantedFrom l m) (hmn : GrantedFrom m n) : GrantedFrom l n := by
  intro t ht
  obtain ⟨e, he, hidx, hch, hctx, hstate⟩ := hmn t ht
  obtain ⟨f, hf, hidx', hch', hctx', hstate'⟩ := hlm e he
  refine ⟨f, hf, hidx'.trans hidx, hch'.trans hch, hctx'.trans hctx, ?_⟩
  rcases hstate with hsame | ⟨hheld, w, hw, hwidx, hwait⟩
  · rw [← hsame, ← hidx]
    exact hstate'
  · -- The entry that waited in `m` waited in `l` as well: a grant makes none wait.
    obtain ⟨v, hv, hvidx, -, -, hvstate⟩ := hlm w hw
    rcases hvstate with hvwait | ⟨hwheld, -⟩
    · exact .inr ⟨hheld, v, hv, hvidx.trans hwidx, hvwait.trans hwait⟩
    · rw [hwait] at hwheld
      cases hwheld

theorem tallyGrants_granted (a : Arrays) (b : Block) (ch : Nat) : GrantedFrom b.tallies (tallyGrants a b ch).tallies := by
  unfold tallyGrants
  refine List.foldlRecOn (motive := fun c : Block => GrantedFrom b.tallies c.tallies) _ _ (.refl _) fun c hc w hw => ?_
  obtain ⟨hmem, hwait⟩ := List.mem_filter.1 (mem_of_mem_sortBy _ hw)
  split
  · exact hc
  · exact hc.grantTally hmem (by simp_all) a

theorem tallyGrantsAll_granted (a : Arrays) (b : Block) : GrantedFrom b.tallies (tallyGrantsAll a b).tallies :=
  foldl_inv (fun c : Block => GrantedFrom b.tallies c.tallies) _ (fun c ch hc => hc.trans (tallyGrants_granted a c ch)) _ b (.refl _)

/-- A held entry that is broken is lost (R265). -/
def brokenEntry (p : Tally → Bool) (e : Tally) : Tally :=
  if e.state = .held ∧ p e = true then { e with state := .lost, granting := false } else e

/-- Of the entries some go, held ones are broken, and then the waiting ones that can be are granted. -/
theorem breakTallies_granted (a : Arrays) (b : Block) (p : Tally → Bool) (toLost : Bool) (dropLost : Tally → Bool) :
    ∃ m, GrantedFrom m (breakTallies a b p toLost dropLost).tallies ∧ ∀ e ∈ m, ∃ u ∈ b.tallies, e = brokenEntry p u := by
  unfold breakTallies
  extract_lets held c keep
  refine ⟨_, tallyGrantsAll_granted a _, fun e he => ?_⟩
  obtain ⟨u, hu, rfl⟩ := List.mem_map.1 he
  have hc : c.tallies = b.tallies :=
    foldl_inv (fun c : Block => c.tallies = b.tallies) _ (fun c e hc => (addMark_tallies c e.line e.span).trans hc) _ b rfl
  exact ⟨u, hc ▸ (List.mem_filter.1 hu).1, rfl⟩

/-- Where the broken entries are those of a channel or a context, an entry of it that is held afterwards was granted: an entry with its
number waited before (R262, R265). -/
theorem breakTallies_held {a : Arrays} {b : Block} {p : Tally → Bool} {toLost : Bool} {dropLost : Tally → Bool} {t : Tally}
    (ht : t ∈ (breakTallies a b p toLost dropLost).tallies) (hheld : t.state = .held)
    (hp : ∀ e : Tally, e.ch = t.ch → e.ctx = t.ctx → p e = true) : ∃ e ∈ b.tallies, e.idx = t.idx ∧ e.state ≠ .held := by
  obtain ⟨m, hgranted, hbroken⟩ := breakTallies_granted a b p toLost dropLost
  obtain ⟨e, he, hidx, hch, hctx, hstate⟩ := hgranted t ht
  rcases hstate with hsame | ⟨-, w, hw, hwidx, hwait⟩
  · obtain ⟨u, -, rfl⟩ := hbroken e he
    have hlost : (brokenEntry p u).state ≠ .held := by
      unfold brokenEntry at hch hctx ⊢
      split
      · simp
      · next h =>
        rw [if_neg h] at hch hctx
        exact fun hu => h ⟨hu, hp u hch hctx⟩
    exact absurd (hsame.trans hheld) hlost
  · obtain ⟨u, hu, rfl⟩ := hbroken w hw
    unfold brokenEntry at hwidx hwait
    split at hwait
    · cases hwait
    · next h =>
      rw [if_neg h] at hwidx
      exact ⟨u, hu, hwidx, by simp [hwait]⟩

end Sys2Proof.Machine
end

section
/-! PROOFS. Hangs and channel recovery (R70 to R74, R391 to R397): the fault of a context, the freeze and the reset of a channel, and the
replays of its suspects. -/

namespace Sys2Proof.Machine

/-! A context that is FAULTED (R72). -/

@[simp] theorem answerTxn_uid (st : Status) (due : Nat) (x : Txn) : (answerTxn st due x).uid = x.uid := by
  unfold answerTxn
  split <;> rfl

@[simp] theorem answerTxn_hung (st : Status) (due : Nat) (x : Txn) : (answerTxn st due x).hung = x.hung := by
  unfold answerTxn
  split <;> rfl

/-- Every request of `c` is one of `b`, hung where that one is. -/
def HungAs (b c : Block) : Prop := ∀ y ∈ c.txns, ∃ x ∈ b.txns, x.uid = y.uid ∧ x.hung = y.hung

theorem HungAs.answer {b c : Block} (h : HungAs b c) (uid : Nat) (st : Status) (due : Nat) : HungAs b (answer c uid st due) := by
  intro y hy
  obtain ⟨x, hx, rfl⟩ := List.mem_map.1 hy
  obtain ⟨z, hz, huid, hhung⟩ := h x hx
  refine ⟨z, hz, ?_⟩
  split <;> simp [huid, hhung]

/-- The context is marked, and answers change no request's place or mark. -/
theorem faultCtx_spec (a : Arrays) (b : Block) (k : Nat) : (ctxOf (faultCtx a b k) k).faulted = true ∧ HungAs b (faultCtx a b k) := by
  unfold faultCtx
  extract_lets acq c
  have hbreak := breakTallies_drainsTo a (setCtx b k (fun x => { x with faulted := true })) (fun t => t.ctx == k) false (fun _ => false)
  refine foldl_inv (fun d => (ctxOf d k).faulted = true ∧ HungAs b d) (fun d u => answer d u .aborted (d.now + 1))
    (fun d u ⟨hf, hh⟩ => ⟨hf, hh.answer u .aborted (d.now + 1)⟩) acq c ⟨?_, ?_⟩
  · have hctxs : c.ctxs = (setCtx b k (fun x => { x with faulted := true })).ctxs := hbreak.ctxs
    rw [ctxOf, hctxs]
    exact congrArg Ctx.faulted (ctxOf_setCtx_self b k _)
  · intro y hy
    exact ⟨y, hbreak.txns ▸ hy, rfl, rfl⟩

/-- The watchdog finds a request that is held after a decode failure: its open context is FAULTED, and a record follows (R70 to R72). -/
theorem hangWatchdog_decodeHeld {b : Block} {p : PortId} {id : BitVec 8} {x : Txn} {code : Nat}
    (hfind : (portTxns b p).find? (fun x => x.req.id == id && !x.hung && decide (hangLimit b ≤ x.age)) = some x)
    (hphase : x.phase = .decodeHeld code) (hcode : code ≠ 0) (hopen : (ctxOf b x.req.ctx.toNat).state = .open) (a : Arrays) :
    ∃ p3 p4, hangWatchdog a b p id =
      emit (faultCtx a (setTxn b x.uid (fun x => { x with hung := true })) x.req.ctx.toNat) 0x10 (some p.ch)
        (some (x.req.ctx.toNat, x.req.shift)) p3 p4 := by
  refine ⟨put 0 48 x.req.addr.toNat ||| put 48 4 (portCode p.port) ||| put 52 4 code, put 0 8 x.req.id.toNat, ?_⟩
  simp only [hangWatchdog, hfind, hphase, hcode, if_false, ctxOf_setTxn, hopen, if_true]

theorem hangWatchdog_none {b : Block} {p : PortId} {id : BitVec 8}
    (hfind : (portTxns b p).find? (fun x => x.req.id == id && !x.hung && decide (hangLimit b ≤ x.age)) = none) (a : Arrays) :
    hangWatchdog a b p id = b := by
  simp only [hangWatchdog, hfind]

/-! The grant check and the freeze (R391, R392). -/

theorem markSuspects_eq (b : Block) (l : List Nat) (v : Bool) : ∃ q, markSuspects b l v = { b with ctxs := q } := by
  refine foldl_inv (fun c => ∃ q, c = { b with ctxs := q }) _ ?_ l b ⟨b.ctxs, rfl⟩
  rintro _ k ⟨q, rfl⟩
  exact ⟨_, rfl⟩

section
variable (b : Block) (l : List Nat) (v : Bool)

@[simp] theorem chan_markSuspects (n : Nat) : chan (markSuspects b l v) n = chan b n := by
  obtain ⟨_, h⟩ := markSuspects_eq b l v; rw [h]; rfl
@[simp] theorem markSuspects_txns : (markSuspects b l v).txns = b.txns := by
  obtain ⟨_, h⟩ := markSuspects_eq b l v; rw [h]
@[simp] theorem markSuspects_ops : (markSuspects b l v).ops = b.ops := by
  obtain ⟨_, h⟩ := markSuspects_eq b l v; rw [h]
@[simp] theorem markSuspects_recov : (markSuspects b l v).recov = b.recov := by
  obtain ⟨_, h⟩ := markSuspects_eq b l v; rw [h]

end

theorem markSuspects_suspect (b : Block) {l : List Nat} {k : Nat} (hk : k ∈ l) (v : Bool) :
    (ctxOf (markSuspects b l v) k).suspect = v := by
  induction l using List.reverseRecOn with
  | nil => exact absurd hk List.not_mem_nil
  | append_singleton l j ih =>
    rw [markSuspects, List.foldl_append, List.foldl_cons, List.foldl_nil]
    by_cases hj : j = k
    · subst hj
      rw [ctxOf_setCtx_self]
    · rw [ctxOf_setCtx_ne _ _ hj]
      exact ih ((List.mem_append.1 hk).resolve_right (by simpa using Ne.symm hj))

/-- The sounding of a recovery changes the observation unit, and the command whose copy it cuts short (R461). -/
theorem soundingRecovery_eq (b : Block) (ch : Nat) : ∃ q o, soundingRecovery b ch = { b with cmdq := q, obs := o } := by
  unfold soundingRecovery capture
  dsimp only
  split
  · obtain ⟨q, h⟩ := completeIf_eq b b.obs.sndCmd cRefused rBusy 0
    rw [h]
    exact ⟨q, _, rfl⟩
  · exact ⟨b.cmdq, _, rfl⟩

/-- The freeze of a channel while no handshake runs (R392 step 2). -/
theorem freezeChan_eq {b : Block} (hhs : b.power.hs = none) (n : Nat) (r : Recov) : ∃ q o, freezeChan b n r =
    { markSuspects (setChan b n (fun c => { c with recov := some { r with phase := .reset, suspects := suspectsOf b n } })) (suspectsOf b n)
      true with
      recov := { b.recov with chRecoveries := satAdd 65535 b.recov.chRecoveries 1, lastLevel := 2 }, cmdq := q, obs := o } := by
  simp only [freezeChan, hhs, Bool.false_eq_true, if_false, markSuspects_recov, setChan_recov]
  exact soundingRecovery_eq _ n

/-- Its recovery goes on to its reset, and the suspects are fixed and flagged. -/
theorem freezeChan_spec {b : Block} (hhs : b.power.hs = none) (n : Nat) (r : Recov) :
    (chan (freezeChan b n r) n).recov = some { r with phase := .reset, suspects := suspectsOf b n }
      ∧ (∀ k ∈ suspectsOf b n, (ctxOf (freezeChan b n r) k).suspect = true)
      ∧ (freezeChan b n r).txns = b.txns ∧ (freezeChan b n r).ops = b.ops := by
  obtain ⟨q, o, h⟩ := freezeChan_eq hhs n r
  rw [h]
  refine ⟨?_, fun k hk => markSuspects_suspect _ hk true, markSuspects_txns .., markSuspects_ops ..⟩
  exact congrArg Channel.recov ((chan_markSuspects ..).trans (chan_setChan_self ..))

theorem stallCheck_early {b : Block} {n : Nat} {r : Recov} (hr : (chan b n).recov = some r) (hdue : usDue b r.fromUs 2 = false)
    (a : Arrays) : stallCheck a b n = b := by
  simp [stallCheck, hr, hdue]

theorem stallCheck_stalled {b : Block} {n : Nat} {r : Recov} (hr : (chan b n).recov = some r) (hphase : r.phase = .check)
    (hdue : usDue b r.fromUs 2 = true) (hgrants : (chan b n).grants = r.grants0) (hauto : bit b.regs.recovCtl 1 = true)
    (hwaits : (bankWaiters b n).any (fun o => decide (o.readyAt ≤ r.startAt)) = true) (a : Arrays) :
    stallCheck a b n = freezeChan b n r := by
  simp [stallCheck, hr, hphase, hdue, hgrants, hauto, hwaits]

/-! The channel reset (R392 step 3, R395). -/

/-- No operation before its point of no return stays in a channel that is reset; only drains of its merge entries come. -/
theorem clearChan_spec (a : Arrays) (b : Block) (n : Nat) : ∃ c, DrainsTo c (clearChan a b n).1 ∧ c.chans = b.chans
    ∧ (clearChan a b n).1.tallies = b.tallies ∧ ∀ o ∈ c.ops, o.ch = n → beforeCommit o = false := by
  unfold clearChan
  extract_lets acq gone inPath c
  refine ⟨c, (drainWhere_drainsTo a c n _).trans (drainsTo_dropClaims _), rfl, drainWhere_tallies a c n _, fun o ho hch => ?_⟩
  have hkeep := (List.mem_filter.1 ho).2
  simpa [hch] using hkeep

theorem beforeCommit_of_drain {o : LineOp} (h : o.kind = .drain) : beforeCommit o = false := by simp [beforeCommit, h]

theorem beforeCommit_of_replay {o : LineOp} (h : o.kind = .replay) : beforeCommit o = false := by simp [beforeCommit, h, bySequencer]

/-! Replays (R393). -/

/-- The operation that replays a line of a request of a suspect. -/
def replayOp (b : Block) (n : Nat) (x : Txn) (line : Nat) : LineOp :=
  { mkOp b x (portIssuer x.org) .replay (seamNo b line) (seamOf b (seamNo b line)).format line n 0 0 0 (b.serial + 1) with
    readyAt := b.now + 1 }

theorem postReplay_eq (a : Arrays) (b : Block) (n : Nat) (x : Txn) :
    postReplay a b n x = (replayLines a b x).foldl (fun b line => postOp b (replayOp b n x line)) b := rfl

/-- The lines of a replay bid for their slots. -/
theorem postReplay_spec (a : Arrays) (b : Block) (n : Nat) (x : Txn) : ∃ l m,
    postReplay a b n x = { b with ops := b.ops ++ l, serial := m }
    ∧ l.map (fun o => o.line) = replayLines a b x
    ∧ ∀ o ∈ l, o.kind = .replay ∧ o.stage = .bank ∧ o.no = n ∧ o.uid = x.uid ∧ o.readyAt = b.now + 1 := by
  rw [postReplay_eq]
  induction replayLines a b x using List.reverseRecOn with
  | nil => exact ⟨[], b.serial, by simp, rfl, by simp⟩
  | append_singleton lines line ih =>
    obtain ⟨l, m, h, hlines, hops⟩ := ih
    rw [List.foldl_append, h]
    refine ⟨l ++ [replayOp { b with ops := b.ops ++ l, serial := m } n x line], m + 1, ?_, ?_, fun o ho => ?_⟩
    · simp only [List.foldl_cons, List.foldl_nil, postOp, List.append_assoc]
    · rw [List.map_append, hlines]
      rfl
    · rcases List.mem_append.1 ho with ho | ho
      · exact hops o ho
      · rw [List.mem_singleton.1 ho]
        exact ⟨rfl, rfl, rfl, rfl, rfl⟩

/-- The block whose channel `n` recovers by `r`, with a replay that begins now. -/
def replaying (b : Block) (n : Nat) (r : Recov) : Block := setChan b n (fun c => { c with recov := some { r with replayUs := usNow b } })

theorem nextSuspect_cons {r : Recov} {k : Nat} {rest : List Nat} (hleft : r.left = k :: rest) (a : Arrays) (b : Block) (n : Nat) :
    nextSuspect a b n r =
      ((r.last.find? (fun e => e.1 == k)).bind (fun e => txnOf b e.2)).elim (replaying b n r) (postReplay a (replaying b n r) n) := by
  cases r
  dsimp only at hleft
  subst hleft
  simp only [nextSuspect, txnOf_setChan]
  split <;> next h => rw [h]; rfl

/-- A suspect without a last operation has nothing to replay. -/
theorem nextSuspect_none {b : Block} {r : Recov} {k : Nat} {rest : List Nat} (hleft : r.left = k :: rest)
    (hlast : r.last.find? (fun e => e.1 == k) = none) (a : Arrays) (n : Nat) : nextSuspect a b n r = replaying b n r := by
  rw [nextSuspect_cons hleft, hlast]
  rfl

theorem nextSuspect_some {b : Block} {r : Recov} {k u : Nat} {rest : List Nat} {x : Txn} (hleft : r.left = k :: rest)
    (hlast : r.last.find? (fun e => e.1 == k) = some (k, u)) (hx : txnOf b u = some x) (a : Arrays) (n : Nat) :
    nextSuspect a b n r = postReplay a (replaying b n r) n x := by
  rw [nextSuspect_cons hleft, hlast, Option.bind_some, hx]
  rfl

theorem chan_replaying (b : Block) (n : Nat) (r : Recov) :
    chan (replaying b n r) n = { chan b n with recov := some { r with replayUs := usNow b } } := chan_setChan_self ..

/-- The next suspect's turn: only replays join the operations. -/
theorem nextSuspect_spec {r : Recov} (hleft : r.left ≠ []) (a : Arrays) (b : Block) (n : Nat) :
    chan (nextSuspect a b n r) n = { chan b n with recov := some { r with replayUs := usNow b } }
      ∧ (nextSuspect a b n r).tallies = b.tallies ∧ ∀ o ∈ (nextSuspect a b n r).ops, o ∈ b.ops ∨ o.kind = .replay := by
  obtain ⟨k, rest, hk⟩ := List.exists_cons_of_ne_nil hleft
  rw [nextSuspect_cons hk]
  cases (r.last.find? (fun e => e.1 == k)).bind (fun e => txnOf b e.2) with
  | none => exact ⟨chan_replaying b n r, rfl, fun o ho => .inl ho⟩
  | some x =>
    obtain ⟨l, m, h, -, hops⟩ := postReplay_spec a (replaying b n r) n x
    rw [Option.elim_some, h]
    exact ⟨(chan_replaying b n r :), rfl, fun o ho => (List.mem_append.1 ho).imp_right fun hl => (hops o hl).1⟩

theorem replayComplete_busy {b : Block} {n : Nat} (h : b.ops.any (fun o => o.kind == .replay && o.no == n) = true) (a : Arrays) :
    replayComplete a b n = b := by
  unfold replayComplete
  split
  · rfl
  · split
    · exact if_pos h
    · rfl

/-- The suspect whose replay has completed is innocent: the next one's turn (R393). -/
theorem replayComplete_done {b : Block} {n k : Nat} {rest : List Nat} {r : Recov} (hr : (chan b n).recov = some r)
    (hphase : r.phase = .replay) (hleft : r.left = k :: rest) (h : b.ops.any (fun o => o.kind == .replay && o.no == n) = false)
    (a : Arrays) :
    replayComplete a b n = nextSuspect a b n { r with left := rest } := by
  cases r
  dsimp only at hphase hleft
  subst hphase hleft
  simp only [replayComplete, hr, h, Bool.false_eq_true, if_false]

/-- The suspect that replays longer than REPLAY_LIMIT is guilty, and its replay ends (R393). -/
theorem replayLimitRow_due {b : Block} {n k : Nat} {rest : List Nat} {r : Recov} (hr : (chan b n).recov = some r)
    (hphase : r.phase = .replay) (hleft : r.left = k :: rest) (hdue : usDue b r.replayUs (replayLimit b) = true) (a : Arrays) :
    replayLimitRow a b n = nextSuspect a { b with ops := b.ops.filter (fun o => o.kind != .replay || o.no != n) } n
      { r with left := rest, guilty := r.guilty ++ [k] } := by
  cases r
  dsimp only at hphase hleft hdue
  subst hphase hleft
  simp only [replayLimitRow, hr, hdue, if_true]

theorem replayLimitRow_early {b : Block} {n : Nat} {r : Recov} (hr : (chan b n).recov = some r)
    (hdue : usDue b r.replayUs (replayLimit b) = false) (a : Arrays) : replayLimitRow a b n = b := by
  unfold replayLimitRow
  rw [hr]
  dsimp only
  split
  · exact if_neg (by simp [hdue])
  · rfl

/-! The end of the reset, and a late recovery (R395, R397). -/

/-- The block once the units of a channel are cleared and its tallies broken (R392 step 3). -/
def clearedBlock (a : Arrays) (b : Block) (n : Nat) : Block :=
  breakTallies a (clearChan a b n).1 (fun t => t.ch == n) true (fun _ => false)

/-- The recovery at the end of the reset: every suspect has yet to replay its last operation. -/
def resetRecov (a : Arrays) (b : Block) (n : Nat) (r : Recov) : Recov :=
  { r with
    phase := .replay
    last := r.suspects.filterMap (fun c => (lastOf (clearChan a b n).1 (clearChan a b n).2 c).map (fun u => (c, u)))
    removed := (clearChan a b n).2, left := if r.replay then r.suspects else [], replayUs := usNow (clearChan a b n).1 }

theorem clearedBlock_spec (a : Arrays) (b : Block) (n : Nat) :
    (chan (clearedBlock a b n) n).spare = (chan b n).spare
      ∧ (∀ o ∈ (clearedBlock a b n).ops, o.ch = n → beforeCommit o = false)
      ∧ ∀ t ∈ (clearedBlock a b n).tallies, t.ch = n → t.state = .held → ∃ e ∈ b.tallies, e.idx = t.idx ∧ e.state ≠ .held := by
  obtain ⟨c, hclear, hchans, htallies, hops⟩ := clearChan_spec a b n
  have hc : DrainsTo c (clearedBlock a b n) := hclear.trans (breakTallies_drainsTo ..)
  refine ⟨?_, fun o ho hch => ?_, fun t ht hch hheld => ?_⟩
  · rw [hc.spare n, chan, hchans, chan]
  · exact (hc.ops o ho).elim (fun h => hops o h hch) beforeCommit_of_drain
  · exact htallies ▸ breakTallies_held ht hheld (fun e he _ => by simp [he, hch])

theorem channelResetDone_eq {b : Block} {n : Nat} {r : Recov} (hr : (chan b n).recov = some r) (hphase : r.phase = .reset)
    (hspare : (chan b n).spare.phase = 0) (a : Arrays) : channelResetDone a b n =
      nextSuspect a (setChan (clearedBlock a b n) n (fun c => { c with recov := some (resetRecov a b n r), dmaHalt := false })) n
        (resetRecov a b n r) := by
  have hcleared : (chan (clearedBlock a b n) n).spare.phase = 0 := by rw [(clearedBlock_spec a b n).1, hspare]
  simp only [channelResetDone, hr, hphase, ne_eq, not_true_eq_false, if_false]
  exact congrArg (fun d => nextSuspect a (setChan d n (fun c => { c with recov := some (resetRecov a b n r), dmaHalt := false })) n
    (resetRecov a b n r)) (if_pos hcleared)

/-- The reset of a channel with suspects and no sparing ends: the replay of the first suspect begins. -/
theorem channelResetDone_spec {b : Block} {n : Nat} {r : Recov} (hr : (chan b n).recov = some r) (hphase : r.phase = .reset)
    (hreplay : r.replay = true) (hsus : r.suspects ≠ []) (hspare : (chan b n).spare.phase = 0) (a : Arrays) : ∃ c q,
      channelResetDone a b n = c ∧ (chan c n).recov = some q ∧ q.phase = .replay ∧ q.left = r.suspects ∧ q.guilty = r.guilty
        ∧ q.suspects = r.suspects ∧ (chan c n).dmaHalt = false ∧ (∀ o ∈ c.ops, o.ch = n → beforeCommit o = false)
        ∧ ∀ t ∈ c.tallies, t.ch = n → t.state = .held → ∃ e ∈ b.tallies, e.idx = t.idx ∧ e.state ≠ .held := by
  obtain ⟨-, hops, htallies⟩ := clearedBlock_spec a b n
  have hleft : (resetRecov a b n r).left = r.suspects := if_pos hreplay
  obtain ⟨hchan, htallies', hops'⟩ := nextSuspect_spec (r := resetRecov a b n r) (hleft ▸ hsus) a
    (setChan (clearedBlock a b n) n (fun c => { c with recov := some (resetRecov a b n r), dmaHalt := false })) n
  rw [chan_setChan_self] at hchan
  refine ⟨_, _, channelResetDone_eq hr hphase hspare a, congrArg Channel.recov hchan, rfl, hleft, rfl, rfl,
    congrArg Channel.dmaHalt hchan, fun o ho hch => ?_, htallies' ▸ htallies⟩
  exact (hops' o ho).elim (fun h => hops o h hch) beforeCommit_of_replay

theorem recoveryTimeout_late {b : Block} {n : Nat} {r : Recov} (hr : (chan b n).recov = some r) (hphase : r.phase ≠ .check)
    (hlate : r.late = false) (hdue : usDue b r.fromUs 500 = true) (hauto : bit b.regs.recovCtl 2 = false) (a : Arrays) :
    recoveryTimeout a b n = setChan b n (fun c => { c with recov := some { r with late := true } }) := by
  simp [recoveryTimeout, hr, hphase, hlate, hdue, escalateInst, hauto]

theorem recoveryTimeout_early {b : Block} {n : Nat} {r : Recov} (hr : (chan b n).recov = some r)
    (h : r.phase = .check ∨ r.late = true ∨ usDue b r.fromUs 500 = false) (a : Arrays) : recoveryTimeout a b n = b := by
  simp only [recoveryTimeout, hr]
  refine if_neg fun ⟨hphase, hlate, hdue⟩ => ?_
  simp [hphase, hlate, hdue] at h

/-- Settles O44: each clause is the lemma about its row. The lines of a replay and their posting are the model's reading
of R393 (logs 50, 71). -/
theorem channelRecoveryRuns : Obligations.ChannelRecoveryRuns := by
  unfold Obligations.ChannelRecoveryRuns
  refine ⟨fun s p id x code hok hfind hphase hcode hopen => ?_, fun s p id hok hfind => ?_, fun s ch r hch hr => ?_⟩
  · obtain ⟨p3, p4, h⟩ := hangWatchdog_decodeHeld hfind hphase hcode hopen s.arr
    obtain ⟨hfaulted, hhung⟩ := faultCtx_spec s.arr (setTxn s.blk x.uid (fun x => { x with hung := true })) x.req.ctx.toNat
    refine ⟨_, guarded_eq_next hok h, by rw [ctxOf_emit, hfaulted], fun y hy huid => ?_⟩
    rw [emit_txns] at hy
    obtain ⟨z, hz, hzuid, hzhung⟩ := hhung y hy
    obtain ⟨w, -, rfl⟩ := List.mem_map.1 hz
    have hw : w.uid = x.uid := by
      split at hzuid
      · next h => exact h
      · exact hzuid.trans huid
    rw [← hzhung, if_pos hw]
  · exact guarded_eq_next hok (hangWatchdog_none hfind s.arr)
  · intro b recOf left
    refine ⟨fun _ hdue => ?_, fun hphase hdue hgrants hauto hhs hwaits => ?_, fun hphase hreplay hsus hspare => ?_, fun _ hbusy => ?_,
      fun k k' rest hphase hleft hidle => ⟨fun hlast => ?_, fun u x hlast hx => ?_⟩,
      fun k k' rest hphase hleft hlast => ⟨fun hdue => ?_, fun hdue => ?_⟩, fun hphase hlate hdue hauto => ?_, fun h => ?_⟩
    · exact guarded_eq_next hch (stallCheck_early hr hdue s.arr)
    · obtain ⟨hrec, hsuspect, htxns, hops⟩ := freezeChan_spec (b := b) hhs ch r
      exact ⟨_, guarded_eq_next hch (stallCheck_stalled hr hphase hdue hgrants hauto hwaits s.arr), hrec, hsuspect, htxns, hops⟩
    · obtain ⟨c, q, hc, hspec⟩ := channelResetDone_spec hr hphase hreplay hsus hspare s.arr
      exact ⟨c, q, guarded_eq_next hch hc, hspec⟩
    · exact guarded_eq_next hch (replayComplete_busy hbusy s.arr)
    · exact guarded_eq_next hch ((replayComplete_done hr hphase hleft hidle s.arr).trans
        (nextSuspect_none (r := { r with left := k' :: rest }) rfl hlast s.arr ch))
    · obtain ⟨l, m, hpost, hlines, hops⟩ := postReplay_spec s.arr (left b (k' :: rest)) ch x
      have huid : x.uid = u := by simpa using List.find?_some hx
      refine ⟨l, m, guarded_eq_next hch (((replayComplete_done hr hphase hleft hidle s.arr).trans
        (nextSuspect_some (r := { r with left := k' :: rest }) rfl hlast hx s.arr ch)).trans hpost), hlines, huid ▸ hops⟩
    · exact guarded_eq_next hch ((replayLimitRow_due hr hphase hleft hdue s.arr).trans
        (nextSuspect_none (r := { r with left := k' :: rest, guilty := r.guilty ++ [k] }) rfl hlast s.arr ch))
    · exact guarded_eq_next hch (replayLimitRow_early hr hdue s.arr)
    · exact guarded_eq_next hch (recoveryTimeout_late hr hphase hlate hdue hauto s.arr)
    · exact guarded_eq_next hch (recoveryTimeout_early hr h s.arr)

end Sys2Proof.Machine
end

section
/-! PROOFS. The clearing of a ZMAP seam by its tags (R67, R183, R185), and the transfers that it does not leave alone. -/

namespace Sys2Proof.Machine

/-- The end of a ZMAP seam's clearing lets every line of the seam past stage F lie behind its tag from then on, those in a transfer at a
spine input among them (R183). -/
theorem seedClearDone_xfers {b : Block} {n : Nat} {t : Taken} (hclear : (seamOf b n).clearing = true) (hzero : seamZeroed b n = true)
    (hcmd : seamCmd b 8 n = some t) (hzmap : (seamOf b n).zmap = true) (a : Arrays) :
    (seedClearDone a b n).2.xfers = (mapPastF b (fun o => if o.seam = n then { o with old := true } else o)).xfers := by
  simp only [seedClearDone, hcmd, hclear, hzero, Bool.and_self, if_true, complete_xfers, setSeam_xfers, clearTags, hzmap]
  rfl

/-- The SEAM_ASSIGN that re-seeds seam 0. -/
def reseedCmd : Taken := { idx := 0, dw0 := put 0 8 8 ||| putBit 40 true, dw1 := 1, dw2 := 0 }

/-- A line of seam 0 on its way from port M1 to cluster 0. -/
def lineOnSpine : LineOp :=
  { seqOp State.reset.blk .read 0 0 0 0 0 with uid := 1, org := .loc { ch := 0, port := .M1 }, src := 1, cls := 0 }

/-- It waits in a transfer at the spine input of that cluster. -/
def spineXfer : Xfer :=
  { serial := 2, path := .spine 0 0, rest := [], src := 1, org := lineOnSpine.org, cls := 0, qos := 0, ctx := 0, readyAt := 0, waited := 0,
    beats := 1, reported := false, payload := .lines [lineOnSpine] }

/-- Seam 0 is a ZMAP seam which its re-seeding clears, while the line waits. -/
def reseeding : Block :=
  { State.reset.blk with
    seams := [(0, { Seam.init with valid := true, size := 1, zmap := true, clearing := true })]
    xfers := [spineXfer]
    cmdq := { CmdQ.init with running := [reseedCmd] } }

/-- Refutes O53: its clause on SEED_CLEAR_DONE says that beside the seam and the completion only operations and zero lines change, but in
a ZMAP seam a line that waits in a transfer at a spine input, and so is past stage F, comes to lie behind the new tags as well (R183). -/
theorem not_seamCommandsAct : ¬ Obligations.SeamCommandsAct := by
  unfold Obligations.SeamCommandsAct
  intro h
  let s : State := { State.reset with blk := reseeding }
  obtain ⟨-, -, -, -, -, -, hdone⟩ := h s reseedCmd
  have hclear : (seamOf reseeding 0).clearing = true := rfl
  have hzero : seamZeroed reseeding 0 = true := rfl
  have hcmd : seamCmd reseeding 8 0 = some reseedCmd := by decide
  have hzmap : (seamOf reseeding 0).zmap = true := rfl
  obtain ⟨a, c, hexec, -, hframe, -⟩ := hdone 0 reseedCmd hclear hzero hcmd
  have hclaimed : c.xfers = [spineXfer] := congrArg Block.xfers hframe
  have hblk := congrArg State.blk (Host.Outcome.next.inj hexec)
  have hreal : (seedClearDone State.reset.arr reseeding 0).2.xfers = c.xfers :=
    (congrArg Block.xfers hblk).trans (by simp)
  rw [seedClearDone_xfers hclear hzero hcmd hzmap, hclaimed] at hreal
  have hold := congrArg (fun l : List Xfer => l.map (fun x => x.ops.map LineOp.old)) hreal
  exact absurd hold (by decide)

end Sys2Proof.Machine
end

section
/-! PROOFS. Requests at a port (R78, R97 to R100): what the transfer of a request beat changes, and the verdicts of the checks that the
port makes on it. -/

namespace Sys2Proof.Machine

/-! The transfer of a beat. -/

/-- The row of every request operation is the transfer of a beat at its port. -/
theorem exec_reqRow (o : Op) (p : PortId) (r : ReqBeat) (s : State) :
    exec (reqRow o p r) s = guarded (portOk s.blk p) s (acceptReq s.blk p o r) := by
  cases o <;> rfl

theorem runChan_eq (b : Block) (ch src : Nat) : ∃ c q l e t o, runChan b ch src =
    { b with chans := c, power := q, rlog := l, ev := e, time := t, obs := o } := by
  unfold runChan
  extract_lets old d
  split
  · exact ⟨b.chans, b.power, b.rlog, b.ev, b.time, b.obs, rfl⟩
  · obtain ⟨t, o, hd⟩ : ∃ t o, d = _ := setPower_eq b _
    clear_value d
    subst hd
    obtain ⟨l, e, q, h⟩ := wakeRecord_eq (setChan _ ch _) old 0 (2 ^ ch) src
    exact ⟨_, _, l, e, t, q, h⟩

theorem wakeDeep_eq (b : Block) (src : Nat) (toRun : Bool) : ∃ q l e t o, wakeDeep b src toRun =
    { b with power := q, rlog := l, ev := e, time := t, obs := o } := by
  unfold wakeDeep
  extract_lets l d
  obtain ⟨t, o, hd⟩ : ∃ t o, d = _ := setPower_eq b _
  split
  · exact ⟨_, b.rlog, b.ev, t, o, hd⟩
  · clear_value d
    subst hd
    obtain ⟨l, e, q, h⟩ := wakeRecord_eq _ 3 2 (2 ^ b.build.channels - 1) src
    exact ⟨_, l, e, t, q, h⟩

/-- What a request wakes shows in the power states, their records, the timebase, the trace and the channels' idle times alone (R366). -/
theorem acceptWake_eq (b : Block) (p : PortId) (wake : Bool) : ∃ c q l e t o, acceptWake b p wake =
    { b with chans := c, power := q, rlog := l, ev := e, time := t, obs := o } := by
  unfold acceptWake
  dsimp only
  split
  · obtain ⟨q, l, e, t, o, h⟩ := wakeDeep_eq b (if wake = true then 1 else 2) wake
    exact ⟨b.chans, q, l, e, t, o, h⟩
  · split
    · exact runChan_eq ..
    · exact ⟨b.chans, b.power, b.rlog, b.ev, b.time, b.obs, rfl⟩

theorem acceptTaps_eq (b : Block) (p : PortId) (o : Op) (r : ReqBeat) : ∃ ob, acceptTaps b p o r = { b with obs := ob } := by
  unfold acceptTaps
  extract_lets t d c due
  obtain ⟨o₁, hd⟩ : ∃ ob, d = { b with obs := ob } := count_eq ..
  obtain ⟨o₂, hc⟩ : ∃ ob, c = { d with obs := ob } := trace_eq ..
  exact ⟨_, by rw [hc, hd]⟩

/-- A request beat that its port takes is judged and joins the outstanding requests; the port takes its next beat in the next cycle.
Beside that only its wake, the counters and the trace show (R78, R100). -/
theorem acceptReq_eq {b : Block} {p : PortId} (hcan : canAccept b p = true) (hfree : (outOf b p).reqFree ≤ b.now) (o : Op) (r : ReqBeat) :
    ∃ c q l e t ob, acceptReq b p o r =
      { b with
        serial := freshUid b, outs := aset b.outs p { outOf b p with reqFree := b.now + 1 }
        txns := b.txns ++ [judge b p.port o r (newTxn b (freshUid b) (.loc p) o r)]
        chans := c, power := q, rlog := l, ev := e, time := t, obs := ob } := by
  unfold acceptReq
  rw [if_neg (Nat.not_lt.2 hfree), if_pos hcan]
  obtain ⟨c, q, l, e, t, _, hwake⟩ := acceptWake_eq b p r.wake
  obtain ⟨ob, htaps⟩ := acceptTaps_eq (acceptWake b p r.wake) p o r
  rw [htaps, hwake]
  exact ⟨c, q, l, e, t, ob, rfl⟩

/-- The state once a port has taken a request beat. -/
theorem exec_reqRow_accepts {o : Op} {p : PortId} {r : ReqBeat} {s : State} (hok : portOk s.blk p = true) (hcan : canAccept s.blk p = true)
    (hfree : (outOf s.blk p).reqFree ≤ s.blk.now) : ∃ t, exec (reqRow o p r) s = .next t ∧ t.arr = s.arr ∧ t.pending = s.pending
      ∧ t.blk.ops = s.blk.ops ∧ t.blk.xfers = s.blk.xfers ∧ t.blk.descs = s.blk.descs
      ∧ t.blk.txns = s.blk.txns ++ [judge s.blk p.port o r (newTxn s.blk (freshUid s.blk) (.loc p) o r)]
      ∧ (outOf t.blk p).reqFree = s.blk.now + 1
      ∧ { t.blk.still with power := s.blk.power } = { s.blk.still with power := s.blk.power } := by
  obtain ⟨c, q, l, e, t, ob, h⟩ := acceptReq_eq hcan hfree o r
  refine ⟨_, (exec_reqRow o p r s).trans (guarded_eq_next hok h), rfl, rfl, rfl, rfl, rfl, rfl, ?_, rfl⟩
  exact congrArg PortOut.reqFree ((aget_aset ..).trans (if_pos rfl))

/-! The verdicts of the port. -/

/-- The port's checks settle a request's progress and the time of its answer alone. -/
theorem judge_eq (b : Block) (p : Port) (o : Op) (r : ReqBeat) (x : Txn) :
    ∃ ph due, judge b p o r x = { x with phase := ph, due := due } := by
  unfold judge
  extract_lets answered
  repeat' split
  all_goals exact ⟨_, _, rfl⟩

theorem ctxOpen_eq_false {b : Block} {ctx : Nat} {shift : BitVec 8} (h : (ctxOf b ctx).state ≠ .open ∨ (ctxOf b ctx).shift ≠ shift ∨
    (ctxOf b ctx).faulted = true) : ctxOpen b ctx shift = false := by
  rcases h with h | h | h <;> simp [ctxOpen, h]

section
variable {b : Block} {p : Port} {o : Op} {r : ReqBeat}

theorem judge_aborted (h : ctxOpen b r.ctx.toNat r.shift = false) (x : Txn) :
    judge b p o r x = { x with phase := .answered .aborted, due := b.now + 2 } := by
  simp [judge, h]

theorem judge_unsup (hopen : ctxOpen b r.ctx.toNat r.shift = true) (h : beatOk p o r = false ∨ (reservedCode r).isSome = true) (x : Txn) :
    judge b p o r x = { x with phase := .answered .unsup, due := b.now + 2 } := by
  rcases h with h | h <;> simp [judge, hopen, h]

/-- What passes the port's checks is decoded in the next cycle, and a FENCE waits for its scope. -/
theorem judge_passes (hopen : ctxOpen b r.ctx.toNat r.shift = true) (hcode : reservedCode r = none) (hbeat : beatOk p o r = true)
    (htally : o.isTally = true → instOf r.addr = b.cw.instNum) (x : Txn) :
    judge b p o r x = if o = .fence then { x with phase := .waiting .fence } else x := by
  have hinst : ¬(o.isTally = true ∧ instOf r.addr ≠ b.cw.instNum) := fun h => h.2 (htally h.1)
  simp [judge, hopen, hcode, hbeat, if_neg hinst]

end

/-- Settles O10: the request that joins is `newTxn`, and `judge` leaves its payload alone. -/
theorem portTakesRequest : Obligations.PortTakesRequest := by
  unfold Obligations.PortTakesRequest
  intro o p r s hok hcan hfree
  obtain ⟨t, hexec, harr, hpend, -, -, -, htxns, hreq, hstill⟩ := exec_reqRow_accepts (o := o) (r := r) hok hcan hfree
  obtain ⟨ph, due, hjudge⟩ := judge_eq s.blk p.port o r (newTxn s.blk (freshUid s.blk) (.loc p) o r)
  rw [hjudge] at htxns
  refine ⟨t, hexec, harr, hpend, ?_,
    ⟨{ newTxn s.blk (freshUid s.blk) (.loc p) o r with phase := ph, due := due }, ?_, rfl, rfl, rfl, rfl, rfl⟩, hreq, hstill⟩
  · rw [htxns, List.map_append]
    rfl
  · rw [htxns]
    exact List.mem_append_right _ (List.mem_singleton.2 rfl)

/-- Settles O11: the context check comes first, and an answered request is not decoded (R98, R502). -/
theorem contextCheckAborts : Obligations.ContextCheckAborts := by
  unfold Obligations.ContextCheckAborts
  intro o p r s hok hcan hfree hctx
  obtain ⟨t, hexec, harr, -, hops, hxfers, hdescs, htxns, -⟩ := exec_reqRow_accepts (o := o) (r := r) hok hcan hfree
  rw [judge_aborted (ctxOpen_eq_false hctx)] at htxns
  exact ⟨t, hexec, harr, hops, hxfers, hdescs, htxns⟩

/-- Settles O12: the beat's check comes after the context's. A reserved code is carried in `ReqBeat.rsv` (log 65). -/
theorem badBeatIsUnsupported : Obligations.BadBeatIsUnsupported := by
  unfold Obligations.BadBeatIsUnsupported
  intro o p r s hok hcan hfree hopen hbad
  obtain ⟨t, hexec, harr, -, hops, hxfers, hdescs, htxns, -⟩ := exec_reqRow_accepts (o := o) (r := r) hok hcan hfree
  rw [judge_unsup hopen hbad] at htxns
  exact ⟨t, hexec, harr, hops, hxfers, hdescs, htxns⟩

end Sys2Proof.Machine
end

section
/-! PROOFS. The start of a request (R86, R100, R106, R137, R172, R253): what issuing lines, fetching a descriptor and setting out for the
tally logic leave alone, and the way of a request with nothing before it from its decode cycle on. -/

namespace Sys2Proof.Machine

/-! Issued lines: only transfers, operations, issue limits and counters show them. -/

theorem bidLine_eq {past : Block → LineOp → Block}
    (h : ∀ b op, ∃ n xs os, past b op = { b with serial := n, xfers := xs, ops := os }) (b : Block) (p : PathId) (rest : List PathId)
    (src : Nat) (op : LineOp) : ∃ n xs os, bidLine past b p rest src op = { b with serial := n, xfers := xs, ops := os } := by
  unfold bidLine
  split
  · exact h b op
  · split
    · exact ⟨b.serial, _, b.ops, rfl⟩
    · exact ⟨_, _, b.ops, rfl⟩

theorem bidBridge_eq (b : Block) (src : Nat) (op : LineOp) :
    ∃ n xs os, bidBridge b src op = { b with serial := n, xfers := xs, ops := os } :=
  bidLine_eq (past := fun b op => pastBridge b op op.readyAt) (fun b _ => ⟨b.serial, b.xfers, _, rfl⟩) ..

theorem bidEgress_eq (b : Block) (ch src : Nat) (op : LineOp) :
    ∃ n xs os, bidEgress b ch src op = { b with serial := n, xfers := xs, ops := os } :=
  bidLine_eq (past := fun b op => pastEgress b ch op op.readyAt) (fun _ _ => bidBridge_eq ..) ..

theorem noteIssue_eq (b : Block) (i : Issuer) (n : Nat) : ∃ us, noteIssue b i n = { b with outs := us } := by
  unfold noteIssue
  split
  · exact ⟨b.outs, rfl⟩
  · exact ⟨_, rfl⟩

/-- `c` is `b` but for what the issue of line operations changes. -/
def IssuedFrom (b c : Block) : Prop :=
  ∃ n xs os us cs o, c = { b with serial := n, xfers := xs, ops := os, outs := us, chans := cs, obs := o }

theorem issueOps_issued (b : Block) (i : Issuer) (l : List LineOp) : IssuedFrom b (issueOps b i l) := by
  unfold issueOps
  refine foldl_inv (IssuedFrom b) _ ?_ l _ (foldl_inv (IssuedFrom b) _ ?_ l _ ?_)
  · rintro _ op ⟨n, xs, os, us, cs, o, rfl⟩
    dsimp only
    split
    · exact ⟨_, _, _, us, cs, o, rfl⟩
    · split
      · obtain ⟨n', xs', os', h⟩ := bidEgress_eq { b with serial := n, xfers := xs, ops := os, outs := us, chans := cs, obs := o } _ i.src
          { op with readyAt := b.now + 1 }
        exact ⟨n', xs', os', us, cs, o, h⟩
      · obtain ⟨n', xs', os', h⟩ := bidBridge_eq { b with serial := n, xfers := xs, ops := os, outs := us, chans := cs, obs := o } 8
          { op with readyAt := b.now + 1 }
        exact ⟨n', xs', os', us, cs, o, h⟩
  · rintro _ op ⟨n, xs, os, us, cs, o, rfl⟩
    extract_lets t c d
    obtain ⟨o₁, hc⟩ : ∃ o₁, c = _ := count_eq ..
    obtain ⟨o₂, hd⟩ : ∃ o₂, d = _ := count_eq ..
    clear_value d c
    subst hd hc
    split
    · exact ⟨n, xs, os, us, _, o₂, rfl⟩
    · exact ⟨n, xs, os, us, cs, o₁, rfl⟩
  · obtain ⟨us, h⟩ := noteIssue_eq b i l.length
    exact ⟨b.serial, b.xfers, b.ops, us, b.chans, b.obs, h⟩

/-- Of the requests, the issue of lines for one counts them at it (R86). -/
theorem issueFor_spec (b : Block) (x : Txn) (i : Issuer) (mk : List (Nat → LineOp)) (counted : Bool) :
    (issueFor b x i mk counted).descs = b.descs ∧ (issueFor b x i mk counted).txns = (if counted then
      setTxn b x.uid (fun x => { x with issuedLines := x.issuedLines + mk.length }) else b).txns := by
  unfold issueFor
  extract_lets ops c d
  obtain ⟨n, xs, os, us, cs, o, h⟩ := issueOps_issued d i ops
  rw [h]
  cases counted <;> exact ⟨rfl, rfl⟩

/-! The lines of a linear request. -/

/-- Of the requests, the issue of the lines of a linear one changes that one alone: its counts of lines, and its end where all are
acknowledged (R86, R90). -/
theorem issueLinear_txns (b : Block) (x : Txn) : ∃ k a f, (issueLinear b x).txns = b.txns.map (fun y =>
    if y.uid = x.uid then finishTxn { y with issuedLines := y.issuedLines + k, lineAcks := y.lineAcks + a, far := f } else y) := by
  unfold issueLinear
  extract_lets seam n lines i fmt kind mk live idle far c
  refine ⟨idle.length + ((mk.filter (fun e => live e.1)).map (·.2)).length, idle.length, far, ?_⟩
  rw [setTxn_txns, (issueFor_spec c x i _ true).2]
  simp only [if_true, setTxn_txns, List.map_map, c]
  refine List.map_congr_left fun y _ => ?_
  by_cases hy : y.uid = x.uid <;> simp [hy, Nat.add_assoc]

/-- A request whose write data has not ended does not end. -/
theorem finishTxn_open {x : Txn} (h : x.gotLast = false) : finishTxn x = x := by simp [finishTxn, h]

/-! The fetch of a descriptor. -/

theorem lockCheck_free {b : Block} (h : b.tallies = []) (o : Origin) (ctx : Nat) (ff : Bool) (lines : List Nat) :
    lockCheck b o ctx ff lines = .free := by simp [lockCheck, h]

/-- Without a tally, a lane's fetch changes the waits of a request and the stage of a descriptor operation alone (R137). -/
theorem laneFetch_spec {b : Block} (h : b.tallies = []) (ch lane : Nat) : ∃ (f : Txn → Txn) (g : DescOp → DescOp),
    (laneFetch b ch lane).txns = b.txns.map f ∧ (∀ y, ∃ w s, f y = { y with autoWake := w, stallUs := s })
      ∧ (laneFetch b ch lane).descs = b.descs.map g ∧ ∀ d, ∃ st, g d = { d with stage := st } := by
  have same : ∃ (f : Txn → Txn) (g : DescOp → DescOp),
      b.txns = b.txns.map f ∧ (∀ y, ∃ w s, f y = { y with autoWake := w, stallUs := s })
      ∧ b.descs = b.descs.map g ∧ ∀ d, ∃ st, g d = { d with stage := st } :=
    ⟨id, id, by simp, fun y => ⟨y.autoWake, y.stallUs, rfl⟩, by simp, fun d => ⟨d.stage, rfl⟩⟩
  unfold laneFetch
  extract_lets l room
  split
  · exact same
  · split
    · exact same
    · next d _ x _ =>
      split
      · simp only [fetchDesc, lockCheck_free h, issueFor_spec, Bool.false_eq_true, if_false]
        refine ⟨_, _, rfl, fun y => ?_, rfl, fun e => ?_⟩
        · split
          · exact ⟨_, _, rfl⟩
          · exact ⟨y.autoWake, y.stallUs, rfl⟩
        · split
          · exact ⟨_, rfl⟩
          · exact ⟨e.stage, rfl⟩
      · exact same

/-- Without a tally, a descriptor operation joins its lane or unit, and of the requests only waits change (R137, R172). -/
theorem queueDesc_spec {b : Block} (h : b.tallies = []) (x : Txn) (ch at_ : Nat) : ∃ f : Txn → Txn,
    (queueDesc b x ch at_).txns = b.txns.map f ∧ (∀ y, ∃ w s, f y = { y with autoWake := w, stallUs := s })
      ∧ ∃ d ∈ (queueDesc b x ch at_).descs, d.uid = x.uid ∧ d.ch = ch := by
  unfold queueDesc
  extract_lets lane d
  obtain ⟨f, g, htxns, hf, hdescs, hg⟩ := laneFetch_spec (b := { b with descs := b.descs ++ [d] }) h ch lane
  obtain ⟨st, hd⟩ := hg d
  refine ⟨f, htxns, hf, g d, ?_, by rw [hd], by rw [hd]⟩
  rw [hdescs]
  exact List.mem_map_of_mem (List.mem_append_right _ (List.mem_singleton.2 rfl))

/-! A tally operation sets out. -/

/-- On the direct leg a tally operation is at the tally logic two cycles later; else its transfer bids for a path (R253). -/
theorem tallyStart_spec {x : Txn} {p : PortId} (horg : x.org = .loc p) (b : Block) : tallyStart b x = tallyReach b x (b.now + 2)
    ∨ (tallyStart b x).txns = b.txns ∧ ∃ v ∈ (tallyStart b x).xfers, v.payload = .tally x.uid := by
  have bids (path rest src o c q k t) : (addXfer b path rest src o c q k t 1 (.tally x.uid)).txns = b.txns
      ∧ ∃ v ∈ (addXfer b path rest src o c q k t 1 (.tally x.uid)).xfers, v.payload = .tally x.uid :=
    ⟨rfl, _, List.mem_append_right _ (List.mem_singleton.2 rfl), rfl⟩
  simp only [tallyStart, horg]
  split
  · split
    · exact .inl rfl
    · exact .inr (bids ..)
  · exact .inr (bids ..)

/-! A request that is alone. -/

theorem classLimit_pos (b : Block) (cls : Nat) : 0 < classLimit b cls := by
  unfold classLimit
  dsimp only
  split <;> omega

/-- Request `x` is the only one outstanding, lies on the chip, and nothing keeps it: no tally, no handshake, no CH_STOP, and its channel
runs. -/
structure Unhindered (b : Block) (x : Txn) : Prop where
  alone : b.txns = [x]
  tallies : b.tallies = []
  handshake : b.power.hs = none
  stops : b.recov.stopWait = []
  inst : instOf x.req.addr = b.cw.instNum
  below : localOf x.req.addr < Config.sumpBase
  stopped : (chan b (chanAt b (x.seam.getD 0) (localOf x.req.addr))).stopped = false
  recov : (chan b (chanAt b (x.seam.getD 0) (localOf x.req.addr))).recov = none
  power : chPower b (chanAt b (x.seam.getD 0) (localOf x.req.addr)) = .run

namespace Unhindered
variable {b : Block} {x : Txn}

theorem onChip (h : Unhindered b x) : onChip b x = true := by simp [Machine.onChip, h.inst, h.below]

theorem chanHold (h : Unhindered b x) (o : Origin) (owned : Bool) :
    chanHold b o owned (chanAt b (x.seam.getD 0) (localOf x.req.addr)) = none := by
  simp [Machine.chanHold, chFrozen, stopping, hsOver, h.stopped, h.recov, h.stops, h.handshake]

theorem findsAsleep (h : Unhindered b x) : findsAsleep b x = false := by
  have hpower := h.power
  simp only [chanAt, chanOf] at hpower
  simp [Machine.findsAsleep, hpower]

theorem classHeld (h : Unhindered b x) : classHeld b x = false := by
  unfold Machine.classHeld
  split
  · next p _ =>
    have hnone : (portTxns b p).filter (fun y => decide (y.uid < x.uid) && y.req.cls == x.req.cls) = [] := by
      refine List.filter_eq_nil_iff.2 fun y hy => ?_
      rw [portTxns, h.alone] at hy
      simp [List.mem_singleton.1 (List.mem_filter.1 hy).1]
    simp [hnone, (classLimit_pos b x.req.cls.toNat).ne']
  · rfl

theorem orderHeld (h : Unhindered b x) : orderHeld b x = false := by simp [Machine.orderHeld, h.alone]

theorem fenceHeld (h : Unhindered b x) : fenceHeld b x = false := by simp [Machine.fenceHeld, h.alone]

theorem startPast (h : Unhindered b x) : startPast b x = startGo b x := by
  have hhold := h.chanHold x.org (isOwned b x.req.cls.toNat (x.seam.getD 0)
    (locOf b.build (seamOf b (x.seam.getD 0)) (localOf x.req.addr / 128)).ch
    ((locOf b.build (seamOf b (x.seam.getD 0)) (localOf x.req.addr / 128)).bank / 8) x.org)
  have haccess : accessChan b (chanAt b (x.seam.getD 0) (localOf x.req.addr)) x.req.wake = (b, .go) := by
    simp [accessChan, h.power]
  simp only [chanAt, chanOf] at hhold haccess
  simp [Machine.startPast, h.orderHeld, h.fenceHeld, h.onChip, hhold, haccess]

end Unhindered

/-! The start. -/

/-- `y` is request `x` once it has started: active, with its payload and its seam. -/
def Started (x y : Txn) : Prop :=
  y.uid = x.uid ∧ y.org = x.org ∧ y.op = x.op ∧ y.req = x.req ∧ y.phase = .active ∧ y.seam = x.seam

/-- Request `x` as it leaves its waits. -/
def activated (x : Txn) : Txn := { x with phase := .active, stallUs := none, autoWake := false }

section
variable {b : Block} {x : Txn}

theorem setTxn_alone (h : b.txns = [x]) (f : Txn → Txn) : (setTxn b x.uid f).txns = [f x] := by simp [h]

theorem startGo_of_range (h : onChip b x = true) (hop : x.op.isRange = true) :
    startGo b x = issueLinear (setTxn (setTxn b x.uid activated) x.uid (fun y => { y with total := (reqLines x.req).length }))
      { activated x with total := (reqLines x.req).length } := by
  have hkind : x.op.isTally = false ∧ x.op.isDesc = false := by revert hop; cases x.op <;> decide
  unfold startGo
  extract_lets c far y ch n
  have hfar : ¬far = true := show ¬(!onChip b x) = true by simp [h]
  rw [if_neg hfar, if_neg (by simp [y, hkind]), if_neg (by simp [y, hkind])]
  rfl

theorem startGo_of_tally (h : onChip b x = true) (hop : x.op.isTally = true) :
    startGo b x = tallyStart (setTxn (setTxn b x.uid activated) x.uid (fun _ => activated x)) (activated x) := by
  unfold startGo
  extract_lets c far y ch n
  have hfar : ¬far = true := show ¬(!onChip b x) = true by simp [h]
  rw [if_neg hfar, if_pos hop]
  rfl

theorem startGo_of_desc (h : onChip b x = true) (hop : x.op.isDesc = true) {p : PortId} (horg : x.org = .loc p) :
    startGo b x = if p.ch = chanAt b (x.seam.getD 0) (localOf x.req.addr) then
        queueDesc (setTxn b x.uid activated) (activated x) p.ch b.now
      else addXfer (setTxn b x.uid activated) (.x0e p.ch) [.brX0 (chanAt b (x.seam.getD 0) (localOf x.req.addr))] (portCode p.port)
        (.loc p) x.req.cls.toNat x.req.qos.toNat x.req.ctx.toNat (b.now + 1) 1 (.desc x.uid) := by
  have hkind : x.op.isTally = false := by revert hop; cases x.op <;> decide
  unfold startGo
  extract_lets c far y ch n
  have hfar : ¬far = true := show ¬(!onChip b x) = true by simp [h]
  rw [if_neg hfar, if_neg (by simp [y, hkind]), if_pos hop]
  have hx0 : isX0 y ch = decide (p.ch ≠ ch) := by simp only [isX0, y, horg]
  by_cases hp : p.ch = ch
  · rw [if_neg (by simp [hx0, hp])]
    exact (congrArg (queueDesc c y · c.now) hp.symm).trans (if_pos hp).symm
  · rw [if_pos (by simp [hx0, hp]), show y.org = .loc p from horg]
    exact (if_neg hp).symm

/-- A linear request goes to its lines (R86). -/
theorem startGo_range (h : Unhindered b x) (hop : x.op.isRange = true) (hopen : x.gotLast = false) :
    ∃ y, (startGo b x).txns = [y] ∧ Started x y ∧ y.total = (reqLines x.req).length := by
  rw [startGo_of_range h.onChip hop]
  obtain ⟨k, a, f, hlines⟩ := issueLinear_txns
    (setTxn (setTxn b x.uid activated) x.uid (fun y => { y with total := (reqLines x.req).length }))
    { activated x with total := (reqLines x.req).length }
  have hactive : (setTxn (setTxn b x.uid activated) x.uid (fun y => { y with total := (reqLines x.req).length })).txns
      = [{ activated x with total := (reqLines x.req).length }] :=
    setTxn_alone (x := activated x) (setTxn_alone h.alone activated) _
  rw [hactive, List.map_singleton, if_pos rfl, finishTxn_open] at hlines
  · exact ⟨_, hlines, ⟨rfl, rfl, rfl, rfl, rfl, rfl⟩, rfl⟩
  · exact hopen

/-- A tally operation sets out for the tally logic (R253). -/
theorem startGo_tally (h : Unhindered b x) (hop : x.op.isTally = true) {p : PortId} (horg : x.org = .loc p) :
    ∃ y, (startGo b x).txns = [y] ∧ Started x y
      ∧ ((y.total = 1 ∧ y.due = b.now + 2) ∨ ∃ v ∈ (startGo b x).xfers, v.payload = .tally x.uid) := by
  rw [startGo_of_tally h.onChip hop]
  have hactive : (setTxn (setTxn b x.uid activated) x.uid (fun _ => activated x)).txns = [activated x] :=
    setTxn_alone (x := activated x) (setTxn_alone h.alone activated) _
  rcases tallyStart_spec (x := activated x) horg (setTxn (setTxn b x.uid activated) x.uid (fun _ => activated x)) with
    hreach | ⟨htxns, v, hv, hpay⟩
  · rw [hreach]
    exact ⟨_, setTxn_alone (x := activated x) hactive _, ⟨rfl, rfl, rfl, rfl, rfl, rfl⟩, .inl ⟨rfl, rfl⟩⟩
  · exact ⟨activated x, htxns.trans hactive, ⟨rfl, rfl, rfl, rfl, rfl, rfl⟩, .inr ⟨v, hv, hpay⟩⟩

/-- A descriptor operation is queued at the lane or unit of its port's channel, or bids for the way to another (R137, R172). -/
theorem startGo_desc (h : Unhindered b x) (hop : x.op.isDesc = true) {p : PortId} (horg : x.org = .loc p) :
    ∃ y, (startGo b x).txns = [y] ∧ Started x y ∧ (p.ch = chanAt b (x.seam.getD 0) (localOf x.req.addr) →
      ∃ d ∈ (startGo b x).descs, d.uid = x.uid ∧ d.ch = chanAt b (x.seam.getD 0) (localOf x.req.addr)) := by
  rw [startGo_of_desc h.onChip hop horg]
  have hactive : (setTxn b x.uid activated).txns = [activated x] := setTxn_alone h.alone activated
  split
  · next hp =>
    obtain ⟨f, htxns, hf, hdesc⟩ := queueDesc_spec (b := setTxn b x.uid activated) h.tallies (activated x) p.ch b.now
    obtain ⟨w, s, hy⟩ := hf (activated x)
    rw [hactive, List.map_singleton, hy] at htxns
    exact ⟨_, htxns, ⟨rfl, rfl, rfl, rfl, rfl, rfl⟩, fun _ => hp ▸ hdesc⟩
  · next hp => exact ⟨activated x, hactive, ⟨rfl, rfl, rfl, rfl, rfl, rfl⟩, fun h => absurd h hp⟩

/-! From the decode cycle to the start. -/

/-- What a request that passes its lock check looks like (R258). -/
def lockPassed (x : Txn) : Txn := { x with unlocked := true, stallUs := none }

theorem Unhindered.lockPassed (h : Unhindered b x) : Unhindered (setTxn b x.uid lockPassed) (lockPassed x) :=
  ⟨setTxn_alone h.alone _, h.tallies, h.handshake, h.stops, h.inst, h.below, h.stopped, h.recov, h.power⟩

theorem startTxn_eq_startPast (h : Unhindered b x) (hfence : x.op ≠ .fence) (hmis : x.mismatch = false)
    (hop : x.op.isRange = false) : startTxn b x = startPast b x := by
  simp [startTxn, hfence, hmis, h.findsAsleep, h.classHeld, hop]

theorem startTxn_of_range (h : Unhindered b x) (hmis : x.mismatch = false) (hunlocked : x.unlocked = false)
    (hop : x.op.isRange = true) : startTxn b x = startPast (setTxn b x.uid lockPassed) (lockPassed x) := by
  have hfence : x.op ≠ .fence := by rintro hf; simp [hf, Op.isRange] at hop
  unfold startTxn
  rw [if_neg hfence, if_neg (by simp [hmis]), if_neg (by simp [h.findsAsleep]), if_neg (by simp [h.classHeld]),
    if_pos (by simp [hop, h.onChip, hunlocked]), lockCheck_free h.tallies]
  rfl

/-- A request that waits with nothing in its way starts: a linear one to its lines, a tally operation for the tally logic, a descriptor
operation to its lane or unit (R86, R137, R172, R253). -/
theorem startTxn_starts (h : Unhindered b x) (hfence : x.op ≠ .fence) (hmis : x.mismatch = false) (hopen : x.gotLast = false)
    (hunlocked : x.unlocked = false) {p : PortId} (horg : x.org = .loc p) : ∃ y, (startTxn b x).txns = [y] ∧ Started x y
      ∧ (x.op.isRange = true → y.total = (reqLines x.req).length)
      ∧ (x.op.isTally = true → (y.total = 1 ∧ y.due = b.now + 2) ∨ ∃ v ∈ (startTxn b x).xfers, v.payload = .tally x.uid)
      ∧ (x.op.isDesc = true → p.ch = chanAt b (x.seam.getD 0) (localOf x.req.addr) →
          ∃ d ∈ (startTxn b x).descs, d.uid = x.uid ∧ d.ch = chanAt b (x.seam.getD 0) (localOf x.req.addr)) := by
  have hkinds : x.op.isRange = true ∧ x.op.isTally = false ∧ x.op.isDesc = false
      ∨ x.op.isRange = false ∧ x.op.isTally = true ∧ x.op.isDesc = false
      ∨ x.op.isRange = false ∧ x.op.isTally = false ∧ x.op.isDesc = true := by
    revert hfence
    cases x.op <;> decide
  rcases hkinds with ⟨hr, ht, hd⟩ | ⟨hr, ht, hd⟩ | ⟨hr, ht, hd⟩
  · rw [startTxn_of_range h hmis hunlocked hr, h.lockPassed.startPast]
    obtain ⟨y, htxns, hy, htotal⟩ := startGo_range h.lockPassed hr hopen
    exact ⟨y, htxns, hy, fun _ => htotal, by simp [ht], by simp [hd]⟩
  · rw [startTxn_eq_startPast h hfence hmis hr, h.startPast]
    obtain ⟨y, htxns, hy, htally⟩ := startGo_tally h ht horg
    exact ⟨y, htxns, hy, by simp [hr], fun _ => htally, by simp [hd]⟩
  · rw [startTxn_eq_startPast h hfence hmis hr, h.startPast]
    obtain ⟨y, htxns, hy, hdesc⟩ := startGo_desc h hd horg
    exact ⟨y, htxns, hy, by simp [hr], by simp [ht], fun _ => hdesc⟩

theorem gatherOrder_alone (h : b.txns = [x]) : gatherOrder b = [] ∨ gatherOrder b = [x.uid] := by
  unfold gatherOrder
  extract_lets g key
  have hg : g = [] ∨ ∃ c, g = [(x, c)] := by
    simp only [g, h, List.filterMap_cons, List.filterMap_nil]
    split
    · exact .inl rfl
    · next e he =>
      obtain ⟨d, -, rfl⟩ := Option.map_eq_some_iff.1 he
      exact .inr ⟨d.ch, rfl⟩
  rcases hg with hg | ⟨c, hg⟩ <;> rw [hg]
  · exact .inl rfl
  · exact .inr rfl

/-- Where one request is outstanding, it alone is looked at again. -/
theorem pump_alone (h : b.txns = [x]) : pump b = tryStart b x.uid := by
  have hlist : refill (fun u => (gatherOrder b).contains u) (b.txns.map (fun x => x.uid)) (gatherOrder b) = [x.uid] := by
    rcases gatherOrder_alone h with hg | hg <;> simp [h, hg, refill]
  unfold pump
  extract_lets g l
  rw [show l = [x.uid] from hlist]
  cases hp : inProgress b x.uid <;> simp [hp]

theorem decodeAll_alone {n : Nat} (h : b.txns = [x]) (hphase : x.phase = .waiting .decode) (hage : x.acceptedAt < b.now)
    (hinst : instOf x.req.addr = b.cw.instNum) (hdec : decodeReq b x.op x.req = .seam n) :
    decodeAll b = setTxn b x.uid (fun y => { y with phase := .waiting .none, seam := some n }) := by
  simp [decodeAll, h, hphase, hage, decodeTxn, hinst, hdec]

theorem tryStart_waiting (h : b.txns = [x]) (hphase : x.phase = .waiting .none) : tryStart b x.uid = startTxn b x := by
  simp [tryStart, txnOf, h, hphase]

end

/-- Settles O13: the first clause is the verdict of the port's checks; in the second the request is decoded by `decodeAll` and started
by `pump`, which looks at it alone. -/
theorem requestStarts : Obligations.RequestStarts := by
  unfold Obligations.RequestStarts
  refine ⟨fun o p r s hok hcan hfree hopen hcode hbeat htally => ?_, fun b x p n => ?_⟩
  · obtain ⟨t, hexec, harr, -, hops, hxfers, hdescs, htxns, -⟩ := exec_reqRow_accepts (o := o) (r := r) hok hcan hfree
    refine ⟨t, hexec, harr, hops, hxfers, hdescs, ?_⟩
    rw [htxns, judge_passes hopen hcode hbeat htally]
    split <;> rfl
  · intro c halone horg hphase hage hfence hbeats hlast hmis hunlocked htallies hhs hstop hstopped hrecov hpower hinst hbelow hdec
    rw [decodeAll_alone halone hphase hage hinst hdec]
    have h : Unhindered (setTxn b x.uid (fun y => { y with phase := .waiting .none, seam := some n }))
        { x with phase := .waiting .none, seam := some n } :=
      ⟨setTxn_alone halone _, htallies, hhs, hstop, hinst, hbelow, hstopped, hrecov, hpower⟩
    rw [pump_alone h.alone, tryStart_waiting h.alone rfl]
    obtain ⟨y, htxns, ⟨huid, horg', hop, hreq, hactive, hseam⟩, hrange, htally, hdesc⟩ :=
      startTxn_starts h hfence hmis hlast hunlocked horg
    exact ⟨y, htxns, huid, horg', hop, hreq, hactive, hseam, hrange, htally, hdesc⟩

end Sys2Proof.Machine
end

section
/-! PROOFS. Responses and fences (R78, R92 to R95, R100, R101, R106): what the transfer of a read beat or of a write response leaves of its
request, and the end of a FENCE. -/

namespace Sys2Proof.Machine

/-! Read beats. -/

theorem respTaps_eq (b : Block) (p : PortId) (x : Txn) (st : Status) (ends : Bool) : ∃ o, respTaps b p x st ends = { b with obs := o } := by
  unfold respTaps
  extract_lets t lat c d e
  obtain ⟨o₁, hc⟩ : ∃ o, c = { b with obs := o } := ite_obs (count_eq ..)
  clear_value c
  subst hc
  obtain ⟨o₂, hd⟩ : ∃ o, d = { b with obs := o } := by
    by_cases h : x.beatsOut = 0
    · obtain ⟨o, ho⟩ := count_eq { b with obs := o₁ } 0x04 t lat
      exact ⟨o, (if_pos h).trans ho⟩
    · exact ⟨o₁, if_neg h⟩
  obtain ⟨o₃, he⟩ : ∃ o, e = { d with obs := o } := count_eq ..
  clear_value e d
  subst he hd
  split
  · exact ⟨o₂, rfl⟩
  · exact trace_eq { b with obs := o₃ } ..

/-- A halt of D0 changes its channel and leaves a record (R228). -/
theorem haltD0_eq (b : Block) (p : PortId) (x : Txn) (st : Status) : ∃ c l e o, haltD0 b p x st =
    { b with chans := c, rlog := l, ev := e, obs := o } := by
  unfold haltD0
  split
  · obtain ⟨l, e, o, h⟩ := emit_eq (setChan b p.ch (fun c => { c with dmaHalt := true, haltAt := b.now })) 0x23 (some p.ch)
      (some (x.req.ctx.toNat, x.req.shift)) (put 0 48 x.req.addr.toNat) (put 0 8 x.req.id.toNat) 0 0
    exact ⟨_, l, e, o, h⟩
  · exact ⟨b.chans, b.rlog, b.ev, b.obs, rfl⟩

/-- A beat that transfers stands at its port no longer; the last one ends its request's place (R78, R95, R100). -/
theorem showBeat_spec (b : Block) (p : PortId) (x : Txn) (t : RBeat) (held : Bool) :
    outOf (showBeat b p x t held) p = { outOf b p with
      rdat := some t, rdatAt := b.now, rdatHeld := none, current := if t.last then none else some x.uid }
    ∧ (t.last = true → ∀ y ∈ (showBeat b p x t held).txns, y.uid ≠ x.uid) := by
  unfold showBeat
  extract_lets o c d e
  obtain ⟨o₁, hd⟩ : ∃ o, d = { c with obs := o } := respTaps_eq ..
  clear_value d
  subst hd
  obtain ⟨cs, l, ev, o₂, he⟩ : ∃ cs l ev o, e = { c with chans := cs, rlog := l, ev := ev, obs := o } := by
    cases held
    · exact haltD0_eq { c with obs := o₁ } ..
    · exact ⟨c.chans, c.rlog, c.ev, o₁, rfl⟩
  clear_value e
  subst he
  have hout : outOf c p = { o with rdat := some t, rdatAt := b.now, rdatHeld := none, current := if t.last then none else some x.uid } :=
    outOf_setOut_self ..
  refine ⟨Eq.trans ?_ hout, fun hlast y hy => ?_⟩
  · split <;> rfl
  · rw [if_pos hlast] at hy
    simpa using (List.mem_filter.1 hy).2

theorem readBeat_free {b : Block} {p : PortId} (hclk : portClk b p = true) (h : (outOf b p).rdat = none ∨ (outOf b p).rdatAt < b.now) :
    ¬(portClk b p = false ∨ ((outOf b p).rdat.isSome ∧ (outOf b p).rdatAt = b.now)) := by
  rintro (hoff | ⟨hsome, hnow⟩)
  · simp [hclk] at hoff
  · rcases h with h | h
    · simp [h] at hsome
    · omega

/-- The beat that stands presented transfers as it is (R78). -/
theorem readBeat_held {b : Block} {p : PortId} {u : Nat} {t : RBeat} (hclk : portClk b p = true)
    (hfree : (outOf b p).rdat = none ∨ (outOf b p).rdatAt < b.now) (hheld : (outOf b p).rdatHeld = some (u, t)) :
    readBeat b p t.id = match txnOf b u with
      | some x => showBeat b p x t true
      | none => setOut b p { outOf b p with rdat := some t, rdatAt := b.now, rdatHeld := none, current := none } := by
  unfold readBeat
  rw [if_neg (readBeat_free hclk hfree), hheld]
  exact if_pos rfl

/-- With none presented, the next beat of the response whose turn it is transfers (R95, R101). -/
theorem readBeat_fresh {b : Block} {p : PortId} {id : BitVec 8} {x : Txn} (hclk : portClk b p = true)
    (hfree : (outOf b p).rdat = none ∨ (outOf b p).rdatAt < b.now) (hheld : (outOf b p).rdatHeld = none)
    (hoffer : offers b p (fun x => x.req.id == id) = some x) : readBeat b p id = showBeat b p x (beatOut b x) false := by
  unfold readBeat
  rw [if_neg (readBeat_free hclk hfree), hheld]
  simp only [hoffer]

/-! Write responses. -/

/-- A write response transfers at a port where none stands presented, and its request's place is free (R93, R100). -/
theorem writeResp_spec {b : Block} {p : PortId} {id : BitVec 8} {x : Txn} {st : Status} (hclk : portClk b p = true)
    (hfree : (outOf b p).wrsp = none ∨ (outOf b p).wrspAt < b.now) (hheld : (outOf b p).wrspHeld = none)
    (hfind : (portTxns b p).find? (fun x => x.req.id == id && (wrspReady b x).isSome) = some x) (hready : wrspReady b x = some st) :
    outOf (writeResp b p id) p = { outOf b p with
      wrspAt := b.now, wrspHeld := none, wrsp := some { id := x.req.id, status := st, shift := x.req.shift } }
    ∧ ∀ y ∈ (writeResp b p id).txns, y.uid ≠ x.uid := by
  have hbusy : ¬(portClk b p = false ∨ ((outOf b p).wrsp.isSome ∧ (outOf b p).wrspAt = b.now)) := by
    rintro (hoff | ⟨hsome, hnow⟩)
    · simp [hclk] at hoff
    · rcases hfree with h | h
      · simp [h] at hsome
      · omega
  have hresp : writeResp b p id = retire (respTaps (setOut b p { outOf b p with
      wrspAt := b.now, wrspHeld := none, wrsp := some { id := x.req.id, status := st, shift := x.req.shift } }) p x st true) x := by
    simp only [writeResp, hheld, Option.isNone_none, Bool.true_or, Bool.and_true, hfind, hready, if_neg hbusy]
  obtain ⟨o, htaps⟩ := respTaps_eq (setOut b p { outOf b p with
    wrspAt := b.now, wrspHeld := none, wrsp := some { id := x.req.id, status := st, shift := x.req.shift } }) p x st true
  rw [hresp, htaps]
  refine ⟨outOf_setOut_self .., fun y hy => ?_⟩
  simpa using (List.mem_filter.1 hy).2

/-- Settles O15: the three clauses are `readBeat_held`, `readBeat_fresh` and `writeResp_spec`. -/
theorem responsesTransfer : Obligations.ResponsesTransfer := by
  unfold Obligations.ResponsesTransfer
  refine ⟨fun p id s hok hclk hfree => ⟨fun u t hheld hid => ?_, fun x hheld hoffer => ?_⟩,
    fun p id s x st hok hclk hfree hheld hfind hready => ?_⟩
  · subst hid
    refine ⟨_, guarded_eq_next hok (readBeat_held hclk hfree hheld), rfl, rfl, ?_⟩
    cases htxn : txnOf s.blk u with
    | none =>
      dsimp only
      rw [outOf_setOut_self]
      exact ⟨rfl, rfl, rfl⟩
    | some x =>
      dsimp only
      rw [(showBeat_spec s.blk p x t true).1]
      exact ⟨rfl, rfl, rfl⟩
  · obtain ⟨hout, hgone⟩ := showBeat_spec s.blk p x (beatOut s.blk x) false
    refine ⟨_, guarded_eq_next hok (readBeat_fresh hclk hfree hheld hoffer), rfl, rfl, ?_⟩
    dsimp only
    rw [hout]
    exact ⟨rfl, rfl, fun hlast => ⟨if_pos hlast, hgone hlast⟩, fun hmore => if_neg (by simp [hmore])⟩
  · obtain ⟨hout, hgone⟩ := writeResp_spec hclk hfree hheld hfind hready
    refine ⟨_, guarded_eq_next hok rfl, rfl, rfl, ?_⟩
    dsimp only
    rw [hout]
    exact ⟨rfl, rfl, hgone⟩

/-! Fences. -/

theorem fenceComplete_eq {b : Block} {p : PortId} {id : BitVec 8} {f : Txn}
    (hfind : (portTxns b p).find? (fun x => x.op == .fence && x.req.id == id && x.phase == .waiting .fence) = some f) :
    fenceComplete b p id = if fenceDone b f then answer b f.uid .okay (max (b.now + 1) (f.acceptedAt + 2)) else b := by
  simp only [fenceComplete, hfind]

/-- Settles O16: `fenceComplete` answers the FENCE that it finds, or leaves the block as it is. -/
theorem fenceCompletes : Obligations.FenceCompletes := by
  unfold Obligations.FenceCompletes
  intro p id s f hok hfind
  refine ⟨fun hdone => ?_, fun hdone => ?_⟩
  · exact guarded_eq_next hok ((fenceComplete_eq hfind).trans (if_pos hdone))
  · exact guarded_eq_next hok ((fenceComplete_eq hfind).trans (if_neg (by simp [hdone])))

end Sys2Proof.Machine
end

section
/-! PROOFS. A grant at a shared path (R111 to R114, R202): its transfer leaves the queue, and its lines go on behind the path. -/

namespace Sys2Proof.Machine

/-! The lines of a granted transfer. -/

/-- The wait of a transfer of lines at a path that was parked on another source is counted on each of them (R114). -/
theorem parked_lines {x : Xfer} {l : List LineOp} (h : x.payload = .lines l) (b : Block) (st : PathSt) :
    parked b st x = { x with payload := .lines (l.map fun op =>
      { op with park := op.park + if x.readyAt + 1 = b.now ∧ st.freeAt ≤ x.readyAt ∧ st.last ≠ some x.src then 1 else 0 }) } := by
  unfold parked
  split
  · rw [h]
  · cases x
    simp_all

/-- The mark that a granted line leaves for the other of its beat keeps every request's place (R111). -/
theorem setTxn_half_uids (b : Block) (uid : Nat) (m : PathId × Nat) :
    (setTxn b uid (fun t => { t with half := t.half ++ [m] })).txns.map (fun y => y.uid) = b.txns.map (fun y => y.uid) := by
  rw [setTxn_txns, List.map_map]
  refine List.map_congr_left fun y _ => ?_
  by_cases hy : y.uid = uid <;> simp [hy]

/-- Of the requests, lines whose passing leaves them alone change only the marks of beats. -/
theorem linesPast_mark (b : Block) (x : Xfer) (l : List LineOp) (past : Block → LineOp → Nat → Block) :
    let c := l.zipIdx.foldl (fun b e =>
      past b { e.1 with waited := xferWait b x, reported := x.reported } (max (b.now + e.2 / 2) e.1.readyAt)) b
    ∃ ts, linesPast b x l past = { c with txns := ts } ∧ ts.map (fun y => y.uid) = c.txns.map (fun y => y.uid) := by
  intro c
  unfold linesPast
  extract_lets d
  split
  · split
    · exact ⟨c.txns, rfl, rfl⟩
    · exact ⟨_, rfl, setTxn_half_uids c _ _⟩
  · exact ⟨c.txns, rfl, rfl⟩

/-- Lines that each go on as one operation `g` do so in their order, two a cycle and none before it has come (R111, R202). -/
theorem linesPast_ops {past : Block → LineOp → Nat → Block} {g : LineOp → Nat → LineOp}
    (h : ∀ b op n, past b op n = { b with ops := b.ops ++ [g op n] }) (b : Block) (x : Xfer) (l : List LineOp) :
    ∃ ts, linesPast b x l past = { b with
        ops := b.ops ++ l.zipIdx.map (fun e =>
          g { e.1 with waited := xferWait b x, reported := x.reported } (max (b.now + e.2 / 2) e.1.readyAt))
        txns := ts } ∧ ts.map (fun y => y.uid) = b.txns.map (fun y => y.uid) := by
  have fold : ∀ (m : List (LineOp × Nat)) (os : List LineOp), m.foldl (fun b e =>
      past b { e.1 with waited := xferWait b x, reported := x.reported } (max (b.now + e.2 / 2) e.1.readyAt)) { b with ops := os }
      = { b with ops := os ++ m.map (fun e =>
          g { e.1 with waited := xferWait b x, reported := x.reported } (max (b.now + e.2 / 2) e.1.readyAt)) } := by
    intro m
    induction m with
    | nil => simp
    | cons e m ih =>
      intro os
      rw [List.foldl_cons, h]
      exact (ih _).trans (by simp [xferWait])
  obtain ⟨ts, hc, hts⟩ := linesPast_mark b x l past
  have hb := fold l.zipIdx b.ops
  rw [show ({ b with ops := b.ops } : Block) = b from rfl] at hb
  rw [hb] at hc hts
  exact ⟨ts, hc, hts⟩

/-- The one line of a transfer passes as it stands, and leaves its mark. -/
theorem linesPast_single (b : Block) (x : Xfer) (op : LineOp) (past : Block → LineOp → Nat → Block) :
    ∃ ts, linesPast b x [op] past =
      { past b { op with waited := xferWait b x, reported := x.reported } (max b.now op.readyAt) with txns := ts } := by
  obtain ⟨ts, h, -⟩ := linesPast_mark b x [op] past
  exact ⟨ts, by simpa using h⟩

/-- A line whose beat neither has passed the path nor waits there opens its beat (R111). -/
theorem bidLine_opens {b : Block} {p : PathId} {op : LineOp} (hpast : beatPast b p op = false) (hmate : b.xfers.any (beatMate p op) = false)
    (past : Block → LineOp → Block) (rest : List PathId) (src : Nat) :
    bidLine past b p rest src op = { b with
      serial := b.serial + 1
      xfers := b.xfers ++ [{ serial := b.serial + 1, path := p, rest := rest, src := src, org := op.org, cls := op.cls, qos := op.qos,
                             ctx := op.ctx, readyAt := op.readyAt, waited := op.waited, beats := 1, reported := op.reported
                             payload := .lines [op] }] } := by
  simp [bidLine, hpast, hmate]

/-! The grant. -/

/-- The granted transfer leaves its path, which is busy for its beats and parked on its source (R112, R113, R197). -/
theorem exec_pathGrant_some {p : PathId} {s : State} {x : Xfer} (hok : pathOk s.blk p = true) (hx : pathPick s.blk p = some x) :
    exec (.pathGrant p) s = .next { s with blk := passed (setPath
      { s.blk with xfers := s.blk.xfers.filter (fun y => y.serial != x.serial || decide (y.path ≠ x.path)) } p
      { pathOf s.blk p with
        last := some x.src, freeAt := s.blk.now + max 1 x.beats
        cont := if (pathNext s.blk p).isNone && x.cls != 0 && x.beats == 1 then x.uid else none }) (parked s.blk (pathOf s.blk p) x) } :=
  guarded_eq_next hok (by simp only [pathGrant, hx]; rfl)

/-- A path that gives no grant changes nothing. -/
theorem exec_pathGrant_none {p : PathId} {s : State} (hok : pathOk s.blk p = true) (hx : pathPick s.blk p = none) :
    exec (.pathGrant p) s = .next s :=
  guarded_eq_next hok (by rw [pathGrant, hx])

/-- Settles O17: the lines of the grant, with their count of parking, are followed through `linesPast` behind each of the three paths. -/
theorem pathGrantPasses : Obligations.PathGrantPasses := by
  refine ⟨fun p s => exec_pathGrant_none, fun p s x hok hx => ?_⟩
  extract_lets b st more paths left wait park line
  refine ⟨fun ch k l hp hpath hl => ?_, fun ch op hp hpath hl hpast hmate => ?_, fun ch l hp hpath hl => ?_⟩ <;>
    (subst hp; rw [exec_pathGrant_some hok hx, parked_lines hl, passed, hpath])
  · obtain ⟨ts, h, hts⟩ := linesPast_ops (past := pastSpine) (fun _ _ _ => rfl) _ _ _
    dsimp only
    rw [h]
    exact ⟨_, rfl, rfl, by simp only [left, hpath]; rfl, by simp [List.zipIdx_map]; rfl, hts, rfl⟩
  · obtain ⟨ts, h⟩ := linesPast_single _ _ _ _
    dsimp only
    rw [List.map_singleton, h, pastEgress, bidBridge, bidLine_opens]
    · exact ⟨_, _, rfl, rfl, by simp only [left, hpath]; rfl, rfl, rfl, rfl, rfl, rfl, rfl, rfl, rfl, rfl, rfl⟩
    · exact hpast
    · refine List.any_eq_false.mpr fun y hy => ?_
      exact List.any_eq_false.mp hmate y (List.mem_of_mem_filter hy)
  · obtain ⟨ts, h, hts⟩ := linesPast_ops (past := pastBridge) (fun _ _ _ => rfl) _ _ _
    dsimp only
    rw [h]
    exact ⟨_, rfl, rfl, by simp only [left, hpath]; rfl, by simp [List.zipIdx_map]; rfl, hts, rfl⟩

end Sys2Proof.Machine
end

section
/-! PROOFS. A write at check point E (R115, R160, R163, R164, R233): it commits and makes the entry of its line drain, or is dropped. -/

namespace Sys2Proof.Machine

/-! Commands on a channel of the build. -/

theorem guardedArr_eq_next {ok : Bool} {s : State} {r : Arrays × Block} {a : Arrays} {c : Block} (hok : ok = true) (h : r = (a, c)) :
    guardedArr ok s r = .next { s with arr := a, blk := c } := by
  subst hok h
  rfl

/-! Operations behind a turn of their line. -/

/-- With no operation behind a turn of its line, none acts on its line late (R109). -/
theorem settleBank_of_noneHeld {b : Block} {ch bank : Nat} (h : b.noneHeld ch bank) (a : Arrays) : settleBank a b ch bank = (a, b) := by
  have hheld : b.ops.filter (fun o => o.ch == ch && o.bank == bank && (o.stage == .line || o.unread)) = [] := by
    refine List.filter_eq_nil_iff.mpr fun o ho hp => ?_
    simp only [Bool.and_eq_true, Bool.or_eq_true, beq_iff_eq] at hp
    obtain ⟨⟨hch, hbank⟩, hline | hunread⟩ := hp
    · exact (h o ho hch hbank).1 hline
    · simp [(h o ho hch hbank).2] at hunread
  unfold settleBank
  rw [hheld]
  rfl

/-- It stays so where the operations that come do not stand behind a turn. -/
theorem Block.noneHeld.of_ops {b c : Block} {ch bank : Nat} (h : b.noneHeld ch bank)
    (hops : ∀ o ∈ c.ops, o ∈ b.ops ∨ o.stage ≠ .line ∧ o.unread = false) : c.noneHeld ch bank :=
  fun o ho hch hbank => (hops o ho).elim (fun hb => h o hb hch hbank) id

/-! The cycle's trips and the trace. -/

theorem tripScan_of_none {a : Arrays} {b : Block} (h : failsNow a b = []) : tripScan a b = b := by
  rw [tripScan, h]
  rfl

theorem traceData_eq (b : Block) (op : LineOp) (words : WordMask) (d : LineData) : ∃ o, traceData b op words d = { b with obs := o } := by
  unfold traceData
  split
  · refine foldl_inv (fun c => ∃ o, c = { b with obs := o }) _ ?_ _ _ ⟨b.obs, rfl⟩
    rintro _ k ⟨o, rfl⟩
    exact trace_eq ..
  · exact ⟨b.obs, rfl⟩

/-! The drain of the line's entry (R233). -/

theorem takeZero_eq (a : Arrays) (seen b : Block) (op : LineOp) : ∃ zs, takeZero a seen b op = { b with zeroLines := zs } := by
  unfold takeZero
  split
  · exact ⟨_, rfl⟩
  · exact ⟨b.zeroLines, rfl⟩

/-- An entry that starts to drain is marked so, and its drain joins the operations. -/
theorem startDrain_spec {e : MergeEntry} (h : e.draining = false) (a : Arrays) (b : Block) (ch : Nat) :
    ∃ n op zs o, startDrain a b ch e =
        { setMerge b ch e.serial (fun e => { e with draining := true }) with
          serial := n, ops := b.ops ++ [op], zeroLines := zs, obs := o }
      ∧ op.stage ≠ .line ∧ op.unread = false := by
  unfold startDrain
  rw [h, if_neg Bool.false_ne_true]
  extract_lets op full op' c d
  obtain ⟨zs, hz⟩ := takeZero_eq a d d op'
  obtain ⟨o, hc⟩ : ∃ o, c = { b with obs := o } := by
    unfold c
    split
    · exact ⟨b.obs, rfl⟩
    · exact count_eq ..
  refine ⟨c.serial + 1, op', zs, o, ?_, ?_, rfl⟩
  · rw [hz]
    unfold d
    rw [hc]
    rfl
  · change (if full then Stage.chkE else Stage.bank) ≠ .line
    split <;> decide

/-- Nothing but a drain, which stands behind no turn, joins the operations. -/
theorem drainLine_ops (a : Arrays) (b : Block) (ch line : Nat) :
    ∃ l, (drainLine a b ch line).ops = b.ops ++ l ∧ ∀ o ∈ l, o.stage ≠ .line ∧ o.unread = false := by
  have same : ∃ l, b.ops = b.ops ++ l ∧ ∀ o ∈ l, o.stage ≠ .line ∧ o.unread = false := ⟨[], by simp, by simp⟩
  unfold drainLine
  split
  · next e _ =>
    cases h : e.draining with
    | false =>
      obtain ⟨n, op, zs, o, hd, hop⟩ := startDrain_spec h a b ch
      exact ⟨[op], by rw [hd], by simpa using hop⟩
    | true =>
      rw [startDrain, if_pos h]
      exact same
  · exact same

theorem drainLine_of_none {b : Block} {ch line : Nat} (h : mergeFind (chan b ch) line = none) (a : Arrays) : drainLine a b ch line = b := by
  rw [drainLine, h]

@[simp] theorem chan_setMerge_merge (b : Block) (ch serial : Nat) (f : MergeEntry → MergeEntry) :
    (chan (setMerge b ch serial f) ch).merge = (chan b ch).merge.map (fun e => if e.serial = serial then f e else e) := by
  simp [setMerge]

theorem drainLine_marks {b : Block} {ch line : Nat} {e : MergeEntry} (h : mergeFind (chan b ch) line = some e) (hd : e.draining = false)
    (a : Arrays) : ∃ m ∈ (chan (drainLine a b ch line) ch).merge, m.serial = e.serial ∧ m.draining = true := by
  obtain ⟨n, op, zs, o, hs, -⟩ := startDrain_spec hd a b ch
  refine ⟨{ e with draining := true }, ?_, rfl, rfl⟩
  rw [drainLine, h]
  dsimp only
  rw [hs]
  change _ ∈ (chan (setMerge b ch e.serial fun e => { e with draining := true }) ch).merge
  rw [chan_setMerge_merge]
  exact List.mem_map.mpr ⟨e, List.mem_of_find?_eq_some h, if_pos rfl⟩

/-! The check point. -/

/-- An operation at check point E, with nothing to fail the canary and none of its bank behind it, is all that its command checks. -/
theorem checkPoint_chkE {a : Arrays} {b : Block} {ch n : Nat} {op : LineOp} (h : b.checks a ch n op) (hst : op.stage = .chkE) :
    op ∈ b.ops ∧ op.unread = false ∧ checkPoint a b ch n = settleBank a (checkE a b op) ch op.bank := by
  obtain ⟨-, hdue, hfail, hheld⟩ := h
  have hmem : op ∈ dueChecks b ch := List.mem_of_getElem? hdue
  simp only [dueChecks, List.mem_filter, Bool.and_eq_true, beq_iff_eq] at hmem
  obtain ⟨hop, ⟨hch, -⟩, -⟩ := hmem
  have hun : op.unread = false := (hheld op hop hch rfl).2
  refine ⟨hop, hun, ?_⟩
  have hsame : ({ op with unread := false } : LineOp) = op := by rw [← hun]
  simp only [checkPoint, tripScan_of_none hfail, hdue, settleBank_of_noneHeld hheld, hsame]
  simp only [checkOp, hst]

/-- The block in which a write has committed at E: it stands at the array input register one cycle later (R115). -/
def committedE (b : Block) (op : LineOp) (o : Observe) : Block :=
  { b with
    ops := b.ops.map (fun o => if o.serial = op.serial then { op with stage := .store, readyAt := b.now + 1 } else o)
    obs := o }

/-- A write that passes E stands at the array input register, and the entry of its line drains (R160, R233). -/
theorem checkE_passed {b : Block} {op : LineOp} (hr : rejected b op (some (opCluster op)) = false) (hk : op.kind ≠ .drain) (a : Arrays) :
    ∃ o, checkE a b op = drainLine a (committedE b op o) op.ch op.line := by
  obtain ⟨o, ho⟩ := traceData_eq b op (wordsOf (wordAny op.be)) (checkValue a b op).1
  refine ⟨o, ?_⟩
  simp only [checkE, hr, hk, ho, Bool.false_eq_true, if_false]
  rfl

/-- A write that the fence stops is dropped and acknowledged as rejected (R163, R164). -/
theorem checkE_rejected {b : Block} {op : LineOp} (hr : rejected b op (some (opCluster op)) = true) (hk : op.kind ≠ .drain) (a : Arrays) :
    ∃ o, checkE a b op = ackOp { b with ops := b.ops.filter (fun o => o.serial != op.serial), obs := o } op true := by
  obtain ⟨o, ho⟩ := count_eq (dropOp b op) 0x26 { ch := op.ch, ctx := op.ctx } 1
  exact ⟨o, by simp only [checkE, hr, hk, if_true, if_false, rejectTap, ho]; rfl⟩

/-- Settles O21: the write is the one operation that its command checks; it commits and the entry of its line drains, or the fence drops
it. -/
theorem writeAtCheckPointE : Obligations.WriteAtCheckPointE := by
  intro s ch n op h hst hkind
  obtain ⟨hok, -, -, hheld⟩ := id h
  have hdrain : op.kind ≠ .drain := by simp [hkind]
  obtain ⟨hop, hun, hcheck⟩ := checkPoint_chkE h hst
  refine ⟨fun hr => ?_, fun hr => ?_⟩
  · obtain ⟨o, hE⟩ := checkE_passed hr hdrain s.arr
    obtain ⟨l, hl, hnew⟩ := drainLine_ops s.arr (committedE s.blk op o) op.ch op.line
    rw [← hE, committedE] at hl
    refine ⟨checkE s.arr s.blk op, guardedArr_eq_next hok (hcheck.trans (settleBank_of_noneHeld (hheld.of_ops fun o ho => ?_) _)),
      ⟨_, ?_, rfl⟩, fun hnone => ?_, fun e he hd => ?_⟩
    · rw [hl, List.mem_append, List.mem_map] at ho
      obtain ⟨x, hx, rfl⟩ | ho := ho
      · split
        · exact .inr ⟨nofun, hun⟩
        · exact .inl hx
      · exact .inr (hnew o ho)
    · rw [hl]
      exact List.mem_append_left _ (List.mem_map.mpr ⟨op, hop, if_pos rfl⟩)
    · rw [hE.trans (drainLine_of_none (b := committedE s.blk op o) hnone s.arr)]
      exact ⟨rfl, rfl⟩
    · rw [hE]
      exact drainLine_marks (b := committedE s.blk op o) he hd s.arr
  · obtain ⟨o, hE⟩ := checkE_rejected hr hdrain s.arr
    refine ⟨checkE s.arr s.blk op, guardedArr_eq_next hok (hcheck.trans (settleBank_of_noneHeld (hheld.of_ops fun o ho => ?_) _)), ?_⟩
    · rw [hE] at ho
      exact .inl (List.mem_of_mem_filter ho)
    · rw [hE]
      exact ⟨rfl, rfl, rfl⟩

end Sys2Proof.Machine
end

section
/-! PROOFS. Stored words (R222): a word that is written reads back, and no byte of another word changes. -/

namespace Sys2Proof.Machine

/-! The bytes of a number. -/

theorem leBytes_succ (n v : Nat) : leBytes (n + 1) v = BitVec.ofNat 8 v :: leBytes n (v >>> 8) := by
  simp only [leBytes, List.range_succ_eq_map, List.map_cons, List.map_map, Nat.mul_zero, Nat.shiftRight_zero, List.cons.injEq, true_and]
  refine List.map_congr_left fun k _ => ?_
  rw [Function.comp_apply, ← Nat.shiftRight_add]
  congr 2
  omega

theorem leNat_leBytes (n v : Nat) : leNat (leBytes n v) = v % 256 ^ n := by
  induction n generalizing v with
  | zero => simp [leBytes, leNat, Nat.mod_one]
  | succ n ih =>
    have hcons : leNat (leBytes (n + 1) v) = leNat (leBytes n (v >>> 8)) * 256 + v % 256 := by simp [leBytes_succ, leNat]
    rw [hcons, ih, Nat.shiftRight_eq_div_pow, pow_succ' 256 n, Nat.mod_mul]
    ring

@[simp] theorem leBytes_length (n v : Nat) : (leBytes n v).length = n := by simp [leBytes]

@[simp] theorem wordBytes_length (w : Word × Byte) : (wordBytes w).length = 9 := by simp [wordBytes]

/-! Words. -/

theorem readByte_writeWord_out (m : Memory) (key : Nat) (w : Word × Byte) {i : Nat} (h : i < key ∨ key + 9 ≤ i) :
    readByte (writeWord m key w) i = readByte m i :=
  readByte_writeBytes_out (by simpa using h)

theorem readByte_writeWord_in (m : Memory) (key : Nat) (w : Word × Byte) {i : Nat} (h : i < 9) :
    readByte (writeWord m key w) (key + i) = (wordBytes w).getD i 0 :=
  readByte_writeBytes_in m key _ (by simpa using h)

/-- A word reads by its nine bytes. -/
theorem readWord_congr {m m' : Memory} {key : Nat} (h : ∀ i, i < 9 → readByte m (key + i) = readByte m' (key + i)) :
    readWord m key = readWord m' key := by
  have hdata : readBytes m key 8 = readBytes m' key 8 := List.map_congr_left fun i hi => h i (by have := List.mem_range.mp hi; omega)
  rw [readWord, readWord, hdata, h 8 (by decide)]

theorem readWord_writeWord (m : Memory) (key : Nat) (w : Word × Byte) : readWord (writeWord m key w) key = w := by
  have hdata : readBytes (writeWord m key w) key 8 = leBytes 8 w.1.toNat := by
    refine List.ext_getElem (by simp [readBytes]) fun i hi _ => ?_
    have h8 : i < 8 := by simpa [readBytes] using hi
    simp [readBytes, readByte_writeWord_in m key w (show i < 9 by omega), wordBytes, List.getElem?_append_left, h8]
  rw [readWord, hdata, leNat_leBytes, readByte_writeWord_in m key w (by decide)]
  refine Prod.ext (BitVec.eq_of_toNat_eq ?_) (by simp [wordBytes])
  simpa using w.1.isLt

theorem readWord_writeWord_apart (m : Memory) {key k : Nat} (w : Word × Byte) (h : k + 9 ≤ key ∨ key + 9 ≤ k) :
    readWord (writeWord m key w) k = readWord m k :=
  readWord_congr fun i hi => readByte_writeWord_out m key w (by omega)

/-! Some of the words of a line. -/

/-- The words `k < n` that `p` holds for are stored as `f k`, each in its own sixteen keys. -/
def storeSome (key : Nat) (p : Nat → Bool) (f : Nat → Word × Byte) (m : Memory) (n : Nat) : Memory :=
  (List.range n).foldl (fun m k => if p k then writeWord m (key + 16 * k) (f k) else m) m

theorem storeSome_succ (key : Nat) (p : Nat → Bool) (f : Nat → Word × Byte) (m : Memory) (n : Nat) :
    storeSome key p f m (n + 1) =
      if p n then writeWord (storeSome key p f m n) (key + 16 * n) (f n) else storeSome key p f m n := by
  rw [storeSome, List.range_succ, List.foldl_append]
  rfl

theorem readWord_storeSome (key : Nat) {p : Nat → Bool} (f : Nat → Word × Byte) (m : Memory) {n k : Nat} (hk : k < n) (hp : p k = true) :
    readWord (storeSome key p f m n) (key + 16 * k) = f k := by
  induction n with
  | zero => omega
  | succ n ih =>
    rw [storeSome_succ]
    rcases Nat.lt_or_eq_of_le (Nat.le_of_lt_succ hk) with hlt | rfl
    · split
      · rw [readWord_writeWord_apart _ _ (by omega), ih hlt]
      · exact ih hlt
    · rw [if_pos hp, readWord_writeWord]

theorem readByte_storeSome (key : Nat) {p : Nat → Bool} (f : Nat → Word × Byte) (m : Memory) {n i : Nat}
    (h : ∀ k, k < n → p k = true → i < key + 16 * k ∨ key + 16 * k + 9 ≤ i) : readByte (storeSome key p f m n) i = readByte m i := by
  induction n with
  | zero => rfl
  | succ n ih =>
    have hn := ih fun k hk => h k (by omega)
    rw [storeSome_succ]
    split
    · next hp => rw [readByte_writeWord_out _ _ _ (h n (by omega) hp), hn]
    · exact hn

end Sys2Proof.Machine
end

section
/-! PROOFS. A bank's slot (R109, R115, R194, R222, R224, R234): the decision finds its line operation among the waiting ones, counts it, and
the operation acts on its line at once. -/

namespace Sys2Proof.Machine

/-! The operation that a decision chooses. -/

theorem mem_of_leastBy {α : Type} {key : α → Nat} {l : List α} {x : α} (h : leastBy key l = some x) : x ∈ l := by
  induction l generalizing x with
  | nil => cases h
  | cons y l ih =>
    unfold leastBy at h
    split at h
    · cases h
      exact List.mem_cons_self
    · next z hz =>
      split at h
      · cases h
        exact List.mem_cons_self
      · cases h
        exact List.mem_cons_of_mem _ (ih hz)

theorem dredgePick_ne_op (c : Channel) (bank : Nat) (hold : Bool) (op : LineOp) (rank : Nat) : dredgePick c bank hold ≠ .op op rank := by
  unfold dredgePick
  extract_lets read
  have hread : read ≠ .op op rank := by
    unfold read
    split <;> nofun
  split
  · exact hread
  · split
    · nofun
    · split
      · nofun
      · exact hread

theorem poisonPick_ne_op (c : Channel) (bank : Nat) (op : LineOp) (rank : Nat) : poisonPick c bank ≠ .op op rank := by
  unfold poisonPick
  split <;> nofun

theorem quiescePick_op {b : Block} {c : Channel} {ch bank rank : Nat} {op : LineOp} (h : quiescePick b c ch bank = .op op rank) :
    op ∈ b.ops ∧ waitsAt b.now ch bank op = true := by
  unfold quiescePick at h
  split at h
  · split at h
    · next o ho =>
      cases h
      have hp := List.find?_some ho
      simp only [Bool.and_eq_true] at hp
      exact ⟨List.mem_of_find?_eq_some ho, hp.2⟩
    · cases h
  · split at h <;> cases h

/-- What a bank's slot is given to waits for the bank (R194, R196). -/
theorem pick_op {b : Block} {ch bank slot owner next rank : Nat} {op : LineOp} (hbank : bank < 64)
    (h : pick b ch bank slot owner next = .op op rank) : op ∈ b.ops ∧ waitsAt b.now ch bank op = true := by
  unfold pick at h
  extract_lets c bs after hold dr ready best rest at h
  have hdr : dr ≠ .op op rank := by
    unfold dr
    split
    · exact dredgePick_ne_op c bank hold op rank
    · nofun
  have hpoison : (if owner ≤ 1 ∧ hold = false then poisonPick c bank else .nothing) ≠ .op op rank := by
    split
    · exact poisonPick_ne_op c bank op rank
    · nofun
  have hbest : ∀ o r, best = some (o, r) → o ∈ b.ops ∧ waitsAt b.now ch bank o = true := by
    intro o r ho
    obtain ⟨o', ho', heq⟩ := List.mem_map.mp (mem_of_leastBy ho)
    cases heq
    have hm := List.mem_filter.mp ho'
    simp only [Bool.and_eq_true] at hm
    exact ⟨hm.1, hm.2.1.1.1⟩
  clear_value dr best
  rw [if_neg (by omega)] at h
  split at h
  · split at h
    · exact quiescePick_op h
    · cases h
  · generalize (if owner ≤ 1 ∧ hold = false then poisonPick c bank else .nothing) = poison at h hpoison
    split at h
    · cases h
      exact hbest _ _ rfl
    · split at h
      · cases h
        exact hbest _ _ rfl
      · cases h
    · unfold rest at h
      split at h
      · cases h
        exact hbest _ _ rfl
      · cases h
    · exact absurd h hpoison
    · exact absurd h hdr

/-- It waits for this bank of this channel. -/
theorem waitsAt_place {now ch bank : Nat} {op : LineOp} (h : waitsAt now ch bank op = true) : op.ch = ch ∧ op.bank = bank := by
  simp only [waitsAt, Bool.and_eq_true, beq_iff_eq] at h
  exact ⟨h.1.1.1, h.1.1.2⟩

/-! The decision. -/

theorem parityCheck_of_ok {b : Block} {ch r k slot : Nat} (h : parOk (slotEntry (chan b ch) r k (slot % 256)) = true) :
    parityCheck b ch r k slot = b := by
  simp [parityCheck, h]

theorem settleTags_of_none {b : Block} {ch : Nat} (h : ∀ e ∈ (chan b ch).tagFix, e.2.isEmpty = false) (a : Arrays) :
    settleTags a b ch = (a, b) := by
  have hnone : (chan b ch).tagFix.filter (fun e => e.2.isEmpty) = [] := List.filter_eq_nil_iff.mpr fun e he => by simp [h e he]
  rw [settleTags, hnone]
  rfl

theorem noteExcluded_of_noRead {b : Block} {ch bank : Nat} (h : (chan b ch).dredge.reads.contains bank = false) (slot owner : Nat) :
    noteExcluded b ch bank slot owner = b := by
  rw [noteExcluded, if_pos (.inr h)]

/-- Where no waiting operation stands behind an entry of its line, none is made to drain (R233). -/
theorem forceDrains_of_none {b : Block} {ch bank : Nat}
    (h : ∀ o ∈ b.ops, waitsAt b.now ch bank o = true → (chan b ch).merge.any (entryBefore o) = false) (a : Arrays) :
    forceDrains a b ch bank = b := by
  unfold forceDrains
  extract_lets waits
  have hwaits : ∀ o ∈ waits, (chan b ch).merge.any (entryBefore o) = false := by
    intro o ho
    simp only [waits, List.mem_filter, Bool.and_eq_true] at ho
    exact h o ho.1 ho.2.1.1.1
  clear_value waits
  induction waits with
  | nil => rfl
  | cons o l ih =>
    rw [List.foldl_cons, if_neg (by rw [hwaits o List.mem_cons_self]; exact Bool.false_ne_true)]
    exact ih fun o ho => hwaits o (List.mem_cons_of_mem _ ho)

/-- The command performs what its arbiter's decision gives the slot to. -/
theorem grantBank_decides {b : Block} {ch bank slot : Nat} {choice : Pick} (h : b.decides ch bank slot choice) (a : Arrays) :
    ∃ owner waiting, grantBank a b ch bank = performPick a b ch bank slot owner waiting choice := by
  obtain ⟨-, hbank, hrun, hslot, hlast, hpar, htags, hreads, hdrains, hheld, hpick⟩ := h
  have h64 : ¬ 64 ≤ bank := by omega
  refine ⟨slotOwner (chan b ch) (rosterOf b slot) (bank / 8) (slot % 256),
    b.ops.filter (fun op => waitsAt b.now ch bank op && !sparedNow (chan b ch) bank && decide (bank < 64)), ?_⟩
  simp only [grantBank, hrun, hslot, if_true, h64, if_false, parityCheck_of_ok hpar, settleTags_of_none htags,
    settleBank_of_noneHeld hheld, decideSlot, hlast, noteExcluded_of_noRead hreads, forceDrains_of_none hdrains, hpick]

/-! The counters of a grant. -/

/-- `c` is `b` but for counters of channel `ch` that the grant of a slot moves, and what the counters record (R200, R201, R443). -/
structure Counted (b c : Block) (ch n : Nat) : Prop where
  fixed : { c with chans := b.chans, obs := b.obs } = b
  merge : (chan c ch).merge = (chan b ch).merge
  banks : (chan c ch).banks = (chan b ch).banks
  spare : (chan c ch).spare = (chan b ch).spare
  grants : (chan c ch).grants = (chan b ch).grants + n

theorem Counted.refl (b : Block) (ch : Nat) : Counted b b ch 0 := ⟨rfl, rfl, rfl, rfl, rfl⟩

theorem Counted.trans {b c d : Block} {ch m n : Nat} (hbc : Counted b c ch m) (hcd : Counted c d ch n) : Counted b d ch (m + n) where
  fixed := by
    have h := hbc.fixed
    rw [← hcd.fixed] at h
    exact h
  merge := hcd.merge.trans hbc.merge
  banks := hcd.banks.trans hbc.banks
  spare := hcd.spare.trans hbc.spare
  grants := by rw [hcd.grants, hbc.grants, Nat.add_assoc]

/-- The block that a count leaves, part by part. -/
theorem Counted.eq {b c : Block} {ch n : Nat} (h : Counted b c ch n) : c = { b with chans := c.chans, obs := c.obs } := by
  conv_rhs => rw [← h.fixed]

theorem counted_obs {b c : Block} (h : ∃ o, c = { b with obs := o }) (ch : Nat) : Counted b c ch 0 := by
  obtain ⟨o, rfl⟩ := h
  exact ⟨rfl, rfl, rfl, rfl, rfl⟩

theorem counted_count (b : Block) (e : Nat) (t : Tap) (n ch : Nat) : Counted b (count b e t n) ch 0 := counted_obs (count_eq b e t n) ch

theorem counted_setChan (b : Block) (ch n : Nat) {f : Channel → Channel}
    (h : ∀ c, (f c).merge = c.merge ∧ (f c).banks = c.banks ∧ (f c).spare = c.spare ∧ (f c).grants = c.grants + n) :
    Counted b (setChan b ch f) ch n := by
  obtain ⟨hmerge, hbanks, hspare, hgrants⟩ := h (chan b ch)
  exact ⟨rfl, by simpa using hmerge, by simpa using hbanks, by simpa using hspare, by simpa using hgrants⟩

theorem counted_ite {p : Prop} [Decidable p] {b c d : Block} {ch n : Nat} (hc : Counted b c ch n) (hd : Counted b d ch n) :
    Counted b (if p then c else d) ch n := by
  split
  · exact hc
  · exact hd

theorem countLosers_counted (b : Block) (ch bank : Nat) (l : List LineOp) : Counted b (countLosers b ch bank l) ch 0 := by
  refine foldl_inv (fun c => Counted b c ch 0) _ (fun c op hc => ?_) _ b (.refl b ch)
  extract_lets d
  have hd : Counted c d ch 0 := counted_count ..
  refine (hc.trans hd).trans (n := 0) ?_
  exact counted_setChan _ ch 0 fun _ => ⟨rfl, rfl, rfl, rfl⟩

theorem grantTaps_counted (b : Block) (ch rank : Nat) {bank : Nat} (op : LineOp) (hbank : bank < 64) :
    Counted b (grantTaps b ch bank rank op) ch 1 := by
  unfold grantTaps
  rw [if_neg (by omega)]
  extract_lets k owned cls src t b₁ b₂ passed b₃ b₄
  have h₁ : Counted b b₁ ch 0 := counted_count ..
  have h₂ : Counted b₁ b₂ ch 0 := counted_ite (counted_count ..) (.refl ..)
  have h₃ : Counted b₂ b₃ ch 0 := counted_ite (counted_count ..) (.refl ..)
  have h₄ : Counted b₃ b₄ ch 0 := counted_ite (counted_count ..) (.refl ..)
  refine (((h₁.trans h₂).trans h₃).trans h₄).trans (n := 1) ?_
  exact counted_setChan b₄ ch 1 fun _ => ⟨rfl, rfl, rfl, rfl⟩

theorem grantTrace_counted (b : Block) (ch bank slot owner rank src : Nat) :
    Counted b (grantTrace b ch bank slot owner rank src) ch 0 := by
  unfold grantTrace
  extract_lets f want
  exact counted_ite (counted_obs (trcEnter_eq ..) ch) (.refl b ch)

/-- A slot that is given to a line operation is counted; the operation has it, and the bank remembers it. -/
theorem performPick_op (a : Arrays) (b : Block) (ch slot owner rank : Nat) {bank : Nat} (waiting : List LineOp) (op : LineOp)
    (hbank : bank < 64) : ∃ c, Counted b c ch 1 ∧ performPick a b ch bank slot owner waiting (.op op rank) =
      let r := performOp a c (bankOf (chan b ch) bank) slot op
      (r.1, markBank r.2 ch bank slot (some op.src) op.row (changedWords op) (if bySequencer op.kind then none else some op.org)) :=
  ⟨_, ((countLosers_counted b ch bank _).trans (grantTaps_counted _ ch rank op hbank)).trans (grantTrace_counted ..), rfl⟩

end Sys2Proof.Machine
end

section
/-! PROOFS. What a line operation does in its slot where nothing stands before it on its line: a read takes the line as it is stored, a
committed write stores its words (R109, R115, R222, R224, R225, R234). -/

namespace Sys2Proof.Machine

/-! Counters leave the stored line where it is. -/

section
variable {b c : Block} {ch n : Nat}

theorem Counted.servedKey (h : Counted b c ch n) (bank row : Nat) : Machine.servedKey c ch bank row = Machine.servedKey b ch bank row := by
  have hbank : physBank (chan c ch) bank = physBank (chan b ch) bank := by rw [physBank, physBank, h.spare]
  rw [Machine.servedKey, Machine.servedKey, hbank, h.eq]
  rfl

theorem Counted.opLine (h : Counted b c ch n) (a : Arrays) {op : LineOp} (hch : op.ch = ch) :
    Machine.opLine a c op = Machine.opLine a b op := by
  subst hch
  rw [Machine.opLine, Machine.opLine, h.servedKey, h.eq]

theorem Counted.withMerge (h : Counted b c ch n) (line : Nat) (data : LineData) (pm : WordMask) :
    Machine.withMerge c ch line data pm = Machine.withMerge b ch line data pm := by
  rw [Machine.withMerge, Machine.withMerge, mergeFind, mergeFind, h.merge]

end

/-! The slot of a read or a committed write. -/

/-- A read of words that are all clean notes nothing (R229). -/
theorem noteRead_of_clean {ds : List Decoded} (h : ∀ d ∈ ds, d.verdict = .clean) (a : Arrays) (b : Block) (ch bank row consumer : Nat)
    (known post : Bool) : noteRead a b ch bank row consumer known post ds = b := by
  have hnone : ∀ v, v ≠ .clean → ds.zipIdx.filter (fun e => e.1.verdict == v) = [] := fun v hv =>
    List.filter_eq_nil_iff.mpr fun e he => by rw [h e.1 (List.fst_mem_of_mem_zipIdx he)]; simpa using hv.symm
  simp [noteRead, hnone]

/-- A word that the slot before changed is read as clean (R109). -/
theorem settledWords_clean {ds : List Decoded} (h : ∀ d ∈ ds, d.verdict = .clean) (coll : WordMask) :
    ∀ d ∈ settledWords coll ds, d.verdict = .clean := by
  intro d hd
  obtain ⟨e, he, rfl⟩ := List.mem_map.mp hd
  split
  · rfl
  · exact h e.1 (List.fst_mem_of_mem_zipIdx he)

/-- A read of clean words goes on with the line and the merge buffer's entry laid over it (R234). -/
theorem performRead_of_clean {a : Arrays} {b : Block} {op : LineOp} (h : ∀ d ∈ opLine a b op, d.verdict = .clean) :
    ∃ n, performRead a b op = { b with
      free := n
      ops := b.ops ++ [{ op with
        stage := .ret, back := backHops b op
        data := freeWords b op.coll (withMerge b op.ch op.line (lineData (opLine a b op)) (badWords (opLine a b op))).1
        wp := (withMerge b op.ch op.line (lineData (opLine a b op)) (badWords (opLine a b op))).2 }] } := by
  simp only [performRead, noteRead_of_clean (settledWords_clean h op.coll)]
  split
  · exact ⟨b.free, rfl⟩
  · exact ⟨b.free + 16, rfl⟩

/-- An operation that has had its slot, and no turn (R109, R115). -/
def slotted (b : Block) (bs : BankSt) (slot : Nat) (op : LineOp) : LineOp :=
  { op with grantAt := b.now, coll := fresherWords bs slot op, unread := false, stage := .line, readyAt := phaseEnd b op + 4 }

/-- No turn of the operation's line is on its way to K. -/
def Block.noTurn (b : Block) (op : LineOp) : Prop := ∀ o ∈ b.ops, o.stage = .chkK → o.ch = op.ch → o.bank = op.bank → o.row ≠ op.row

theorem filter_slotted (l : List LineOp) (b : Block) (bs : BankSt) (slot : Nat) (op : LineOp) :
    (l.map (fun o => if o.serial = op.serial then slotted b bs slot op else o)).filter
      (fun o => o.serial != (slotted b bs slot op).serial) = l.filter (fun o => o.serial != op.serial) := by
  have hs : (slotted b bs slot op).serial = op.serial := rfl
  induction l with
  | nil => rfl
  | cons o l ih =>
    rw [hs] at ih ⊢
    by_cases ho : o.serial = op.serial <;> simp [ho, hs, ih]

theorem turnAhead_slotted {b c : Block} {bs : BankSt} {slot : Nat} {op : LineOp} (h : b.noTurn op)
    (hc : c.ops = b.ops.map (fun o => if o.serial = op.serial then slotted b bs slot op else o)) :
    turnAhead c (slotted b bs slot op) = false := by
  refine List.any_eq_false.mpr fun o ho => ?_
  rw [hc] at ho
  obtain ⟨x, hx, rfl⟩ := List.mem_map.mp ho
  split
  · simp [slotted]
  · intro hp
    simp only [Bool.and_eq_true, beq_iff_eq] at hp
    obtain ⟨⟨⟨⟨hst, hch⟩, hbank⟩, hrow⟩, -⟩ := hp
    exact h x hx hst hch hbank hrow

theorem actOnLine_read {op : LineOp} (hk : op.kind = .read ∨ op.kind = .desc ∨ op.kind = .index) (a : Arrays) (b : Block) :
    actOnLine a b op = (a, performRead a { b with ops := b.ops.filter (fun o => o.serial != op.serial) } op) := by
  rcases hk with hk | hk | hk <;> simp only [actOnLine, hk]

theorem actOnLine_write {op : LineOp} (hk : op.kind = .write) (hst : op.stage = .line) (a : Arrays) (b : Block) :
    actOnLine a b op = writeWords a { b with ops := b.ops.filter (fun o => o.serial != op.serial) } op := by
  simp [actOnLine, hk, hst, dropEntry]

/-- What a read of its slot goes on to stage C as: the stored line with the merge buffer's entry laid over it (R109, R115, R234). -/
def readBack (a : Arrays) (b : Block) (bs : BankSt) (slot : Nat) (op : LineOp) : LineOp :=
  let ds := opLine a b op
  let v := withMerge b op.ch op.line (lineData ds) (badWords ds)
  { op with
    stage := .ret, readyAt := phaseEnd b op + 4, data := freeWords b (fresherWords bs slot op) v.1, wp := v.2
    coll := fresherWords bs slot op, back := backHops b op, grantAt := b.now, unread := false }

theorem Counted.readBack {b c : Block} {op : LineOp} {n : Nat} (h : Counted b c op.ch n) (a : Arrays) (bs : BankSt) (slot : Nat) :
    Machine.readBack a c bs slot op = Machine.readBack a b bs slot op := by
  rw [Machine.readBack, Machine.readBack, h.opLine a rfl, h.withMerge, h.eq]
  rfl

theorem performOp_read {a : Arrays} {b : Block} {op : LineOp} (hk : op.kind = .read ∨ op.kind = .desc ∨ op.kind = .index)
    (h : b.noTurn op) (hclean : ∀ d ∈ opLine a b op, d.verdict = .clean) (bs : BankSt) (slot : Nat) :
    ∃ n, performOp a b bs slot op =
      (a, { b with free := n, ops := b.ops.filter (fun o => o.serial != op.serial) ++ [readBack a b bs slot op] }) := by
  unfold performOp
  extract_lets coll turn ackAt next c d
  have hturn : turn = false := by rcases hk with hk | hk | hk <;> simp [turn, hk, isReadKind]
  have hnext : next = slotted b bs slot op := by simp only [next, hturn]; rfl
  have hd : d = c := by unfold d; rcases hk with hk | hk | hk <;> rw [hk]
  have hc : c.ops = b.ops.map (fun o => if o.serial = op.serial then slotted b bs slot op else o) := by rw [← hnext]
  obtain ⟨n, hread⟩ := performRead_of_clean (a := a) (b := { b with ops := b.ops.filter (fun o => o.serial != op.serial) })
    (op := slotted b bs slot op) hclean
  refine ⟨n, ?_⟩
  rw [hd, hnext, turnAhead_slotted h hc, if_neg Bool.false_ne_true, actOnLine_read (op := slotted b bs slot op) hk, hc, filter_slotted]
  exact congrArg (Prod.mk a) hread

/-- A committed write stores its words alone, where its line reads as it is stored and no tag has been set past it (R115, R222, R224). -/
theorem writeWords_stored {b : Block} {op : LineOp} (hz : b.zeroLines.contains (lineKey op.ch op.bank op.row) = false) (hold : op.old = false)
    (a : Arrays) : writeWords a b op =
      ({ a with
        mem := storeSome (servedKey b op.ch op.bank op.row) (fun k => bit op.wp k || wordAny op.be k)
          (fun k => storeWord (bit op.wp k) (lineWord (overlay 0 op.data op.be) k)) a.mem 16 }, b) := by
  unfold writeWords
  rw [hz, hold]
  rfl

theorem performOp_store {b : Block} {op : LineOp} (hk : op.kind = .write) (hst : op.stage = .store) (hold : op.old = false)
    (h : b.noTurn op) (hz : b.zeroLines.contains (lineKey op.ch op.bank op.row) = false) (a : Arrays) (bs : BankSt) (slot : Nat) :
    performOp a b bs slot op =
      ({ a with
          mem := storeSome (servedKey b op.ch op.bank op.row) (fun k => bit op.wp k || wordAny op.be k)
            (fun k => storeWord (bit op.wp k) (lineWord (overlay 0 op.data op.be) k)) a.mem 16 },
        { ackLine b op (max (op.readyAt + 2) (b.now + 1) + retHops op.org op.ch (opCluster op))
            (writeLat op.org op.ch (opCluster op) false) false with ops := b.ops.filter (fun o => o.serial != op.serial) }) := by
  unfold performOp
  extract_lets coll turn ackAt next c d
  have hturn : turn = false := by simp [turn, hst]
  have hnext : next = slotted b bs slot op := by simp only [next, hturn]; rfl
  have hd : d = ackLine c op ackAt (writeLat op.org op.ch (opCluster op) false) false := by unfold d; rw [hk]
  have hc : d.ops = b.ops.map (fun o => if o.serial = op.serial then slotted b bs slot op else o) := by rw [hd, ← hnext]; rfl
  rw [hnext, turnAhead_slotted h hc, if_neg Bool.false_ne_true, actOnLine_write (op := slotted b bs slot op) hk rfl, hc, filter_slotted, hd]
  refine (writeWords_stored ?_ ?_ a).trans rfl
  · exact hz
  · exact hold

/-! The bank's memory of its slot. -/

@[simp] theorem bankOf_markBank (b : Block) (ch bank slot src row : Nat) (words : WordMask) (org : Option Origin) :
    bankOf (chan (markBank b ch bank slot (some src) row words org) ch) bank =
      { bankOf (chan b ch) bank with
        lastSlot := some slot, lastAt := b.now, lastSrc := some src, wroteRow := row, wroteWords := words, wrotePort := org } := by
  simp [markBank, setBank, bankOf, tmod]

@[simp] theorem chan_markBank_grants (b : Block) (ch bank slot : Nat) (src : Option Nat) (row : Nat) (words : WordMask)
    (org : Option Origin) : (chan (markBank b ch bank slot src row words org) ch).grants = (chan b ch).grants := by
  simp [markBank, setBank]

@[simp] theorem chan_markBank_merge (b : Block) (ch bank slot : Nat) (src : Option Nat) (row : Nat) (words : WordMask)
    (org : Option Origin) : (chan (markBank b ch bank slot src row words org) ch).merge = (chan b ch).merge := by
  simp [markBank, setBank]

/-! The two slots. -/

/-- A slot that is given to a line operation performs it, counted, and the bank remembers it; the operation stood in the block, at this
bank, with no turn of its line on its way. -/
theorem exec_bankSlotGrant {s : State} {ch bank slot rank : Nat} {op : LineOp} (h : s.blk.grants ch bank slot rank op) :
    op.ch = ch ∧ op.bank = bank ∧ ∃ c, Counted s.blk c ch 1 ∧ c.noTurn op ∧
      let r := performOp s.arr c (bankOf (chan s.blk ch) bank) slot op
      exec (.bankSlotGrant ch bank) s = .next { s with
        arr := r.1
        blk := markBank r.2 ch bank slot (some op.src) op.row (changedWords op) (if bySequencer op.kind then none else some op.org) } := by
  obtain ⟨hdec, hturn⟩ := h
  obtain ⟨hok, hbank, -, -, -, -, -, -, -, -, hpick⟩ := id hdec
  obtain ⟨owner, waiting, hgrant⟩ := grantBank_decides hdec s.arr
  obtain ⟨hop, hwaits⟩ := pick_op hbank hpick
  obtain ⟨rfl, rfl⟩ := waitsAt_place hwaits
  obtain ⟨c, hc, hperf⟩ := performPick_op s.arr s.blk op.ch slot owner rank waiting op hbank
  refine ⟨rfl, rfl, c, hc, ?_, guardedArr_eq_next ?_ (hgrant.trans hperf)⟩
  · rw [Block.noTurn, hc.eq]
    exact hturn
  · simp only [hok, Bool.true_and, decide_eq_true_eq]
    omega

/-- Settles O18: the slot's operation reads its clean line at once, and the counters leave alone what it reads. -/
theorem slotReadsLine : Obligations.SlotReadsLine := by
  intro s ch bank slot rank op h hk ds hclean coll v
  obtain ⟨rfl, rfl, c, hc, hturn, hexec⟩ := exec_bankSlotGrant h
  have hclean' : ∀ d ∈ opLine s.arr c op, d.verdict = .clean := by rwa [hc.opLine s.arr rfl]
  have hwords : changedWords op = 0 := by rcases hk with hk | hk | hk <;> simp [changedWords, hk]
  obtain ⟨n, hperf⟩ := performOp_read hk hturn hclean' (bankOf (chan s.blk op.ch) op.bank) slot
  rw [hperf, hc.readBack, hwords] at hexec
  obtain ⟨cs, o, rfl⟩ : ∃ cs o, c = { s.blk with chans := cs, obs := o } := ⟨_, _, hc.eq⟩
  refine ⟨_, hexec, rfl, ?_, ?_, ?_, rfl⟩
  · rw [bankOf_markBank]
    exact ⟨rfl, rfl, rfl, rfl, rfl⟩
  · rw [chan_markBank_grants]
    exact hc.grants
  · rw [chan_markBank_merge]
    exact hc.merge

/-- Settles O19: the slot's operation stores its words one by one, each in its own keys (`storeSome`). -/
theorem slotStoresLine : Obligations.SlotStoresLine := by
  intro s ch bank slot rank op h hk hst hold hz key stores hops
  obtain ⟨rfl, rfl, c, hc, hturn, hexec⟩ := exec_bankSlotGrant h
  have hkey : servedKey c op.ch op.bank op.row = key := hc.servedKey op.bank op.row
  obtain ⟨cs, o, rfl⟩ : ∃ cs o, c = { s.blk with chans := cs, obs := o } := ⟨_, _, hc.eq⟩
  rw [performOp_store hk hst hold hturn hz] at hexec
  refine ⟨_, _, hexec, rfl, fun k hk hp => ?_, fun i hi => ?_, rfl, rfl, by rw [bankOf_markBank], by rw [bankOf_markBank], rfl⟩
  · rw [← hkey]
    exact readWord_storeSome _ _ _ hk hp
  · refine readByte_storeSome _ _ _ fun k hk hp => ?_
    have := hi k hk hp
    rwa [← hkey] at this

end Sys2Proof.Machine
end
section
/-! PROOFS. The check of a fetched descriptor and the index lines of a gather unit (R138, R143, R173, R178): one equation for each verdict
of the check. The two cycles count from DESCRIPTOR_READY (log 41). -/

namespace Sys2Proof.Machine

/-! What the verdicts use. -/

@[simp] theorem finishTxn_uid (x : Txn) : (finishTxn x).uid = x.uid := by
  unfold finishTxn; split <;> rfl

/-- A change that keeps the number of each request keeps the numbers of the block. -/
theorem setTxn_uids (b : Block) (uid : Nat) {f : Txn → Txn} (hf : ∀ y, (f y).uid = y.uid) :
    (setTxn b uid f).txns.map (fun y => y.uid) = b.txns.map (fun y => y.uid) := by
  simp only [setTxn, List.map_map]
  refine List.map_congr_left fun y _ => ?_
  rw [Function.comp_apply]
  split
  · exact hf y
  · rfl

theorem failDecode_loc {x : Txn} {p : PortId} (hx : x.org = .loc p) (b : Block) (code : Nat) :
    failDecode b x code = setTxn b x.uid (fun y => { y with phase := .decodeHeld code }) := by
  simp only [failDecode, hx]

/-- A request that fails decode leaves the work under way alone, wherever it came from (R69, R75). -/
theorem failDecode_frame (b : Block) (x : Txn) (code : Nat) :
    (failDecode b x code).ops = b.ops ∧ (failDecode b x code).xfers = b.xfers ∧ (failDecode b x code).chans = b.chans
      ∧ (failDecode b x code).descs = b.descs := by
  unfold failDecode
  split
  · exact ⟨rfl, rfl, rfl, rfl⟩
  · dsimp only
    split <;> simp [dropRecord, setTxn, dropTxn]

/-! The check, verdict by verdict. -/

/-- The fields of the descriptor are right. -/
def descOk (d : DescOp) (x : Txn) : Bool :=
  !d.bad && (if x.op.isGather then gatherFieldsOk d.desc x.req.ff else tileFieldsOk x.op (reqRedop x.req) d.desc)

/-- The lines that the lane will issue; a gather unit has no plan. -/
def descPlan (d : DescOp) (x : Txn) : List PlanLine :=
  if x.op.isGather || !descOk d x then [] else tilePlan x.op (reqWidth x) (tileOf d.desc)

/-- The verdict of the lane or of the gather unit. -/
def descVerdict (b : Block) (d : DescOp) (x : Txn) : Verdict138 :=
  if x.op.isGather then gatherVerdict b x d else tileVerdict b x d (descPlan d x)

/-- The cycle in which the check is over: two cycles later, and later by the channel check of X0 (R137, log 41). -/
def checkEnd (b : Block) (d : DescOp) (x : Txn) : Nat := b.now + 2 + (if descOk d x then checkCycles x d (descPlan d x) else 0)

theorem le_checkEnd (b : Block) (d : DescOp) (x : Txn) : b.now + 2 ≤ checkEnd b d x := Nat.le_add_right _ _

/-- A change of a context under a condition changes the contexts alone. -/
theorem setCtx_ite_eq (b : Block) (p : Prop) [Decidable p] (c : Nat) (f : Ctx → Ctx) :
    ∃ q, (if p then setCtx b c f else b) = { b with ctxs := q } := by
  split
  · exact ⟨_, rfl⟩
  · exact ⟨b.ctxs, rfl⟩

/-- The operation expands from the cycle `start` on, by its plan and the rounding counter of its context. -/
def expandFrom (b : Block) (d : DescOp) (x : Txn) (start : Nat) (e : DescOp) : DescOp :=
  { e with stage := .expanding, readyAt := start, snap := (ctxOf b x.req.ctx.toNat).rng, plan := descPlan d x }

/-- The data beats of the operation (R141, R174). -/
def descBeats (d : DescOp) (x : Txn) : Nat := if x.op.isRead then beatsFor (reqWidth x) (descSize x d) else beatsOwed x (descSize x d)

/-- The request learns how many lines and beats it has, and whether its write data has another length (R91, R141). -/
def learnSize (d : DescOp) (x y : Txn) : Txn :=
  finishTxn { y with
    total := if y.op.isGather then (gatherOf d.desc).count * rowLines (gatherOf d.desc) else (descPlan d x).length
    beats := descBeats d x
    mismatch := y.op.hasData && (decide (descBeats d x < y.wbeats.length) || (y.gotLast && y.wbeats.length != descBeats d x)) }

theorem learnSize_uid (d : DescOp) (x y : Txn) : (learnSize d x y).uid = y.uid := finishTxn_uid _

section
variable {b : Block} {d : DescOp} {x : Txn}

theorem descReady_malformed (h : descVerdict b d x = .malformed) :
    descReady b d x = laneFetch (answer (dropDesc b x.uid) x.uid .unsup (checkEnd b d x + wayBack x d.ch)) d.ch d.lane := by
  unfold descVerdict descPlan descOk at h
  simp only [descReady, h]
  rfl

theorem descReady_held (h : descVerdict b d x = .held) :
    descReady b d x = laneFetch (failDecode (dropDesc b x.uid) x 4) d.ch d.lane := by
  unfold descVerdict descPlan descOk at h
  simp only [descReady, h]

/-- An operation that a lock or a sleeping channel ends issues nothing, and its request is answered. -/
theorem descReady_ends (h : descVerdict b d x = .locked ∨ descVerdict b d x = .leaseLost ∨ descVerdict b d x = .asleep) :
    ∃ st, descReady b d x = laneFetch (answer (setDesc b x.uid (fun e => { e with stage := .issued, plan := descPlan d x })) x.uid st
      (checkEnd b d x + wayBack x d.ch)) d.ch d.lane := by
  unfold descVerdict descPlan descOk at h
  rcases h with h | h | h
  · exact ⟨.locked, by simp only [descReady, h]; rfl⟩
  · exact ⟨.leaseLost, by simp only [descReady, h]; rfl⟩
  · exact ⟨.asleep, by simp only [descReady, h]; rfl⟩

/-- A good descriptor: its operation expands and its request learns its lines and beats; else only the contexts' rounding counters and the
event counters change. -/
theorem descReady_go (h : descVerdict b d x = .go) : ∃ q o, descReady b d x =
    laneFetch (setTxn (setDesc { b with ctxs := q, obs := o } x.uid (expandFrom b d x (checkEnd b d x + 1))) x.uid (learnSize d x))
      d.ch d.lane := by
  unfold descVerdict descPlan descOk at h
  obtain ⟨q, hq⟩ := setCtx_ite_eq b (x.op = .tileWr ∧ (tileOf d.desc).round = 1) x.req.ctx.toNat
    (fun c => { c with rng := c.rng + 1 })
  obtain ⟨o, ho⟩ := count_eq { b with ctxs := q } 0x24 { ch := d.ch, port := x.org.code, ctx := x.req.ctx.toNat } 1
  refine ⟨q, o, ?_⟩
  simp only [descReady, h, hq, ho]
  rfl

end

theorem descriptorReady_eq {b : Block} {ch n : Nat} {d : DescOp} {x : Txn} (hd : (readyDescs b ch)[n]? = some d)
    (hx : txnOf b d.uid = some x) : descriptorReady b ch n = descReady b d x := by
  simp only [descriptorReady, hd, hx]

/-- The unit takes the index line that it waits for, and then issues the rows behind it that it can (R173, R178). -/
theorem indexReady_eq {b : Block} {ch n : Nat} {d : DescOp} (hd : (indexDescs b ch)[n]? = some d) :
    indexReady b ch n = descRun (setDesc b d.uid (fun e => { e with next := e.next + 1 })) d.uid := by
  simp only [indexReady, hd]

/-- Settles O26: DESCRIPTOR_READY by the verdict of the check, whose two cycles count from it (log 41), each with its equation; of
INDEX_LINE_READY the unit counts the line before it runs. -/
theorem descriptorsRun : Obligations.DescriptorsRun := by
  refine ⟨?_, fun s ch n d hok hd => ⟨_, guarded_eq_next hok (indexReady_eq hd), rfl, rfl⟩⟩
  intro s ch n d x hok hd hx huid ok plan v
  rw [← huid]
  have hv : descVerdict s.blk d x = v := rfl
  have hrow : ∀ {c}, descReady s.blk d x = laneFetch c d.ch d.lane →
      exec (.descriptorReady ch n) s = .next { s with blk := laneFetch c d.ch d.lane } :=
    fun h => guarded_eq_next hok ((descriptorReady_eq hd hx).trans h)
  clear_value v
  cases v with
  | malformed =>
    exact ⟨_, hrow (descReady_malformed hv), fun _ => ⟨rfl, _, (le_checkEnd _ d x).trans (Nat.le_add_right _ _), rfl⟩,
      nofun, nofun, rfl, rfl, rfl⟩
  | held =>
    obtain ⟨hops, hxfers, hchans, hdescs⟩ := failDecode_frame (dropDesc s.blk x.uid) x 4
    refine ⟨_, hrow (descReady_held hv), nofun, fun _ ⟨p, hp⟩ => ⟨hdescs, ?_⟩, nofun, hops, hxfers, hchans⟩
    rw [failDecode_loc hp]
    rfl
  | go =>
    obtain ⟨q, o, h⟩ := descReady_go hv
    exact ⟨_, hrow h, nofun, nofun, fun _ =>
      ⟨_, (le_checkEnd _ d x).trans (Nat.le_add_right _ _), rfl, setTxn_uids _ _ (learnSize_uid d x)⟩, rfl, rfl, rfl⟩
  | locked | leaseLost | asleep =>
    obtain ⟨st, h⟩ := descReady_ends (b := s.blk) (d := d) (x := x) (by simp [hv])
    exact ⟨_, hrow h, nofun, nofun, nofun, rfl, rfl, rfl⟩

end Sys2Proof.Machine
end

section
/-! PROOFS. A reduce turn in its slot and at check point K (R149 to R153): its line is read in the slot, and stored whole at K. -/

namespace Sys2Proof.Machine

/-! Whole lines. -/

/-- The lists of a `flatMap`, each of `m` items, lie one behind the other. -/
theorem getElem?_flatMap_range {α : Type} {g : Nat → List α} {m : Nat} (h : ∀ k, (g k).length = m) {n k i : Nat} (hk : k < n)
    (hi : i < m) : ((List.range n).flatMap g)[m * k + i]? = (g k)[i]? := by
  induction n with
  | zero => omega
  | succ n ih =>
    have hlen : ((List.range n).flatMap g).length = m * n := by simp [List.length_flatMap, h, Nat.mul_comm]
    rw [List.range_succ, List.flatMap_append, List.flatMap_singleton]
    rcases Nat.lt_or_eq_of_le (Nat.le_of_lt_succ hk) with hlt | rfl
    · have hroom : m * (k + 1) ≤ m * n := Nat.mul_le_mul_left m hlt
      rw [List.getElem?_append_left (by rw [hlen]; rw [Nat.mul_succ] at hroom; omega), ih hlt]
    · rw [List.getElem?_append_right (by omega), hlen, Nat.add_sub_cancel_left]

/-- A word of a stored line with its padding. -/
theorem paddedWord_length (w : Word × Byte) : (wordBytes w ++ List.replicate 7 0).length = 16 := by simp

@[simp] theorem lineBytes_length (f : Nat → Word × Byte) : (lineBytes f).length = 256 := by
  simp [lineBytes, List.length_flatMap]

/-- Each word of a line that is written whole reads back. -/
theorem readWord_writeLine (m : Memory) (key : Nat) (f : Nat → Word × Byte) {k : Nat} (hk : k < 16) :
    readWord (writeLine m key f) (key + 16 * k) = f k := by
  rw [← readWord_writeWord m (key + 16 * k) (f k)]
  refine readWord_congr fun i hi => ?_
  have hword : (lineBytes f).getD (16 * k + i) 0 = (wordBytes (f k)).getD i 0 := by
    rw [List.getD_eq_getElem?_getD, List.getD_eq_getElem?_getD, lineBytes,
      getElem?_flatMap_range (fun j => paddedWord_length (f j)) hk (by omega), List.getElem?_append_left (by simpa using hi)]
  rw [readByte_writeWord_in _ _ _ hi, Nat.add_assoc, writeLine, readByte_writeBytes_in m key _ (by rw [lineBytes_length]; omega), hword]

theorem readByte_writeLine_out (m : Memory) {key i : Nat} (f : Nat → Word × Byte) (h : i < key ∨ key + 256 ≤ i) :
    readByte (writeLine m key f) i = readByte m i :=
  readByte_writeBytes_out (by simpa using h)

/-! The slot of a turn. -/

/-- A reduce turn that has had its slot and read its line, on its way to K (R153). -/
def turned (b : Block) (bs : BankSt) (slot : Nat) (op : LineOp) : LineOp :=
  { op with stage := .chkK, readyAt := phaseEnd b op + 6, grantAt := b.now, unread := false, coll := fresherWords bs slot op }

/-- An operation that takes its place in the block stands behind no turn of its line, where none was on its way to K. -/
theorem turnAhead_replaced {b c : Block} {op next : LineOp} (h : b.noTurn op) (hch : next.ch = op.ch) (hbank : next.bank = op.bank)
    (hrow : next.row = op.row) (hc : c.ops = b.ops.map (fun o => if o.serial = op.serial then next else o)) :
    turnAhead c next = false := by
  refine List.any_eq_false.mpr fun o ho => ?_
  rw [hc] at ho
  obtain ⟨x, hx, rfl⟩ := List.mem_map.mp ho
  split
  · simp
  · intro hp
    simp only [Bool.and_eq_true, beq_iff_eq] at hp
    obtain ⟨⟨⟨⟨hst, hxch⟩, hxbank⟩, hxrow⟩, -⟩ := hp
    exact h x hx hst (hxch.trans hch) (hxbank.trans hbank) (hxrow.trans hrow)

/-- A turn that reads clean words notes nothing, and has read its line (R153, R229). -/
theorem actOnLine_turn {a : Arrays} {b : Block} {op : LineOp} {r : Nat} (hk : op.kind = .reduce r) (hst : op.stage = .chkK)
    (h : ∀ d ∈ opLine a b op, d.verdict = .clean) :
    actOnLine a b op = (a, { b with ops := b.ops.map (fun o => if o.serial = op.serial then { o with unread := false } else o) }) := by
  simp only [actOnLine, hk, hst, noteRead_of_clean (settledWords_clean h op.coll)]

/-- An operation put in the place of another, and then changed there, keeps its place. -/
theorem map_replaced {l : List LineOp} {op next : LineOp} (h : next.serial = op.serial) (f : LineOp → LineOp) :
    (l.map (fun o => if o.serial = op.serial then next else o)).map (fun o => if o.serial = next.serial then f o else o) =
      l.map (fun o => if o.serial = op.serial then f next else o) := by
  rw [List.map_map]
  refine List.map_congr_left fun o _ => ?_
  by_cases ho : o.serial = op.serial <;> simp [ho, h]

theorem performOp_turn {a : Arrays} {b : Block} {op : LineOp} {r : Nat} (hk : op.kind = .reduce r) (hst : op.stage = .bank)
    (h : b.noTurn op) (hclean : ∀ d ∈ opLine a b op, d.verdict = .clean) (bs : BankSt) (slot : Nat) :
    ∃ o, performOp a b bs slot op =
      (a, { b with obs := o, ops := b.ops.map (fun o => if o.serial = op.serial then turned b bs slot op else o) }) := by
  unfold performOp
  extract_lets coll turn ackAt next c d
  have hturn : turn = true := by simp [turn, hk, hst, isReadKind, bySequencer]
  obtain ⟨o, ho⟩ := count_eq c 0x20 { ch := op.ch, port := op.src, ctx := op.ctx, cluster := opCluster op } 1
  have hd : d = { c with obs := o } := by unfold d; rw [hk, ← ho]
  have hnext : { next with unread := false } = turned b bs slot op := by simp only [next, hturn]; rfl
  have hchk : next.stage = .chkK := by simp [next, hturn]
  have hahead : turnAhead d next = false := turnAhead_replaced h rfl rfl rfl (by rw [hd])
  refine ⟨o, ?_⟩
  rw [hahead, if_neg Bool.false_ne_true, actOnLine_turn (op := next) hk hchk (by rw [hd]; exact hclean), hd, ← hnext]
  exact congrArg (fun l => (a, ({ b with obs := o, ops := l } : Block))) (map_replaced (next := next) rfl _)

/-- Settles O20: the slot's turn reads its clean line at once and stands at K; the counters leave alone what it reads. -/
theorem slotStartsTurn : Obligations.SlotStartsTurn := by
  intro s ch bank slot rank r op h hk hst hclean
  obtain ⟨rfl, rfl, c, hc, hturn, hexec⟩ := exec_bankSlotGrant h
  have hclean' : ∀ d ∈ opLine s.arr c op, d.verdict = .clean := by rwa [hc.opLine s.arr rfl]
  have hwords : changedWords op = 0xFFFF#16 := by simp [changedWords, hk, hst]
  obtain ⟨o, hperf⟩ := performOp_turn hk hst hturn hclean' (bankOf (chan s.blk op.ch) op.bank) slot
  rw [hperf, hwords] at hexec
  obtain ⟨cs, o', rfl⟩ : ∃ cs o, c = { s.blk with chans := cs, obs := o } := ⟨_, _, hc.eq⟩
  exact ⟨_, hexec, rfl, by rw [bankOf_markBank], by rw [bankOf_markBank], rfl⟩

/-! Check point K. -/

/-- The operation that the command finds at its check point, once the cycle's trips have been noted, is the one that it checks, where none
of its bank stands behind a turn. -/
theorem checkPoint_found {a : Arrays} {b : Block} {ch n : Nat} {op : LineOp} (hdue : (dueChecks (tripScan a b) ch)[n]? = some op)
    (hheld : (tripScan a b).noneHeld ch op.bank) : op ∈ (tripScan a b).ops ∧ op.unread = false ∧
      checkPoint a b ch n =
        settleBank (checkOp a (tripScan a b) op).1 (checkOp a (tripScan a b) op).2 ch op.bank := by
  have hmem : op ∈ dueChecks (tripScan a b) ch := List.mem_of_getElem? hdue
  simp only [dueChecks, List.mem_filter, Bool.and_eq_true, beq_iff_eq] at hmem
  obtain ⟨hop, ⟨hch, -⟩, -⟩ := hmem
  have hun : op.unread = false := (hheld op hop hch rfl).2
  have hsame : ({ op with unread := false } : LineOp) = op := by rw [← hun]
  refine ⟨hop, hun, ?_⟩
  simp only [checkPoint, hdue, settleBank_of_noneHeld hheld, hsame]

/-- A write of a whole line that reads as it is stored, and past which no tag has been set. -/
theorem writeWhole_stored {b : Block} {op : LineOp} (hz : b.zeroLines.contains (lineKey op.ch op.bank op.row) = false)
    (hold : op.old = false) (a : Arrays) (f : Nat → Word × Byte) :
    writeWhole a b op f = ({ a with mem := writeLine a.mem (servedKey b op.ch op.bank op.row) f }, b) := by
  simp only [writeWhole, hold, hz, Bool.false_eq_true, if_false, putLine]

/-- A turn that passes K stores the line of its results and is acknowledged (R149 to R153). -/
theorem checkReduce_passed {b : Block} {op : LineOp} (hr : rejected b op (some (opCluster op)) = false) (hold : op.old = false)
    (hz : b.zeroLines.contains (lineKey op.ch op.bank op.row) = false) (a : Arrays) :
    ∃ o, checkReduce a b op =
      ({ a with
          mem := writeLine a.mem (servedKey b op.ch op.bank op.row)
            (fun k => storeWord (bit (checkValue a b op).2 k) (lineWord (checkValue a b op).1 k)) },
        ackOp { b with ops := b.ops.filter (fun o => o.serial != op.serial), obs := o } op false) := by
  obtain ⟨o, ho⟩ := traceData_eq (dropOp b op) op (wordsOf (wordAny op.be)) (checkValue a b op).1
  have hr' : rejected (dropOp b op) op (some (opCluster op)) = false := hr
  refine ⟨o, ?_⟩
  unfold checkReduce
  simp only [hr', ho, Bool.false_eq_true, if_false]
  rw [writeWhole_stored (b := { dropOp b op with obs := o }) hz hold]
  rfl

/-- Settles O22: the turn is the one operation that its command checks; it stores its line whole (`readWord_writeLine`). -/
theorem turnStoresAtK : Obligations.TurnStoresAtK := by
  intro s ch n r op h hst hk hold hr hz key v
  obtain ⟨hok, hdue, hfail, hheld⟩ := h
  have hscan : tripScan s.arr s.blk = s.blk := tripScan_of_none hfail
  obtain ⟨-, -, hcheck⟩ := checkPoint_found (a := s.arr) (b := s.blk) (by rw [hscan]; exact hdue) (by rw [hscan]; exact hheld)
  obtain ⟨o, hred⟩ := checkReduce_passed hr hold hz s.arr
  have hop : checkOp s.arr s.blk op = checkReduce s.arr s.blk op := by simp only [checkOp, hst, hk]
  rw [hscan, hop, hred, settleBank_of_noneHeld (hheld.of_ops fun o ho => .inl (List.mem_of_mem_filter ho))] at hcheck
  exact ⟨_, _, guardedArr_eq_next hok hcheck, rfl, fun k hk => readWord_writeLine _ _ _ hk,
    fun i hi => readByte_writeLine_out _ _ hi, rfl, rfl, rfl⟩

end Sys2Proof.Machine
end

section
/-! PROOFS. The canary's trip (R161, R165): it sets the flag and the site of its context, and the operation that the command then checks
changes no register and no context. -/

namespace Sys2Proof.Machine

/-! What a check leaves alone. -/

/-- `c` is what an operation at its check point leaves of `b`: the registers and the contexts are the same, and no operation has come to
stand behind a turn of its line. -/
structure CheckKeeps (b c : Block) : Prop where
  regs : c.regs = b.regs
  ctxs : c.ctxs = b.ctxs
  held : ∀ ch bank, b.noneHeld ch bank → c.noneHeld ch bank

theorem CheckKeeps.refl (b : Block) : CheckKeeps b b := ⟨rfl, rfl, fun _ _ h => h⟩

theorem CheckKeeps.trans {b c d : Block} (hbc : CheckKeeps b c) (hcd : CheckKeeps c d) : CheckKeeps b d :=
  ⟨hcd.regs.trans hbc.regs, hcd.ctxs.trans hbc.ctxs, fun ch bank h => hcd.held ch bank (hbc.held ch bank h)⟩

theorem CheckKeeps.of_same_ops {b c : Block} (hregs : c.regs = b.regs) (hctxs : c.ctxs = b.ctxs) (hops : c.ops = b.ops) :
    CheckKeeps b c :=
  ⟨hregs, hctxs, fun _ _ h => h.of_ops fun _ ho => .inl (hops ▸ ho)⟩

theorem CheckKeeps.ite {p : Prop} [Decidable p] {b c d : Block} (hc : CheckKeeps b c) (hd : CheckKeeps b d) :
    CheckKeeps b (if p then c else d) := by
  split
  · exact hc
  · exact hd

/-- A change that leaves each operation at its stage in its bank lets none come to stand behind a turn. -/
theorem Block.noneHeld.of_map {b c : Block} {ch bank : Nat} (h : b.noneHeld ch bank) {f : LineOp → LineOp}
    (hf : ∀ o, (f o).ch = o.ch ∧ (f o).bank = o.bank ∧ (f o).stage = o.stage ∧ (f o).unread = o.unread) (hops : c.ops = b.ops.map f) :
    c.noneHeld ch bank := by
  intro o ho hch hbank
  rw [hops] at ho
  obtain ⟨x, hx, rfl⟩ := List.mem_map.mp ho
  obtain ⟨hfch, hfbank, hfst, hfun⟩ := hf x
  rw [hfst, hfun]
  exact h x hx (hfch ▸ hch) (hfbank ▸ hbank)

section
variable (a : Arrays) (b : Block) (op : LineOp)

theorem ackLine_keeps (due lat : Nat) (r : Bool) : CheckKeeps b (ackLine b op due lat r) := .of_same_ops rfl rfl rfl

theorem ackOp_keeps (r : Bool) : CheckKeeps b (ackOp b op r) := ackLine_keeps ..

theorem dropOp_keeps : CheckKeeps b (dropOp b op) :=
  ⟨rfl, rfl, fun _ _ h => h.of_ops fun _ ho => .inl (List.mem_of_mem_filter ho)⟩

/-- An operation that stands behind no turn takes the place of another. -/
theorem replaceOp_keeps {op : LineOp} (hst : op.stage ≠ .line) (hun : op.unread = false) : CheckKeeps b (replaceOp b op) := by
  refine ⟨rfl, rfl, fun _ _ h => h.of_ops fun o ho => ?_⟩
  obtain ⟨x, hx, rfl⟩ := List.mem_map.mp ho
  split
  · exact .inr ⟨hst, hun⟩
  · exact .inl hx

theorem count_keeps (e : Nat) (t : Tap) (n : Nat) : CheckKeeps b (count b e t n) := .of_same_ops (by simp) (by simp) (by simp)

theorem rejectTap_keeps : CheckKeeps b (rejectTap b op) := count_keeps ..

theorem traceData_keeps (words : WordMask) (d : LineData) : CheckKeeps b (traceData b op words d) := by
  obtain ⟨o, ho⟩ := traceData_eq b op words d
  rw [ho]
  exact .of_same_ops rfl rfl rfl

theorem drainLine_keeps (ch line : Nat) : CheckKeeps b (drainLine a b ch line) := by
  have hdrain : DrainsTo b (drainLine a b ch line) := by
    unfold drainLine
    split
    · exact startDrain_drainsTo ..
    · exact .refl b
  obtain ⟨l, hl, hnew⟩ := drainLine_ops a b ch line
  refine ⟨(congrArg Block.regs hdrain.fixed :), hdrain.ctxs, fun _ _ h => h.of_ops fun o ho => ?_⟩
  rw [hl, List.mem_append] at ho
  exact ho.imp_right (hnew o)

theorem setChan_keeps (ch : Nat) (f : Channel → Channel) : CheckKeeps b (setChan b ch f) := .of_same_ops rfl rfl rfl

theorem dropEntry_keeps : CheckKeeps b (dropEntry b op) := .ite (setChan_keeps ..) (.refl b)

theorem zeroHit_keeps : CheckKeeps b (zeroHit b op) := (count_keeps ..).trans (setChan_keeps ..)

theorem writeWhole_keeps (f : Nat → Word × Byte) : CheckKeeps b (writeWhole a b op f).2 := by
  unfold writeWhole
  dsimp only
  split
  · exact .refl b
  · split
    · exact .of_same_ops rfl rfl rfl
    · exact .refl b

/-- The operations past F that come to lie behind a tag stay at their stages (R183). -/
theorem tagLine_keeps : CheckKeeps b (tagLine a b op).2 := by
  refine ⟨rfl, rfl, fun ch bank h => h.of_map (fun o => ?_) rfl⟩
  split
  · exact ⟨rfl, rfl, rfl, rfl⟩
  · dsimp only
    split <;> exact ⟨rfl, rfl, rfl, rfl⟩

/-! The check of one operation. -/

variable {op}

theorem rejectDrain_keeps (hun : op.unread = false) (turn : Bool) : CheckKeeps b (rejectDrain b op turn).1 := by
  unfold rejectDrain
  extract_lets c be op' whole
  have hc : CheckKeeps b c := .ite (.refl b) (.trans (setChan_keeps ..) (rejectTap_keeps ..))
  split
  · exact (hc.trans (dropOp_keeps ..)).trans (dropEntry_keeps ..)
  · split
    · exact hc
    · exact hc.trans (replaceOp_keeps c (by dsimp only; split <;> decide) hun)

theorem checkE_keeps (hun : op.unread = false) : CheckKeeps b (checkE a b op) := by
  unfold checkE
  split
  · exact .ite (rejectDrain_keeps b hun false) (((dropOp_keeps ..).trans (rejectTap_keeps ..)).trans (ackOp_keeps ..))
  · extract_lets c d
    have hd : CheckKeeps b d := (traceData_keeps ..).trans (replaceOp_keeps c nofun hun)
    exact .ite hd (hd.trans (drainLine_keeps ..))

variable (op)

theorem checkReduce_keeps : CheckKeeps b (checkReduce a b op).2 := by
  unfold checkReduce
  extract_lets v c d
  split
  · exact ((dropOp_keeps ..).trans (rejectTap_keeps ..)).trans (ackOp_keeps ..)
  · exact (((dropOp_keeps ..).trans (traceData_keeps ..)).trans (writeWhole_keeps a d op _)).trans (ackOp_keeps ..)

theorem storeDrain_keeps (old : List Decoded) : CheckKeeps b (storeDrain a b op old).2 :=
  (((traceData_keeps ..).trans (dropOp_keeps ..)).trans (writeWhole_keeps ..)).trans (dropEntry_keeps ..)

theorem checkF_keeps : CheckKeeps b (checkF a b op).2 := by
  unfold checkF
  extract_lets far due c d
  split
  · exact ((dropOp_keeps ..).trans (rejectTap_keeps ..)).trans (ackLine_keeps ..)
  · have hd : CheckKeeps b d := (((dropOp_keeps ..).trans (traceData_keeps ..)).trans (ackLine_keeps ..)).trans (zeroHit_keeps ..)
    split
    · exact hd
    · exact hd.trans (tagLine_keeps ..)

variable {op}

theorem checkDrain_keeps (hun : op.unread = false) : CheckKeeps b (checkDrain a b op).2 := by
  unfold checkDrain
  extract_lets old r
  have hr : CheckKeeps b r.1 := rejectDrain_keeps b hun true
  split
  · split
    · exact hr.trans (storeDrain_keeps ..)
    · exact hr
  · exact storeDrain_keeps ..

/-- An operation that stands behind no turn changes no register and no context at its check point. -/
theorem checkOp_keeps (hun : op.unread = false) : CheckKeeps b (checkOp a b op).2 := by
  unfold checkOp
  split
  · exact checkF_keeps ..
  · exact checkE_keeps a b hun
  · exact checkReduce_keeps ..
  · exact checkDrain_keeps a b hun

end

/-! The trip. -/

/-- CHECK_POINT, after the trips of its cycle, changes no register and no context, where no operation of the channel stands behind a
turn. -/
theorem checkPoint_keeps (a : Arrays) (b : Block) (ch n : Nat) (h : ∀ k, (tripScan a b).noneHeld ch k) :
    CheckKeeps (tripScan a b) (checkPoint a b ch n).2 := by
  cases hdue : (dueChecks (tripScan a b) ch)[n]? with
  | none =>
    have hnone : checkPoint a b ch n = (a, tripScan a b) := by simp only [checkPoint, hdue]
    rw [hnone]
    exact .refl _
  | some op =>
    obtain ⟨-, hun, hcheck⟩ := checkPoint_found hdue (h op.bank)
    have hop := checkOp_keeps a (tripScan a b) hun
    rw [hcheck, settleBank_of_noneHeld (hop.held ch op.bank (h op.bank))]
    exact hop

/-- A failed check that is the only one of its cycle, while its context's flag is 0, trips (R161). -/
theorem tripScan_single {a : Arrays} {b : Block} {op : LineOp} {point e cause : Nat} (h : failsNow a b = [(op, point, e, cause)]) :
    tripScan a b = tripCanary b op point e cause := by
  rw [tripScan, h]
  rfl

/-- The block in which the canary has tripped for an operation: its context's flag is set, and its site holds the place (R161, R165). -/
def trippedFor (b : Block) (op : LineOp) (point e cause : Nat) : Block :=
  setCtx { b with regs := { b.regs with canaryFlag := b.regs.canaryFlag ||| (1#64 <<< op.ctx) } } op.ctx
    (fun c => { c with site := siteWord op point e cause, trip := [(b.now, op.ch, opCluster op)] })

theorem tripCanary_first {b : Block} {op : LineOp} (h : bit b.regs.canaryFlag op.ctx = false) (point e cause : Nat) :
    tripCanary b op point e cause =
      emit (trippedFor b op point e cause) 0x20 (some op.ch) (some (op.ctx, op.shift)) (siteWord op point e cause) := by
  simp only [tripCanary, h, Bool.false_eq_true, if_false]
  rfl

/-- Settles O24: the one failed check trips its context, and the check of the operation that the command names keeps every register and
context (`checkPoint_keeps`). -/
theorem canaryTrips : Obligations.CanaryTrips := by
  intro s ch n point e cause op hok hfail hflag hheld
  have hscan : tripScan s.arr s.blk = emit (trippedFor s.blk op point e cause) 0x20 (some op.ch) (some (op.ctx, op.shift))
      (siteWord op point e cause) := (tripScan_single hfail).trans (tripCanary_first hflag ..)
  have hops : (tripScan s.arr s.blk).ops = s.blk.ops := by
    rw [hscan]
    exact emit_ops ..
  have hkeeps := checkPoint_keeps s.arr s.blk ch n fun k => (hheld k).of_ops fun o ho => .inl (hops ▸ ho)
  have hctx : ∀ c, ctxOf (checkPoint s.arr s.blk ch n).2 c = ctxOf (trippedFor s.blk op point e cause) c := by
    intro c
    rw [ctxOf, hkeeps.ctxs, hscan, emit_ctxs]
    rfl
  refine ⟨_, guardedArr_eq_next hok rfl, ?_, ?_, fun c hc => ?_⟩
  · exact hkeeps.regs.trans (by rw [hscan]; exact emit_regs ..)
  · exact (congrArg Ctx.site (hctx op.ctx)).trans (by rw [trippedFor, ctxOf_setCtx_self])
  · exact (hctx c).trans (ctxOf_setCtx_ne _ _ (Ne.symm hc))

end Sys2Proof.Machine
end

section
/-! PROOFS. A zero-line write at check point F (R181, R183): its line's tag is set, and the operations of the line past F lie behind it. -/

namespace Sys2Proof.Machine

/-- The operation as it stands once a zero-line write has set the tag of `op`'s line: on that line it lies behind the tag (R183). -/
def behindTag (op o : LineOp) : LineOp :=
  if o.ch = op.ch ∧ o.bank = op.bank ∧ o.row = op.row then { o with old := true } else o

theorem dropClaim_of_unclaimed {b : Block} {ch bank row : Nat} (hz : b.zeroLines.contains (lineKey ch bank row) = false) :
    dropClaim b ch bank row = b := by
  have hkept : b.zeroLines.filter (fun k => k != lineKey ch bank row) = b.zeroLines :=
    List.filter_eq_self.mpr fun k hk => bne_iff_ne.mpr fun h => by simp [← h, hk] at hz
  rw [dropClaim, hkept]

/-- A line that no write has taken as zeros gets its tag with nothing stored. -/
theorem tagLine_of_unclaimed {b : Block} {op : LineOp} (hz : b.zeroLines.contains (lineKey op.ch op.bank op.row) = false) (a : Arrays) :
    tagLine a b op = (setTag a op.ch op.row op.bank true, mapPastF b (behindTag op)) := by
  simp only [tagLine, hz, Bool.false_eq_true, if_false, dropClaim_of_unclaimed hz]
  rfl

/-- An operation on its way to F stays as it is: only those past F come to lie behind the tag. -/
theorem mapPastF_behindTag_ops (b : Block) (op : LineOp) : (mapPastF b (behindTag op)).ops = b.ops.map (fun o =>
    if o.stage ≠ .fwd ∧ o.ch = op.ch ∧ o.bank = op.bank ∧ o.row = op.row then { o with old := true } else o) :=
  List.map_congr_left fun o _ => by
    by_cases hst : o.stage = .fwd
    · simp [hst]
    · simp [hst, behindTag]

@[simp] theorem zeroHit_ops (b : Block) (op : LineOp) : (zeroHit b op).ops = b.ops := by simp [zeroHit]

@[simp] theorem zeroHit_zeroLines (b : Block) (op : LineOp) : (zeroHit b op).zeroLines = b.zeroLines := by simp [zeroHit]

/-- A zero-line write that passes F leaves the operations and sets its line's tag (R181). -/
theorem checkF_passed {b : Block} {op : LineOp} (hr : rejected b op (some (opCluster op)) = false) (htag : op.noTag = false)
    (hz : b.zeroLines.contains (lineKey op.ch op.bank op.row) = false) (a : Arrays) :
    ∃ c, c.ops = b.ops.filter (fun o => o.serial != op.serial) ∧ c.zeroLines = b.zeroLines
      ∧ checkF a b op = (setTag a op.ch op.row op.bank true, mapPastF c (behindTag op)) := by
  unfold checkF
  extract_lets far due dropped c
  obtain ⟨o, ho⟩ := traceData_eq dropped op 0xFFFF#16 0
  have hops : c.ops = b.ops.filter (fun o => o.serial != op.serial) := by
    rw [zeroHit_ops, ho]
    rfl
  have hzero : c.zeroLines = b.zeroLines := by
    rw [zeroHit_zeroLines, ho]
    rfl
  have hr' : rejected dropped op (some (opCluster op)) = false := hr
  refine ⟨c, hops, hzero, ?_⟩
  rw [hr', htag, if_neg Bool.false_ne_true, if_neg Bool.false_ne_true, tagLine_of_unclaimed (by rw [hzero, hz])]

/-- Settles O23: the zero-line write is the one operation that its command checks; it writes the row's tag word and no other
(`readWord_writeWord`), and what it leaves stands behind no turn (`checkOp_keeps`). -/
theorem zeroWriteSetsTag : Obligations.ZeroWriteSetsTag := by
  intro s ch n op h hst hr htag hz key d
  obtain ⟨hok, hdue, hfail, hheld⟩ := h
  have hscan : tripScan s.arr s.blk = s.blk := tripScan_of_none hfail
  obtain ⟨-, hun, hcheck⟩ := checkPoint_found (a := s.arr) (b := s.blk) (by rw [hscan]; exact hdue) (by rw [hscan]; exact hheld)
  obtain ⟨c, hops, hzero, hF⟩ := checkF_passed hr htag hz s.arr
  have hop : checkOp s.arr s.blk op = checkF s.arr s.blk op := by simp only [checkOp, hst]
  have hheld' := (checkOp_keeps s.arr s.blk hun).held ch op.bank hheld
  rw [hscan, settleBank_of_noneHeld hheld', hop, hF] at hcheck
  refine ⟨_, _, guardedArr_eq_next hok hcheck, rfl, readWord_writeWord _ key (d, eccEncode d),
    fun i hi => readByte_writeWord_out _ _ _ hi, ?_, hzero⟩
  rw [mapPastF_behindTag_ops, hops]

end Sys2Proof.Machine
end

section
/-! PROOFS. A management command that is taken, the step boundary (R216), and the windows of arbitration (R65, R190, R200, R204, R217, R218,
R244). -/

namespace Sys2Proof.Machine

/-! Management commands. -/

/-- A well formed command that can be taken passes CMDQ_HEAD, runs, and acts (R481, R484, R486). -/
theorem takeOpc_of_takes {b : Block} {opc : Nat} {t : Taken} (h : b.takes opc t) (f : Block → Nat → Taken → Block) :
    takeOpc b opc f = f (b.taken t) t.idx.toNat t := by
  obtain ⟨hcan, rfl, hopc, hok⟩ := h
  simp only [takeOpc, takeCmd]
  rw [if_pos (by simpa [hcan] using hopc), if_pos hok]
  rfl

/-- Settles O52: the command at the head is taken, and `applyShadow` and `stepBoundary` say what it does. -/
theorem shadowsTakeEffect : Obligations.ShadowsTakeEffect := by
  unfold Obligations.ShadowsTakeEffect
  intro s t
  exact ⟨fun h => congrArg (done s) (takeOpc_of_takes h _), fun h => congrArg (done s) (takeOpc_of_takes h _)⟩

/-! The windows of arbitration. -/

/-- Every channel of `c` is the one of `b` changed by `f`, which leaves a channel at its reset value as it is. -/
theorem chan_of_mapped {b c : Block} {f : Channel → Channel} (hf : f Channel.init = Channel.init)
    (hc : c.chans = b.chans.map (fun e => (e.1, f e.2))) (ch : Nat) : chan c ch = f (chan b ch) := by
  rw [chan, hc]
  exact tget_map Channel.init (fun _ => f) b.chans ch hf

theorem rotationStart_due {b : Block} (hfresh : b.arb.fresh = false) (hdue : (b.arb.rotation + 1) * 256 ≤ b.arb.bankCycles) :
    let due := switchDue b (bankStart b ((b.arb.rotation + 1) * 256))
    rotationStart b = { b with arb := { b.arb with
      rotation := b.arb.rotation + 1
      active := if due then b.arb.pend.getD b.arb.active else b.arb.active
      pend := if due then none else b.arb.pend } } :=
  if_pos ⟨hfresh, hdue⟩

theorem rotationStart_early {b : Block} (h : b.arb.bankCycles < (b.arb.rotation + 1) * 256) : rotationStart b = b :=
  if_neg fun ⟨_, hdue⟩ => Nat.not_lt.2 hdue h

/-- The budgets and the starvation reports of a channel return to none at a new budget window (R200, R204). -/
def clearBudgets (c : Channel) : Channel := { c with budget := [], starveRep := [] }

/-- The conflict counts of a channel's window and its reports of storms return to none (R65). -/
def clearConflicts (c : Channel) : Channel := { c with confWin := [], confBank := [], confRep := [] }

theorem budgetStart_due {b : Block} (h : b.arb.budgetRot + budgetWindow b ≤ b.arb.rotation) :
    budgetStart b = { b with
      arb := { b.arb with budgetRot := b.arb.rotation, cwStarveRep := false }
      chans := b.chans.map (fun e => (e.1, clearBudgets e.2)) } :=
  if_pos h

theorem budgetStart_early {b : Block} (h : b.arb.rotation < b.arb.budgetRot + budgetWindow b) : budgetStart b = b :=
  if_neg (Nat.not_le.2 h)

theorem conflictEnd_due {b : Block} (hfresh : b.arb.fresh = false) (hdue : b.arb.confFrom + b.arb.confLen ≤ b.arb.bankCycles) :
    conflictEnd b = { b with
      arb := { b.arb with confFrom := b.arb.confFrom + b.arb.confLen, confLen := max 1 (fld b.regs.conflictCtl 0 20) }
      chans := b.chans.map (fun e => (e.1, clearConflicts e.2)) } :=
  if_pos ⟨hfresh, hdue⟩

theorem conflictEnd_early {b : Block} (h : b.arb.bankCycles < b.arb.confFrom + b.arb.confLen) : conflictEnd b = b :=
  if_neg fun ⟨_, hdue⟩ => Nat.not_lt.2 hdue h

/-- The bank's correction count of the window returns to 0 in every bank of the channel (R244). -/
def clearCeWin (c : Channel) : Channel := { c with banks := c.banks.map (fun k => (k.1, { k.2 with ceWin := 0 })) }

theorem bankOf_clearCeWin (c : Channel) (k : Nat) : bankOf (clearCeWin c) k = { bankOf c k with ceWin := 0 } :=
  tget_map BankSt.init (fun _ e => { e with ceWin := 0 }) c.banks k rfl

theorem ceWindow_due {b : Block} (hready : isReady b = true)
    (hdue : b.arb.ceFrom + b.arb.ceLen * 100000000 ≤ b.now / Config.refCycles) :
    ceWindow b = { b with
      arb := { b.arb with ceFrom := b.arb.ceFrom + b.arb.ceLen * 100000000, ceLen := max 1 (fld b.regs.ceCtl 16 16) }
      chans := b.chans.map (fun e => (e.1, clearCeWin e.2)) } :=
  if_pos (by simp [hready, hdue])

theorem ceWindow_early {b : Block} (h : b.now / Config.refCycles < b.arb.ceFrom + b.arb.ceLen * 100000000) : ceWindow b = b :=
  if_neg (by simp [h])

/-- Settles O28: each window is due or not by the condition of its row, and every channel is cleared as `chan_of_mapped` says. -/
theorem windowsTurnOver : Obligations.WindowsTurnOver := by
  unfold Obligations.WindowsTurnOver
  refine fun s => ⟨⟨fun hfresh hdue => ?_, fun h => ?_⟩, ⟨fun hdue => ?_, fun h => ?_⟩, ⟨fun hfresh hdue => ?_, fun h => ?_⟩,
    ⟨fun hready hdue => ?_, fun h => ?_⟩⟩
  · exact congrArg (done s) (rotationStart_due hfresh hdue)
  · exact congrArg (done s) (rotationStart_early h)
  · exact ⟨_, congrArg (done s) (budgetStart_due hdue), chan_of_mapped (f := clearBudgets) rfl rfl, rfl, rfl⟩
  · exact congrArg (done s) (budgetStart_early h)
  · exact ⟨_, congrArg (done s) (conflictEnd_due hfresh hdue), chan_of_mapped (f := clearConflicts) rfl rfl, rfl, rfl⟩
  · exact congrArg (done s) (conflictEnd_early h)
  · refine ⟨_, congrArg (done s) (ceWindow_due hready hdue), fun ch k => ?_, rfl, fun ch => ?_, rfl⟩
    · rw [chan_of_mapped (b := s.blk) (f := clearCeWin) rfl rfl, bankOf_clearCeWin]
    · rw [chan_of_mapped (b := s.blk) (f := clearCeWin) rfl rfl]
      rfl
  · exact congrArg (done s) (ceWindow_early h)

end Sys2Proof.Machine
end

section
/-! PROOFS. The words of the rosters restored, and the slots of the peer ports (R211, R221, R417). -/

namespace Sys2Proof.Machine

/-! The word of a roster entry. -/

/-- The keys of the eight entries in the word of an entry (R221). -/
def entryWord (r k slot : Nat) : List Nat := (List.range 8).map (fun i => slotKey r k (slot / 8 * 8 + i))

/-- The entries of a word in the sequencer's copy (R417). -/
def copyWord (b : Block) (ch : Nat) (word : List Nat) : List (Nat × Nat) := word.map (fun w => (w, tget 0x80 b.arb.copy (ch * 8192 + w)))

/-- The channel with the word rewritten (R417). -/
def rewriteWord (b : Block) (ch : Nat) (word : List Nat) : Block :=
  setChan b ch (fun c => { c with roster := copyWord b ch word ++ c.roster.filter (fun e => !word.contains e.1) })

section
variable (b : Block) (ch : Nat) (word : List Nat)

theorem chan_rewriteWord_self : chan (rewriteWord b ch word) ch = { chan b ch with
    roster := copyWord b ch word ++ (chan b ch).roster.filter (fun e => !word.contains e.1) } := chan_setChan_self ..

theorem chan_rewriteWord_ne {c : Nat} (h : c ≠ ch) : chan (rewriteWord b ch word) c = chan b c := chan_setChan_ne _ _ h.symm

end

/-- The roster has lost its admission by rule 1, and the safety controller has its flag (R417). -/
def unadmit (b : Block) (r : Nat) : Block :=
  { b with
    arb := { b.arb with admitted := b.arb.admitted &&& ~~~(1#4 <<< r), rule := tset b.arb.rule r 1 }
    safety := { b.safety with flags := b.safety.flags ||| 0x20#6 } }

/-- A lost roster that is active leaves to the lowest other one (R417). -/
def leaveRoster (b : Block) (r : Nat) : Block :=
  if b.arb.active = r then match otherRoster b r with
    | some q => selectRoster b q true
    | none => b
  else b

/-- The selection of another roster touches the pending switch alone (R217). -/
theorem leaveRoster_eq (b : Block) (r : Nat) :
    ∃ p st f, leaveRoster b r = { b with arb := { b.arb with pend := p, pendStep := st, pendFrom := f } } := by
  unfold leaveRoster
  split
  case isTrue =>
    cases otherRoster b r with
    | none => exact ⟨_, _, _, rfl⟩
    | some q => exact ⟨_, _, _, rfl⟩
  case isFalse => exact ⟨_, _, _, rfl⟩

theorem leaveRoster_inactive {b : Block} {r : Nat} (h : b.arb.active ≠ r) : leaveRoster b r = b := if_neg h

/-- A roster that is lost: its admission goes with a record and the safety flag, and another one is selected where it was active (R417). -/
def loseRoster (b : Block) (ch r : Nat) (p3 : Word) : Block := leaveRoster (unadmit (emit b 0x18 (some ch) none p3) r) r

section
variable (b : Block) (ch r : Nat) (p3 : Word)

theorem leaveRoster_chans : (leaveRoster b r).chans = b.chans := by
  obtain ⟨_, _, _, h⟩ := leaveRoster_eq b r; rw [h]

theorem leaveRoster_admitted : (leaveRoster b r).arb.admitted = b.arb.admitted := by
  obtain ⟨_, _, _, h⟩ := leaveRoster_eq b r; rw [h]

theorem leaveRoster_safety : (leaveRoster b r).safety = b.safety := by
  obtain ⟨_, _, _, h⟩ := leaveRoster_eq b r; rw [h]

theorem loseRoster_chans : (loseRoster b ch r p3).chans = b.chans := by
  simp only [loseRoster, leaveRoster_chans, unadmit, emit_chans]

theorem loseRoster_admitted : (loseRoster b ch r p3).arb.admitted = b.arb.admitted &&& ~~~(1#4 <<< r) := by
  simp only [loseRoster, leaveRoster_admitted, unadmit, emit_arb]

theorem loseRoster_flags : (loseRoster b ch r p3).safety.flags = b.safety.flags ||| 0x20#6 := by
  simp only [loseRoster, leaveRoster_safety, unadmit, emit_safety]

end

theorem loseRoster_pend {b : Block} {r : Nat} (h : b.arb.active ≠ r) (ch : Nat) (p3 : Word) : (loseRoster b ch r p3).arb.pend = b.arb.pend := by
  rw [loseRoster, leaveRoster_inactive] <;> simp only [unadmit, emit_arb, ne_eq, h, not_false_iff]

section
variable {b : Block} {ch r k slot : Nat} {ok : Bool}

theorem rosterRestore_unmarked (h : (chan b ch).rosterBad.contains (slotKey r k slot) = false) : rosterRestore b ch r k slot ok = b :=
  if_pos h

theorem rosterRestore_good (h : (chan b ch).rosterBad.contains (slotKey r k slot) = true)
    (hgood : (ok && (copyWord b ch (entryWord r k slot)).all (fun v => parOk v.2)) = true) :
    rosterRestore b ch r k slot ok = setChan (rewriteWord b ch (entryWord r k slot)) ch
      (fun c => { c with rosterBad := c.rosterBad.filter (fun w => !(entryWord r k slot).contains w) }) :=
  (if_neg (by rw [h]; simp)).trans (if_pos hgood)

theorem rosterRestore_wrong (h : (chan b ch).rosterBad.contains (slotKey r k slot) = true)
    (hwrong : (ok && (copyWord b ch (entryWord r k slot)).all (fun v => parOk v.2)) = false) :
    rosterRestore b ch r k slot ok = loseRoster (rewriteWord b ch (entryWord r k slot)) ch r
      (put 0 2 r ||| put 4 3 k ||| put 8 8 slot ||| put 16 8 (slotEntry (chan b ch) r k slot)) :=
  (if_neg (by rw [h]; simp)).trans (if_neg (Bool.eq_false_iff.1 hwrong))

end

/-! Peer reservations. -/

theorem foldl_eq_self {α σ : Type} {f : σ → α → σ} {s : σ} {l : List α} (h : ∀ x ∈ l, f s x = s) : l.foldl f s = s := by
  induction l with
  | nil => rfl
  | cons x l ih => rw [List.foldl_cons, h x List.mem_cons_self, ih fun y hy => h y (List.mem_cons_of_mem x hy)]

/-- A fold over different elements of which one alone changes the state, before it and after it. -/
theorem foldl_eq_step {α σ : Type} {f : σ → α → σ} {s : σ} {l : List α} (hl : l.Nodup) {r : α} (hr : r ∈ l)
    (hbefore : ∀ x ∈ l, x ≠ r → f s x = s) (hafter : ∀ x ∈ l, x ≠ r → f (f s r) x = f s r) : l.foldl f s = f s r := by
  obtain ⟨before, after, rfl⟩ := List.append_of_mem hr
  obtain ⟨hne, -⟩ := List.nodup_cons.1 (List.nodup_middle.1 hl)
  have apart {x : α} (hx : x ∈ before ++ after) : x ∈ before ++ r :: after ∧ x ≠ r :=
    ⟨by simp only [List.mem_append, List.mem_cons] at hx ⊢; tauto, fun h => hne (h ▸ hx)⟩
  rw [List.foldl_append, List.foldl_cons,
    foldl_eq_self fun x hx => hbefore x (apart (List.mem_append_left _ hx)).1 (apart (List.mem_append_left _ hx)).2]
  exact foldl_eq_self fun x hx => hafter x (apart (List.mem_append_right _ hx)).1 (apart (List.mem_append_right _ hx)).2

/-- The recheck of one roster on a peer port that offers `most` slots (R211). -/
def recheckRoster (most n : Nat) (b : Block) (r : Nat) : Block :=
  let k := rosterPeer b r n
  let was := b.arb.degraded.contains (r, n)
  let bad := decide (most < k)
  let p3 := put 0 2 r ||| put 4 2 n
  if bit b.arb.admitted r && decide (0 < k) then
    if bad && !was then emit { b with arb := { b.arb with degraded := b.arb.degraded ++ [(r, n)] } } 0x15 none none p3
    else if was && !bad then emit { b with arb := { b.arb with degraded := b.arb.degraded.filter (fun e => e != (r, n)) } } 0x16 none none p3
    else b
  else b

theorem peerRecheck_eq (b : Block) (n : Nat) :
    peerRecheck b n = (List.range 4).foldl (recheckRoster (peerSlots (linkWidth (linkOf b n))) n) b := rfl

/-- A roster that is not admitted, or reserves no slot on the port, is left alone (R211). -/
theorem recheckRoster_none {most n q : Nat} {b : Block} (h : rosterPeer b q n = 0 ∨ bit b.arb.admitted q = false) :
    recheckRoster most n b q = b :=
  if_neg (by rcases h with h | h <;> simp [h])

/-- The recheck leaves what any recheck looks at: the channels' rosters, and which rosters are admitted. -/
theorem recheckRoster_keeps (most n : Nat) (b : Block) (r : Nat) :
    (recheckRoster most n b r).chans = b.chans ∧ (recheckRoster most n b r).arb.admitted = b.arb.admitted := by
  simp only [recheckRoster]
  split
  · split
    · simp
    · split <;> simp
  · simp

/-- Where one roster alone reserves slots on the port, the recheck is that roster's. -/
theorem peerRecheck_single {b : Block} {n r : Nat} (hr : r < 4)
    (hother : ∀ q, q < 4 → q ≠ r → rosterPeer b q n = 0 ∨ bit b.arb.admitted q = false) :
    peerRecheck b n = recheckRoster (peerSlots (linkWidth (linkOf b n))) n b r := by
  obtain ⟨hchans, hadm⟩ := recheckRoster_keeps (peerSlots (linkWidth (linkOf b n))) n b r
  have hpeer (q : Nat) : rosterPeer (recheckRoster (peerSlots (linkWidth (linkOf b n))) n b r) q n = rosterPeer b q n := by
    rw [rosterPeer, hchans, rosterPeer]
  rw [peerRecheck_eq]
  refine foldl_eq_step List.nodup_range (List.mem_range.2 hr) (fun q hq hne => ?_) (fun q hq hne => ?_) <;>
    refine recheckRoster_none ?_
  · exact hother q (List.mem_range.1 hq) hne
  · rw [hpeer, hadm]
    exact hother q (List.mem_range.1 hq) hne

/-- A roster that is degraded where its slots are short, and not where the link carries them, stays as it is (R211). -/
theorem recheckRoster_settled {b : Block} {most n r : Nat} (h : decide (rosterPeer b r n ≤ most) ≠ b.arb.degraded.contains (r, n)) :
    recheckRoster most n b r = b := by
  have hbad : decide (most < rosterPeer b r n) = b.arb.degraded.contains (r, n) := by
    rw [Bool.eq_not.2 h.symm, ← decide_not, decide_eq_decide, Nat.not_le]
  simp only [recheckRoster, hbad, Bool.and_not_self, Bool.false_eq_true, if_false, ite_self]

section
variable {b : Block} {most n r : Nat} (hadm : bit b.arb.admitted r = true) (hpos : 0 < rosterPeer b r n)
include hadm hpos

/-- Fewer slots than the roster reserves degrade it (R211). -/
theorem recheckRoster_degrades (hmost : most < rosterPeer b r n) (hwas : b.arb.degraded.contains (r, n) = false) :
    recheckRoster most n b r =
      emit { b with arb := { b.arb with degraded := b.arb.degraded ++ [(r, n)] } } 0x15 none none (put 0 2 r ||| put 4 2 n) := by
  simp only [recheckRoster, hadm, hpos, hmost, hwas, decide_true, Bool.and_true, Bool.not_false, if_true]

/-- A degraded roster recovers when the link carries its slots again (R211). -/
theorem recheckRoster_recovers (hmost : rosterPeer b r n ≤ most) (hwas : b.arb.degraded.contains (r, n) = true) :
    recheckRoster most n b r =
      emit { b with arb := { b.arb with degraded := b.arb.degraded.filter (fun e => e != (r, n)) } } 0x16 none none
        (put 0 2 r ||| put 4 2 n) := by
  simp only [recheckRoster, hadm, hpos, Nat.not_lt.2 hmost, hwas, decide_true, decide_false, Bool.and_true, Bool.not_false, Bool.false_and,
    Bool.false_eq_true, if_true, if_false]

end

/-- Settles O30: a marked entry is restored well or wrongly, and the recheck of a port is that of the one roster with slots on it. -/
theorem rostersAreKept : Obligations.RostersAreKept := by
  unfold Obligations.RostersAreKept
  refine ⟨fun s ch r k slot ok hch => ⟨fun h => ?_, fun h => ?_⟩, fun s n r hpeer hr hadm hpos hother => ⟨fun henough hwas => ?_,
    fun henough hwas => ?_, fun h => ?_⟩⟩
  · exact guarded_eq_next hch (rosterRestore_unmarked h)
  · cases hgood : ok && (copyWord s.blk ch (entryWord r k slot)).all (fun v => parOk v.2)
    case false =>
      have hpend (hne : s.blk.arb.active ≠ r) := loseRoster_pend (b := rewriteWord s.blk ch (entryWord r k slot)) hne
      refine ⟨_, guarded_eq_next hch (rosterRestore_wrong h hgood), rfl, ?_, fun c hc => ?_, fun hg => ?_,
        fun _ => ⟨loseRoster_admitted .., loseRoster_flags .., fun hne => hpend hne _ _⟩⟩
      · rw [chan, loseRoster_chans, ← chan, chan_rewriteWord_self]
        rfl
      · rw [chan, loseRoster_chans, ← chan, chan_rewriteWord_ne _ _ _ hc]
      · exact absurd (hgood.symm.trans hg) Bool.false_ne_true
    case true =>
      refine ⟨_, guarded_eq_next hch (rosterRestore_good h hgood), rfl, ?_, fun c hc => ?_, fun _ => ⟨?_, rfl⟩, fun hg => ?_⟩
      · rw [chan_setChan_self, chan_rewriteWord_self]
        rfl
      · rw [chan_setChan_ne _ _ hc.symm, chan_rewriteWord_ne _ _ _ hc]
      · rw [chan_setChan_self, chan_rewriteWord_self]
        rfl
      · exact absurd (hg.symm.trans hgood) Bool.false_ne_true
  · exact guarded_eq_next hpeer ((peerRecheck_single hr hother).trans
      (recheckRoster_degrades hadm hpos (Nat.not_le.1 (of_decide_eq_false henough)) hwas))
  · exact guarded_eq_next hpeer ((peerRecheck_single hr hother).trans
      (recheckRoster_recovers hadm hpos (of_decide_eq_true henough) hwas))
  · exact guarded_eq_next hpeer ((peerRecheck_single hr hother).trans (recheckRoster_settled h))

end Sys2Proof.Machine
end

section
/-! PROOFS. READY opens the ports with a roster activated, and the recovery with RETRAIN times out (R190, R210, R338, R397, R398). -/

namespace Sys2Proof.Machine

/-! The roster at ready. -/

/-- A fold each of whose steps touches the channels alone touches the channels alone. -/
theorem foldl_chans_eq {f : Block → Nat → Block} (h : ∀ c n, ∃ cs, f c n = { c with chans := cs }) (l : List Nat) (b : Block) :
    ∃ cs, l.foldl f b = { b with chans := cs } := by
  refine foldl_inv (fun c => ∃ cs, c = { b with chans := cs }) f ?_ l b ⟨b.chans, rfl⟩
  rintro _ n ⟨cs, rfl⟩
  exact h _ n

/-- The activation of a roster touches arbitration and the channels' rosters alone (R210). -/
theorem activateRoster_eq (b : Block) : ∃ cs a, activateRoster b = { b with chans := cs, arb := a } := by
  unfold activateRoster
  split
  case h_1 => exact ⟨b.chans, _, rfl⟩
  case h_2 =>
    obtain ⟨cs, h⟩ := foldl_chans_eq (f := fun b ch => setChan b ch (fun c => { c with roster := loadEntries 0 fallbackEntries c.roster }))
      (fun _ _ => ⟨_, rfl⟩) (List.range b.build.channels) b
    rw [h]
    exact ⟨cs, _, rfl⟩

theorem activateRoster_lowest {b : Block} {r : Nat} (hr : r < 4) (hadm : bit b.arb.admitted r = true)
    (hlow : ∀ q, q < r → bit b.arb.admitted q = false) : (activateRoster b).arb.active = r := by
  have hfind : (List.range 4).find? (fun r => bit b.arb.admitted r) = some r :=
    List.find?_range_eq_some.2 ⟨hadm, List.mem_range.2 hr, fun q hq => by simp [hlow q hq]⟩
  simp only [activateRoster, hfind]

theorem activateRoster_none {b : Block} (h : b.arb.admitted = 0) :
    (activateRoster b).arb.fallback = true ∧ (activateRoster b).arb.active = 0 := by
  have hfind : (List.range 4).find? (fun r => bit b.arb.admitted r) = none :=
    List.find?_range_eq_none.2 fun r _ => by simp [h, bit]
  simp only [activateRoster, hfind, and_self]

/-! The ports open. -/

/-- The ports of channel `n` open (R338). -/
def openChan (b : Block) (n : Nat) : Block := setChan b n (fun c => { c with stopped := false, idleFrom := b.now })

theorem openChan_stopped (b : Block) (n : Nat) : (chan (openChan b n) n).stopped = false := by simp [openChan]

theorem openChan_keeps_open {b : Block} {k : Nat} (h : (chan b k).stopped = false) (n : Nat) : (chan (openChan b n) k).stopped = false := by
  rw [openChan, chan_setChan]
  split
  · rfl
  · exact h

theorem foldl_openChan_stopped {l : List Nat} {n : Nat} (hn : n ∈ l) (b : Block) : (chan (l.foldl openChan b) n).stopped = false := by
  obtain ⟨before, after, rfl⟩ := List.append_of_mem hn
  rw [List.foldl_append, List.foldl_cons]
  exact foldl_inv (fun c => (chan c n).stopped = false) openChan (fun _ k hc => openChan_keeps_open hc k) after _ (openChan_stopped _ n)

theorem afterRetrain_of_none {b : Block} (h : b.recov.retrain = false) : afterRetrain b = b := if_neg (by simp [h])

theorem ready_early {b : Block} (h : b.bring.phase ≠ 4 ∨ b.bring.inReset = true) : ready b = b := if_pos h

/-- The boot is done: the phase is READY (R338). -/
def bootDone (b : Block) : Block :=
  { b with bring := { b.bring with phase := 5, bootMs := min 255 ((usNow b - b.bring.releasedUs) / 1000) } }

/-- The next bank cycle is the rotation origin, and the windows and the safety controller's times start at tick `us` (R190, R338). -/
def atOrigin (b : Block) (us : Nat) : Block :=
  { b with
    arb := { b.arb with
      fresh := true, bankCycles := 0, rotation := 0, budgetRot := 0, confFrom := 0, confLen := max 1 (fld b.regs.conflictCtl 0 20)
      ceFrom := b.now / Config.refCycles + 1, ceLen := max 1 (fld b.regs.ceCtl 16 16) }
    safety := { b.safety with lastBeat := us, lastBeatTime := b.time.ns, scrubUs := us } }

/-- The block of READY before its channels open. -/
def readyOrigin (b : Block) : Block := atOrigin (activateRoster (bootDone b)) (usNow b)

theorem readyOrigin_eq (b : Block) :
    ∃ cs a f, readyOrigin b = { bootDone b with chans := cs, arb := a, safety := f } := by
  obtain ⟨cs, a, h⟩ := activateRoster_eq (bootDone b)
  rw [readyOrigin, h]
  exact ⟨cs, _, _, rfl⟩

/-- READY of a boot that has come so far, without RETRAIN, opens every channel of the build at the rotation origin (R338). -/
theorem ready_booted {b : Block} (hphase : b.bring.phase = 4) (hreset : b.bring.inReset = false) (hretrain : b.recov.retrain = false) :
    ready b = (List.range b.build.channels).foldl openChan (readyOrigin b) := by
  have hready : ready b = afterRetrain ((List.range (readyOrigin b).build.channels).foldl openChan (readyOrigin b)) :=
    if_neg (by simp [hphase, hreset])
  obtain ⟨cs, a, f, horigin⟩ := readyOrigin_eq b
  obtain ⟨ports, hports⟩ := foldl_chans_eq (f := openChan) (fun _ _ => ⟨_, rfl⟩) (List.range b.build.channels) (readyOrigin b)
  have hbuild : (readyOrigin b).build = b.build := by rw [horigin]; rfl
  rw [hready, hbuild, afterRetrain_of_none]
  rw [hports, horigin]
  exact hretrain

/-- What READY of such a boot changes: the phase, arbitration, the channels and the times of the safety controller. -/
theorem ready_frame {b : Block} (hphase : b.bring.phase = 4) (hreset : b.bring.inReset = false) (hretrain : b.recov.retrain = false) :
    ∃ cs f, ready b = { bootDone b with chans := cs, arb := (readyOrigin b).arb, safety := f } := by
  obtain ⟨cs, a, f, horigin⟩ := readyOrigin_eq b
  obtain ⟨ports, hports⟩ := foldl_chans_eq (f := openChan) (fun _ _ => ⟨_, rfl⟩) (List.range b.build.channels) (readyOrigin b)
  refine ⟨ports, f, ?_⟩
  rw [ready_booted hphase hreset hretrain, hports, horigin]

/-! The recovery with RETRAIN. -/

theorem retrainCheck_idle {b : Block} (h : b.recov.retraining = false) : retrainCheck b = b := if_neg (by simp [h])

/-- A recovery whose read on S0 has no answer is not settled (R398). -/
theorem retrainCheck_unanswered {b : Block} (h : (b.sump.queue ++ b.sump.out).any (fun r => decide (r.who = .probe)) = true) :
    retrainCheck b = b := if_neg (by simp only [h]; simp)

theorem retrainTimeout_idle {b : Block} (h : b.recov.retraining = false) : retrainTimeout b = b := by
  rw [retrainTimeout, retrainCheck_idle h]
  exact if_neg (by simp [h])

theorem retrainTimeout_due {b : Block} (hretraining : b.recov.retraining = true)
    (hwait : (b.sump.queue ++ b.sump.out).any (fun r => decide (r.who = .probe)) = true)
    (hdue : usDue b b.recov.resetUs 2000000 = true) :
    retrainTimeout b = escalatePower { b with recov := { b.recov with retraining := false } } := by
  rw [retrainTimeout, retrainCheck_unanswered hwait]
  exact if_pos ⟨hretraining, hdue⟩

/-- Without a dump area the power cycle is asked for at once, where AUTO_PWR calls for it (R397, R399). -/
theorem escalatePower_noDump {b : Block} (h : hasDumpArea b = false) :
    escalatePower b = { b with recov := { b.recov with
      lastLevel := if bit b.regs.recovCtl 3 then 4 else b.recov.lastLevel
      pwrCycleReq := b.recov.pwrCycleReq || bit b.regs.recovCtl 3 } } := by
  cases hauto : bit b.regs.recovCtl 3
  · simp [escalatePower, hauto]
  · have hdump : hasDumpArea { b with recov := { b.recov with lastLevel := 4 } } = false := h
    simp [escalatePower, powerCycle, hauto, hdump]

/-- Settles O37: READY is `readyOrigin` with its channels open, the activation of the roster in it; the recovery that times out escalates. -/
theorem readyOpensPorts : Obligations.ReadyOpensPorts := by
  unfold Obligations.ReadyOpensPorts
  refine fun s => ⟨fun h => congrArg (done s) (ready_early h), fun hphase hreset hretrain => ?_,
    fun h => congrArg (done s) (retrainTimeout_idle h), fun hretraining hwait hdue hdump => ?_⟩
  · obtain ⟨cs, f, hready⟩ := ready_frame hphase hreset hretrain
    have hopen (n : Nat) (hn : n < s.blk.build.channels) : (chan (ready s.blk) n).stopped = false := by
      rw [ready_booted hphase hreset hretrain]
      exact foldl_openChan_stopped (List.mem_range.2 hn) _
    rw [hready] at hopen
    exact ⟨_, congrArg (done s) hready, rfl, by simp [isReady, bootDone, hreset], hopen, rfl, rfl, rfl,
      fun r hr => activateRoster_lowest (b := bootDone s.blk) hr, activateRoster_none (b := bootDone s.blk), rfl, rfl, rfl, rfl⟩
  · exact congrArg (done s) ((retrainTimeout_due hretraining hwait hdue).trans (escalatePower_noDump hdump))

end Sys2Proof.Machine
end

section
/-! PROOFS. The dredge's steps (R236, R237): where the row's tag word is clean and none is to be written back, a step is the reads that it
waits for. -/

namespace Sys2Proof.Machine

/-- A clean tag word is not noted (R186). -/
theorem tagNote_of_clean {a : Arrays} {ch row : Nat} (h : (tagDecode a ch row).verdict = .clean) (b : Block) : tagNote a b ch row = b := by
  simp only [tagNote, h, ite_self]

/-- Two changes of a channel that agree on what it holds. -/
theorem setChan_congr {b : Block} {ch : Nat} {f g : Channel → Channel} (h : f (chan b ch) = g (chan b ch)) :
    setChan b ch f = setChan b ch g :=
  congrArg (fun c => ({ b with chans := tset b.chans ch c } : Block)) h

/-- The dredge of a channel at the start of a step: every bank to be read waits, and no turn (R236). -/
def stepStarted (c : Channel) (row : Nat) : Dredge := { c.dredge with running := true, row := row, reads := stepReads c, turns := [] }

section
variable {a : Arrays} {b : Block} {ch : Nat} (htags : ∀ e ∈ (chan b ch).tagFix, e.2.isEmpty = false)
include htags

theorem startStep_of_clean {row : Nat} (h : (tagDecode a ch row).verdict = .clean) :
    startStep a b ch row = (a, setChan b ch (fun c => { c with dredge := stepStarted c row })) := by
  simp only [startStep, tagNote_of_clean h]
  exact settleTags_of_none (by simpa using htags) a

section
variable (hrun : banksRun b ch = true)
include hrun

theorem dredgeStep_begins (hidle : (chan b ch).dredge.running = false) (hdue : (chan b ch).dredge.passStart ≤ usNow b)
    (h : (tagDecode a ch 0).verdict = .clean) :
    dredgeStep a b ch = (a, setChan (setChan b ch (fun c => { c with dredge := { c.dredge with passStart := usNow b } })) ch
      (fun c => { c with dredge := stepStarted c 0 })) := by
  simp only [dredgeStep, hrun, hidle, hdue, if_true, Bool.true_eq_false, if_false]
  exact startStep_of_clean (by simpa using htags) h

theorem dredgeStep_continues (hrunning : (chan b ch).dredge.running = true) (hreads : (chan b ch).dredge.reads = [])
    (hturns : (chan b ch).dredge.turns = []) (hrow : (chan b ch).dredge.row + 1 < linesPerBank b.build)
    (hdue : ((chan b ch).dredge.row + 1) * dredgeInterval b ≤ (usNow b - (chan b ch).dredge.passStart) * linesPerBank b.build)
    (h : (tagDecode a ch ((chan b ch).dredge.row + 1)).verdict = .clean) :
    dredgeStep a b ch = (a, setChan b ch (fun c => { c with dredge := stepStarted c ((chan b ch).dredge.row + 1) })) := by
  simp only [dredgeStep, hrun, hrunning, hreads, hturns, hrow, hdue, if_true, Bool.true_eq_false, if_false, List.isEmpty_nil, or_self]
  exact startStep_of_clean htags h

end
end

section
variable {a : Arrays} {b : Block} {ch : Nat}

theorem dredgeStep_early (hidle : (chan b ch).dredge.running = false) (h : usNow b < (chan b ch).dredge.passStart) :
    dredgeStep a b ch = (a, b) := by
  simp [dredgeStep, hidle, Nat.not_le.2 h]

theorem dredgeStep_busy (hrunning : (chan b ch).dredge.running = true)
    (h : (chan b ch).dredge.reads ≠ [] ∨ (chan b ch).dredge.turns ≠ []) :
    dredgeStep a b ch = (a, b) := by
  simp [dredgeStep, hrunning, h]

end

/-- Settles O31: the four cases of the step (`dredgeStep_begins`, `_early`, `_busy`, `_continues`), each by its conditions. -/
theorem dredgeSteps : Obligations.DredgeSteps := by
  intro s ch hok hrun htags d at_
  refine ⟨fun hidle hdue h => ?_, fun hidle h => ?_, fun hrunning h => ?_, fun hrunning hreads hturns hrow h hdue => ?_⟩
  · refine guardedArr_eq_next hok ((dredgeStep_begins htags hrun hidle hdue h).trans (congrArg (Prod.mk s.arr) ?_))
    refine setChan_congr ?_
    rw [chan_setChan_self]
    rfl
  · exact guardedArr_eq_next hok (dredgeStep_early hidle h)
  · exact guardedArr_eq_next hok (dredgeStep_busy hrunning h)
  · exact guardedArr_eq_next hok (dredgeStep_continues htags hrun hrunning hreads hturns hrow hdue h)

end Sys2Proof.Machine
end

section
/-! PROOFS. The sparing of a bank (R245, R247): what its slots do to a row of clean words, and how the sparing ends. -/

namespace Sys2Proof.Machine

/-! A row's slot. -/

theorem chan_markBank_spare (b : Block) (ch bank slot : Nat) (src : Option Nat) (row : Nat) (words : WordMask) (org : Option Origin) :
    (chan (markBank b ch bank slot src row words org) ch).spare = (chan b ch).spare := by
  simp [markBank, setBank]

/-- The memory of a slot leaves the sparing's source where it is. -/
theorem spareSource_markBank (b : Block) (ch bank slot : Nat) (src : Option Nat) (row : Nat) (words : WordMask) (org : Option Origin) :
    spareSource (markBank b ch bank slot src row words org) ch = spareSource b ch := by
  rw [spareSource, spareSource, physBank, physBank, chan_markBank_spare]

theorem wordAt_bad_of_clean {ds : List Decoded} (h : ∀ d ∈ ds, d.verdict = .clean) (k : Nat) : (wordAt ds k).bad = false := by
  have hk : (wordAt ds k).verdict = .clean := by
    rw [wordAt, List.getD_eq_getElem?_getD]
    cases hd : ds[k]? with
    | none => rfl
    | some d => exact h d (List.mem_of_getElem? hd)
  simp [Decoded.bad, hk]

theorem rowClean_of_clean {ds : List Decoded} (h : ∀ d ∈ ds, d.verdict = .clean) : rowClean ds = true := by
  simpa [rowClean] using h

/-- A row of clean words notes nothing (R229). -/
theorem noteRow_of_clean {a : Arrays} {b : Block} {ch pb row : Nat} (h : ∀ d ∈ rawLine a.mem (storeKey b ch pb row), d.verdict = .clean)
    (bank : Nat) : noteRow a b ch bank pb row = b :=
  noteRead_of_clean h ..

section
variable {a : Arrays} {b : Block} {ch src : Nat} {sp : Sparing} (hsp : (chan b ch).spare = sp) (hsrc : spareSource b ch = src)
  (hrow : sp.row < linesPerBank b.build) (hbad : sp.bad = false) (hredo : sp.redo = false)
  (hfrom : ∀ d ∈ rawLine a.mem (storeKey b ch src sp.row), d.verdict = .clean)
include hsp hsrc hrow hbad hredo hfrom

/-- The copy stores the data that the row's words decode to (R245). -/
theorem spareStep_copies (hphase : sp.phase = 2) :
    spareStep a b ch =
      ({ a with
          mem := writeLine a.mem (storeKey b ch sp.onto sp.row)
            (fun k => storeWord false (wordAt (rawLine a.mem (storeKey b ch src sp.row)) k).data) },
        setChan b ch (fun c => { c with spare := { c.spare with row := c.spare.row + 1 } })) := by
  simp only [spareStep, hsp, hsrc, Nat.not_le.2 hrow, hbad, hphase, noteRow_of_clean hfrom, copyRow, wordAt_bad_of_clean hfrom,
    Bool.false_eq_true, or_self, true_or, if_false, if_true]
  exact congrArg (Prod.mk _) (setChan_congr (by simp only [hsp, hredo, Bool.false_eq_true, if_false]))

/-- The verify compares the row with the spare's: where both are clean, a row that differs makes the spare one that has failed (R245). -/
theorem spareStep_verifies (hphase : sp.phase = 3) (honto : ∀ d ∈ rawLine a.mem (storeKey b ch sp.onto sp.row), d.verdict = .clean) :
    spareStep a b ch = (a, setChan b ch (fun c => { c with
      spare :=
        if rowDiffers (rawLine a.mem (storeKey b ch src sp.row)) (rawLine a.mem (storeKey b ch sp.onto sp.row)) = true
        then { c.spare with bad := true } else { c.spare with row := c.spare.row + 1 } })) := by
  simp only [spareStep, hsp, hsrc, Nat.not_le.2 hrow, hbad, hphase, hredo, noteRow_of_clean hfrom, noteRow_of_clean honto,
    rowClean_of_clean hfrom, rowClean_of_clean honto, Bool.false_eq_true, or_self, if_false, Nat.reduceEqDiff, Bool.and_self, if_true]
  refine congrArg (Prod.mk _) (setChan_congr ?_)
  cases rowDiffers _ _ <;> rfl

end

/-- A slot that the sparing is given is a step of it, and the bank remembers the slot. -/
theorem exec_bankSlotGrant_spareRow {s : State} {ch bank slot : Nat} (h : s.blk.decides ch bank slot .spareRow) {a : Arrays} {c : Block}
    (hstep : spareStep s.arr (markBank s.blk ch bank slot none 0 0 none) ch = (a, c)) :
    exec (.bankSlotGrant ch bank) s = .next { s with arr := a, blk := c } := by
  obtain ⟨owner, waiting, hgrant⟩ := grantBank_decides h s.arr
  obtain ⟨hok, hbank, -⟩ := h
  refine guardedArr_eq_next ?_ (hgrant.trans hstep)
  simp only [hok, Bool.true_and, decide_eq_true_eq]
  omega

/-! The end of a sparing. -/

/-- A sparing that has ended: the spares keep their states (R245, R247). -/
def sparingEnded (t : Sparing) : Sparing :=
  { t with phase := 0, bank := 0, onto := 0, cmd := none, row := 0, redo := false, bad := false, waiting := none }

/-- With no trigger held, nothing starts where a sparing ends. -/
theorem endSparing_alone {b : Block} {ch : Nat} (h : (chan b ch).spare.waiting = none) (a : Arrays) (f : Sparing → Sparing) :
    endSparing a b ch f = setChan b ch (fun c => { c with spare := f (sparingEnded c.spare) }) := by
  simp only [endSparing, h]
  rfl

theorem failSparing_alone {b : Block} {ch : Nat} (h : (chan b ch).spare.waiting = none) (a : Arrays) (cause : Nat) (f : Sparing → Sparing) :
    failSparing a b ch cause f = setChan (completeIf (emit b 0x26 (some ch) none
      (put 0 6 (chan b ch).spare.bank ||| putBit 6 ((chan b ch).spare.onto == 65) ||| put 8 4 cause))
      (chan b ch).spare.cmd cRefused rSpareFail) ch (fun c => { c with spare := f (sparingEnded c.spare) }) :=
  endSparing_alone (by simpa using h) a f

theorem sparingLimit_early {b : Block} {ch : Nat} (h : (chan b ch).spare.phase = 0 ∨ usDue b (chan b ch).spare.startUs 400 = false)
    (a : Arrays) : sparingLimit a b ch = b := by
  refine if_neg fun ⟨hphase, hdue⟩ => h.elim hphase fun hearly => ?_
  rw [hdue] at hearly
  exact Bool.noConfusion hearly

theorem copyDone_unfinished {b : Block} {ch : Nat} (h : (chan b ch).spare.phase ≠ 2 ∨ (chan b ch).spare.row < linesPerBank b.build) :
    copyDone b ch = b :=
  if_neg fun ⟨hphase, hrow⟩ => h.elim (fun hne => hne hphase) (Nat.not_lt.2 hrow)

/-- The other spare is taken where this one has failed: the copy begins again, and the dredge leaves the other one alone (R247). -/
theorem verifyDone_otherSpare {b : Block} {ch other : Nat} (hphase : (chan b ch).spare.phase = 3) (hbad : (chan b ch).spare.bad = true)
    (h : freeSpare (failSpare (chan b ch).spare.onto (chan b ch).spare) = some other) (a : Arrays) :
    verifyDone a b ch = setChan b ch (fun c => { c with
      spare := { failSpare (chan b ch).spare.onto (chan b ch).spare with phase := 2, onto := other, row := 0, redo := false, bad := false }
      dredge := { c.dredge with
        reads := c.dredge.reads.filter (fun k => k != other), turns := c.dredge.turns.filter (fun k => k != other) } }) := by
  simp [verifyDone, hphase, hbad, h]

theorem verifyDone_unfinished {b : Block} {ch : Nat} (hbad : (chan b ch).spare.bad = false)
    (hrow : (chan b ch).spare.row < linesPerBank b.build) (a : Arrays) : verifyDone a b ch = b := by
  simp [verifyDone, hbad, hrow]

/-- The block in which a verify has found no row different: the record, the retirement list's entry and the command's completion (R245). -/
def switchNoted (b : Block) (ch : Nat) : Block :=
  let s := (chan b ch).spare
  let e := emit b 0x25 (some ch) none (put 0 6 s.bank ||| putBit 6 (s.onto == 65))
  completeIf { e with rlog := retireAppend e.rlog s.bank ch (s.onto - 64) } s.cmd cOkay 0 (put 0 1 (s.onto - 64))

theorem chan_switchNoted (b : Block) (ch j : Nat) : chan (switchNoted b ch) j = chan b j := by
  rw [switchNoted, chan_completeIf]
  exact chan_emit ..

theorem verifyDone_switches {b : Block} {ch : Nat} (hphase : (chan b ch).spare.phase = 3) (hbad : (chan b ch).spare.bad = false)
    (hrow : linesPerBank b.build ≤ (chan b ch).spare.row) (h : (chan b ch).spare.waiting = none) (a : Arrays) :
    verifyDone a b ch = setChan (switchNoted b ch) ch (fun c => { c with
      spare := switchSpare (sparingEnded c.spare) (chan b ch).spare.bank (chan b ch).spare.onto }) := by
  simp only [verifyDone, hphase, hbad, Nat.not_lt.2 hrow, ne_eq, not_true_eq_false, Bool.false_eq_true, if_false]
  exact endSparing_alone (by rwa [← chan_switchNoted b ch ch] at h) a _

/-- Settles O32: the copy and the verify are steps of the bank's slots, each a row of clean words; the other rows by their conditions. -/
theorem sparingMovesBank : Obligations.SparingMovesBank := by
  intro s ch hok b sp from_ onto spared ended free
  refine ⟨?quiesced, ?busy, ?rowSlot, ?copied, ?copying, ?spareFailed, ?verifying, ?verified, ?late, ?inTime⟩
  case quiesced => exact fun h => guarded_eq_next hok (if_pos h)
  case busy => exact fun h => guarded_eq_next hok (if_neg h)
  case rowSlot =>
    intro slot hdec hrow hbad hredo hfrom
    have hspare := chan_markBank_spare b ch sp.bank slot none 0 0 none
    have hsource := spareSource_markBank b ch sp.bank slot none 0 0 none
    refine ⟨fun hphase => ?_, fun hphase honto => ?_⟩
    · exact ⟨_, exec_bankSlotGrant_spareRow hdec (spareStep_copies hspare hsource hrow hbad hredo hfrom hphase), rfl,
        fun k hk => readWord_writeLine _ _ _ hk, fun i hi => readByte_writeLine_out _ _ hi⟩
    · exact exec_bankSlotGrant_spareRow hdec (spareStep_verifies hspare hsource hrow hbad hredo hfrom hphase honto)
  case copied => exact fun hphase hrow => guarded_eq_next hok (if_pos ⟨hphase, hrow⟩)
  case copying => exact fun h => guarded_eq_next hok (copyDone_unfinished h)
  case spareFailed =>
    intro hphase hbad other hother
    exact ⟨_, guarded_eq_next hok (verifyDone_otherSpare hphase hbad hother s.arr), rfl, rfl, fun c hc => chan_setChan_ne _ _ hc.symm,
      by rw [chan_setChan_self]⟩
  case verifying => exact fun _ hbad hrow => guarded_eq_next hok (verifyDone_unfinished hbad hrow s.arr)
  case verified => exact fun hphase hbad hrow hwait => guarded_eq_next hok (verifyDone_switches hphase hbad hrow hwait s.arr)
  case late =>
    intro hphase hdue hwait
    exact guarded_eq_next hok ((if_pos ⟨hphase, hdue⟩).trans (failSparing_alone hwait s.arr 1 id))
  case inTime => exact fun h => guarded_eq_next hok (sparingLimit_early h s.arr)

end Sys2Proof.Machine
end

section
/-! PROOFS. The merge buffer (R115, R230 to R233): what one unwatched write does at the buffer, and the entry whose window ends. -/

namespace Sys2Proof.Machine

/-! A write at the buffer. -/

/-- One write that stands at the buffer, with nothing to fail the canary, is all that its command lets enter. -/
theorem mergeEntry_single {a : Arrays} {b : Block} {ch : Nat} {op : LineOp} (hdue : dueMerges b ch = [op])
    (hfail : failsNow a b = []) (n : Nat) :
    mergeEntry a b ch n = mergeArrive a b op := by
  simp [mergeEntry, tripScan_of_none hfail, hdue]

theorem dueMerges_mem_ops {b : Block} {ch : Nat} {op : LineOp} (h : op ∈ dueMerges b ch) : op ∈ b.ops :=
  List.mem_of_mem_filter (mem_of_mem_sortBy _ h)

theorem rejected_of_unwatched {b : Block} {op : LineOp} (h : watched b op = false) (k : Option Nat) : rejected b op k = false := by
  simp [rejected, h]

section
variable {c : Channel} {op : LineOp} {e : MergeEntry}

theorem entering_joins (h : mergeFind c op.line = some e) (hctx : e.ctx = op.ctx) (hd : e.draining = false) :
    entering c.merge op = .joins e := by
  simp only [mergeFind] at h
  simp [entering, h, hctx, hd]

theorem entering_behind (h : mergeFind c op.line = some e) (hctx : e.ctx ≠ op.ctx) : entering c.merge op = .behind e := by
  simp only [mergeFind] at h
  simp [entering, h, hctx]

theorem entering_allocates (h : mergeFind c op.line = none) (hroom : c.merge.length < 32) : entering c.merge op = .allocates := by
  simp only [mergeFind] at h
  simp only [entering, h, Nat.not_le.2 hroom, if_false]

end

/-- Once a write is taken, the entry of its line waits on where it is neither full nor of a bank that is being quiesced (R233). -/
theorem drainIfDue_taken {b : Block} {op : LineOp} {e : MergeEntry} (h : mergeFind (chan b op.ch) op.line = some e)
    (hd : drainsNow (chan b op.ch) e = false) (a : Arrays) :
    drainIfDue a (ackOp (dropOp b op) op false) op.ch op.line = ackOp (dropOp b op) op false := by
  have hchan : chan (ackOp (dropOp b op) op false) op.ch = chan b op.ch := rfl
  simp only [drainIfDue, hchan, h, hd, Bool.false_eq_true, if_false]

/-- An entry, joined by a write, is still its line's. -/
theorem mergeFind_joined {b : Block} {op : LineOp} {e : MergeEntry} (h : mergeFind (chan b op.ch) op.line = some e) :
    mergeFind (chan (setMerge b op.ch e.serial (mergeInto op)) op.ch) op.line = some (mergeInto op e) := by
  have hline : (fun m : MergeEntry => (if m.serial = e.serial then mergeInto op m else m).line == op.line) = fun m => m.line == op.line := by
    funext m
    split <;> rfl
  rw [mergeFind] at h
  rw [mergeFind, chan_setMerge_merge, List.find?_map, Function.comp_def, hline, h]
  simp

/-- The block in which a write has a new entry in the merge buffer (R230). -/
def allocated (b : Block) (op : LineOp) (o : Observe) : Block :=
  setChan { b with serial := b.serial + 1, obs := o } op.ch (fun c => { c with merge := c.merge ++ [newEntry b (b.serial + 1) op] })

/-- A new entry of a line that had none is the line's. -/
theorem mergeFind_allocated {b : Block} {op : LineOp} (h : mergeFind (chan b op.ch) op.line = none) (o : Observe) :
    mergeFind (chan (allocated b op o) op.ch) op.line = some (newEntry b (b.serial + 1) op) := by
  rw [allocated, chan_setChan_self]
  change List.find? _ ((chan b op.ch).merge ++ [newEntry b (b.serial + 1) op]) = _
  rw [List.find?_append]
  rw [mergeFind] at h
  simp [h, newEntry]

section
variable {b : Block} {op : LineOp} (hw : watched b op = false)
include hw

theorem mergeArrive_joins {e : MergeEntry} (h : mergeFind (chan b op.ch) op.line = some e) (hctx : e.ctx = op.ctx) (hd : e.draining = false)
    (hwait : drainsNow (chan b op.ch) (mergeInto op e) = false) (a : Arrays) :
    mergeArrive a b op = ackOp (dropOp (setMerge b op.ch e.serial (mergeInto op)) op) op false := by
  simp only [mergeArrive, rejected_of_unwatched hw, hw, entering_joins h hctx hd, Bool.false_and, Bool.or_self, Bool.false_eq_true,
    if_false]
  refine drainIfDue_taken (mergeFind_joined h) ?_ a
  rw [← hwait]
  simp [drainsNow, setMerge]

theorem mergeArrive_behind {e : MergeEntry} (h : mergeFind (chan b op.ch) op.line = some e) (hctx : e.ctx ≠ op.ctx) (a : Arrays) :
    mergeArrive a b op = startDrain a b op.ch e := by
  simp only [mergeArrive, rejected_of_unwatched hw, hw, entering_behind h hctx, Bool.false_and, Bool.or_self, Bool.false_eq_true, if_false]

theorem mergeArrive_allocates (h : mergeFind (chan b op.ch) op.line = none) (hroom : (chan b op.ch).merge.length < 32)
    (hnarrow : isNarrow op.be op.wp = true) (hbank : (chan b op.ch).spare.phase ≠ 1 ∨ (chan b op.ch).spare.bank ≠ op.bank) (a : Arrays) :
    ∃ o, mergeArrive a b op = ackOp (dropOp (allocated b op o) op) op false := by
  obtain ⟨o, ho⟩ := count_eq b 0x21 { ch := op.ch, port := op.src, ctx := op.ctx } 1
  refine ⟨o, ?_⟩
  simp only [mergeArrive, rejected_of_unwatched hw, hw, entering_allocates h hroom, ho, Bool.false_and, Bool.or_self, Bool.false_eq_true,
    if_false]
  refine drainIfDue_taken (mergeFind_allocated h o) ?_ a
  simp only [drainsNow, allocated, chan_setChan_self, entryFull, newEntry, hnarrow, Bool.not_true, Bool.false_or, Bool.and_eq_false_iff,
    beq_eq_false_iff_ne]
  exact hbank

end

/-- The drain of an entry whose line has no tag: a write where its words are all enabled in full, else a turn (R233). -/
def drainOf (b : Block) (ch : Nat) (e : MergeEntry) : LineOp :=
  { seqOp b .drain ch e.bank e.row e.line e.seam with
    org := e.org, src := e.src, cls := e.cls, qos := e.qos, ctx := e.ctx, shift := e.shift, fmt := (seamOf b e.seam).format, no := e.serial
    stage := if entryFull e then .chkE else .bank, data := e.data, be := e.mask, wp := e.wp, checked := e.checked, id := e.id }

theorem findsTag_of_unseen {a : Arrays} {b : Block} {op : LineOp} (h : tagSeen a b op.ch op.bank op.row = false) :
    findsTag a b op = false := by
  simp [findsTag, h]

theorem startDrain_untagged {a : Arrays} {b : Block} {ch : Nat} {e : MergeEntry} (hd : e.draining = false)
    (htag : tagSeen a b ch e.bank e.row = false) (hz : b.zeroLines.contains (lineKey ch e.bank e.row) = false) :
    ∃ o, startDrain a b ch e = { setMerge b ch e.serial (fun e => { e with draining := true }) with
      serial := b.serial + 1, ops := b.ops ++ [drainOf b ch e], obs := o } := by
  unfold startDrain
  rw [hd, if_neg Bool.false_ne_true]
  extract_lets op full op' c d
  obtain ⟨o, hc⟩ : ∃ o, c = { b with obs := o } := by
    unfold c
    split
    · exact ⟨b.obs, rfl⟩
    · exact count_eq ..
  have hfull : full = entryFull e := by
    have hop : findsTag a b op = false := findsTag_of_unseen htag
    simp only [full, hop, hz, Bool.or_false]
  have hop' : op' = drainOf b ch e := by
    simp only [op', hfull]
    rfl
  have hd' : findsTag a d op' = false := findsTag_of_unseen (by
    unfold d
    rw [hc]
    exact htag)
  refine ⟨o, ?_⟩
  rw [takeZero, hd', hop']
  unfold d
  rw [hc, hop']
  rfl

/-! The end of an entry's window. -/

/-- An entry of the buffer that is marked so drains. -/
theorem setMerge_drains (b : Block) {ch : Nat} {e : MergeEntry} (he : e ∈ (chan b ch).merge) :
    ∃ m ∈ (chan (setMerge b ch e.serial (fun e => { e with draining := true })) ch).merge, m.serial = e.serial ∧ m.draining = true := by
  rw [chan_setMerge_merge]
  exact ⟨_, List.mem_map.mpr ⟨e, he, if_pos rfl⟩, rfl, rfl⟩

/-- An entry that alone has its number is found by it. -/
theorem find_serial {l : List MergeEntry} {e : MergeEntry} (he : e ∈ l) (h : ∀ m ∈ l, m.serial = e.serial → m = e) :
    l.find? (fun m => m.serial == e.serial) = some e := by
  cases hf : l.find? (fun m => m.serial == e.serial) with
  | none => simpa using List.find?_eq_none.1 hf e he
  | some m => rw [h m (List.mem_of_find?_eq_some hf) (by simpa using List.find?_some hf)]

section
variable {b : Block} {ch n : Nat} {e : MergeEntry} (he : (chan b ch).merge[n]? = some e)
include he

theorem mergeExpiry_early (h : b.now < e.alloc + 64) (a : Arrays) : mergeExpiry a b ch n = b := by
  simp only [mergeExpiry, he]
  exact if_neg (Nat.not_le.2 h)

/-- The entry drains, where nothing joins it in this cycle (R233). -/
theorem mergeExpiry_due {a : Arrays} (h : e.alloc + 64 ≤ b.now) (hfail : failsNow a b = [])
    (halone : ∀ op ∈ dueMerges b ch, op.line ≠ e.line)
    (hserial : ∀ m ∈ (chan b ch).merge, m.serial = e.serial → m = e) : mergeExpiry a b ch n = startDrain a b ch e := by
  have hjoin : (dueMerges b ch).filter (fun op => op.line == e.line && op.ctx == e.ctx) = [] :=
    List.filter_eq_nil_iff.mpr fun op hop hp => halone op hop (by simpa using (Bool.and_eq_true_iff.1 hp).1)
  have hwindow : e.alloc + Config.mergeWindow ≤ b.now := h
  simp only [mergeExpiry, he, hwindow, hjoin, tripScan_of_none hfail, List.foldl_nil,
    find_serial (List.mem_of_getElem? he) hserial, if_true]

end

/-- Settles O25: the one write joins, waits behind or allocates by what the buffer holds of its line (`entering`), and makes nothing drain
where it is taken; the entry whose window has ended is the one that starts to drain (`startDrain_untagged`). -/
theorem mergeBufferWorks : Obligations.MergeBufferWorks := by
  refine ⟨?_, fun s ch n e hok he hd => ⟨fun h => ?_, fun h hfail halone hserial htag hz => ?_⟩⟩
  · intro s ch n op hok hdue hfail hw c
    have harrive := mergeEntry_single hdue hfail n
    refine ⟨fun hnarrow hbank hnone hroom => ?_, fun e he hctx hd hwait hserial => ?_, fun e he hctx hd => ?_⟩
    · obtain ⟨o, h⟩ := mergeArrive_allocates hw hnone hroom hnarrow hbank s.arr
      refine ⟨_, newEntry s.blk (s.blk.serial + 1) op, guarded_eq_next hok (harrive.trans h), ?_,
        rfl, rfl, rfl, rfl, rfl, rfl, rfl, rfl, rfl, rfl, rfl, rfl⟩
      change (chan (allocated s.blk op o) op.ch).merge = _
      rw [allocated, chan_setChan_self]
      rfl
    · refine ⟨_, guarded_eq_next hok (harrive.trans (mergeArrive_joins hw he hctx hd hwait s.arr)), ?_, rfl, rfl⟩
      change (chan (setMerge s.blk op.ch e.serial (mergeInto op)) op.ch).merge = _
      rw [chan_setMerge_merge]
      refine List.map_congr_left fun m hm => ?_
      split
      · next h => rw [hserial m hm h]
      · rfl
    · obtain ⟨k, o, zs, obs, hdrain, -⟩ := startDrain_spec hd s.arr s.blk op.ch
      refine ⟨_, guarded_eq_next hok (harrive.trans (mergeArrive_behind hw he hctx s.arr)), ?_, ?_⟩
      · rw [hdrain]
        exact List.mem_append_left _ (dueMerges_mem_ops (hdue ▸ List.mem_singleton_self op))
      · have hmark := drainLine_marks he hd s.arr
        rwa [drainLine, he] at hmark
  · exact guarded_eq_next hok (mergeExpiry_early he h s.arr)
  · obtain ⟨o, hdrain⟩ := startDrain_untagged hd htag hz
    refine ⟨_, drainOf s.blk ch e, guarded_eq_next hok ((mergeExpiry_due he h hfail halone hserial).trans hdrain), rfl, rfl,
      rfl, rfl, rfl, rfl, rfl, rfl, rfl, rfl, rfl, rfl, rfl, rfl, rfl, rfl,
      setMerge_drains s.blk (List.mem_of_getElem? he), rfl⟩

end Sys2Proof.Machine
end

section
/-! PROOFS. The timers of a tally: the lease that starts, the lease that runs out and the wait that is reported (R253, R263, R264). -/

namespace Sys2Proof.Machine

/-! What the timers share with the other work on tallies. -/

/-- A tally's trace changes nothing but the observation state (R451). -/
theorem traceTally_eq (b : Block) (kind : Nat) (t : Tally) : ∃ o, traceTally b kind t = { b with obs := o } :=
  trace_eq _ _ _ _ none _

/-- Where no entry of the channel waits, an unlock grants nothing (R262). -/
theorem tallyGrants_of_noWaiters {b : Block} {ch : Nat} (h : ∀ w ∈ b.tallies, w.state = .waiting → w.ch ≠ ch) (a : Arrays) :
    tallyGrants a b ch = b := by
  have hnone : b.tallies.filter (fun w => w.state == .waiting && w.ch == ch) = [] :=
    List.filter_eq_nil_iff.2 fun w hw => by simpa using h w hw
  simp only [tallyGrants, hnone]
  rfl

/-- An entry that is lost makes no other entry wait. -/
theorem mem_tallies_of_waiting_lost {b : Block} {i : Nat} {w : Tally}
    (hw : w ∈ (setTally b i (fun t => { t with state := .lost })).tallies) (hwait : w.state = .waiting) : w ∈ b.tallies := by
  obtain ⟨t, ht, rfl⟩ := List.mem_map.1 hw
  split at hwait
  · cases hwait
  · next hidx => rwa [if_neg hidx]

/-- What a waiter waits on stays what it is where the report of another entry's wait is noted. -/
theorem blocker_waitReported {b : Block} {o : Origin} {ctx line span i : Nat} {k : Tally} (hk : blocker b o ctx line span = some k)
    (hne : k.idx ≠ i) : blocker (setTally b i (fun t => { t with waitReported := true })) o ctx line span = some k := by
  have hfind (p : Tally → Bool) (hp : ∀ t, p (if t.idx = i then { t with waitReported := true } else t) = p t)
      (h : b.tallies.find? p = some k) :
      (b.tallies.map (fun t => if t.idx = i then { t with waitReported := true } else t)).find? p = some k := by
    rw [List.find?_map, show p ∘ _ = p from funext hp, h, Option.map_some, if_neg hne]
  exact hfind _ (fun t => by split <;> rfl) hk

section
variable {b : Block} {i : Nat} {e : Tally} (hat : tallyAt b i = some e)
include hat

/-! The lease starts (R253, R266). -/

theorem leaseStart_busy (hbusy : spanBusy b e = true) : leaseStart b i = b := by
  simp [leaseStart, hat, hbusy]

/-- The grant ends, the marks over its lines are cleared, and the acquire is answered in the cycle of log 22. -/
theorem leaseStart_free (hgrant : e.granting = true) (hfree : spanBusy b e = false) {x : Txn} (hx : txnOf b e.uid = some x) :
    let l := locOf b.build (seamOf b (x.seam.getD 0)) e.line
    let unmarked := { b with marks := b.marks.filter (fun m => !spansMeet m.line m.span e.line e.span) }
    leaseStart b i = answer (setTally unmarked i (fun t => { t with granting := false })) x.uid
      (if b.marks.any (fun m => spansMeet m.line m.span e.line e.span) then .broken else .okay) (tallyDue b x l.ch (l.bank / 8)) := by
  intro l unmarked
  have htxn : txnOf (setTally unmarked i (fun t => { t with granting := false })) e.uid = some x := hx
  simp only [leaseStart, hat, hgrant, hfree, and_self, if_true, htxn, unmarked]
  rfl

/-! The lease runs out (R263). -/

theorem leaseExpiry_early (hdue : usDue b e.leaseUs e.lease = false) (a : Arrays) : leaseExpiry a b i = b := by
  simp [leaseExpiry, hat, hdue]

theorem leaseExpiry_due (hheld : e.state = .held) (hdue : usDue b e.leaseUs e.lease = true)
    (hnone : ∀ w ∈ b.tallies, w.state = .waiting → w.ch ≠ e.ch) (a : Arrays) :
    leaseExpiry a b i =
      traceTally (emit (setTally b i (fun t => { t with state := .lost })) 0x30 (some e.ch) (some (e.ctx, e.shift)) (spanWord e.line e.span))
        6 { e with state := .lost } := by
  simp only [leaseExpiry, hat, hheld, hdue, and_self, if_true]
  refine tallyGrants_of_noWaiters (fun w hw hwait => ?_) a
  rw [traceTally_tallies, emit_tallies] at hw
  exact hnone w (mem_tallies_of_waiting_lost hw hwait) hwait

/-! The wait is reported (R264). -/

theorem tallyWaitRow_entry_quiet (h : tallyWaitDue b e.fromUs = false ∨ e.waitReported = true) : tallyWaitRow b (.entry i) = b := by
  obtain h | h := h <;> simp [tallyWaitRow, hat, h]

theorem tallyWaitRow_entry_due (hwait : e.state = .waiting) (hdue : tallyWaitDue b e.fromUs = true) (hrep : e.waitReported = false)
    {x : Txn} (hx : txnOf b e.uid = some x) {k : Tally} (hk : blocker b x.org e.ctx e.line e.span = some k) (hne : k.idx ≠ i) :
    tallyWaitRow b (.entry i) =
      emit (setTally b i (fun t => { t with waitReported := true })) 0x31 (some e.ch) (some (e.ctx, e.shift))
        (put 0 35 e.line ||| put 36 4 (min 16 e.span - 1) ||| put 40 6 k.ctx ||| put 48 4 x.org.code) := by
  simp only [tallyWaitRow, hat, hwait, hdue, hrep, and_self, if_true, hx, waitRecord, blocker_waitReported hk hne]

end

/-- Settles O27: a grant, a lease and a wait do nothing until they are due, and then one thing each: the acquire is answered
(`leaseStart_free`), the entry is lost and nothing is granted (`leaseExpiry_due`), the wait is recorded (`tallyWaitRow_entry_due`). -/
theorem tallyTimersRun : Obligations.TallyTimersRun := by
  intro s i e hat
  refine ⟨fun x hgrant hx => ⟨fun hbusy => ?_, fun hfree => ?_⟩, fun hheld => ⟨fun hdue => ?_, fun hdue hnone => ?_⟩,
    fun x k hwait hx hk hne => ⟨fun h => ?_, fun hlimit hdue hrep => ?_⟩⟩
  · exact congrArg (done s) (leaseStart_busy hat hbusy)
  · exact congrArg (done s) (leaseStart_free hat hgrant hfree hx)
  · exact congrArg (done s) (leaseExpiry_early hat hdue s.arr)
  · obtain ⟨o, htrace⟩ := traceTally_eq _ 6 _
    exact ⟨_, o, congrArg (done s) ((leaseExpiry_due hat hheld hdue hnone s.arr).trans htrace), rfl⟩
  · refine congrArg (done s) (tallyWaitRow_entry_quiet hat ?_)
    obtain h | h | h := h
    · exact .inl (by simp [tallyWaitDue, h])
    · exact .inl (by simp [tallyWaitDue, h])
    · exact .inr h
  · exact congrArg (done s) (tallyWaitRow_entry_due hat hwait (by simp [tallyWaitDue, hlimit, hdue]) hrep hx hk hne)

end Sys2Proof.Machine
end

section
/-! PROOFS. The request at the head of S0's queue (R273 to R285): where it may transfer it is sent, or answered at its FILL mark. -/

namespace Sys2Proof.Machine

/-! The transfer of the request at the head of the queue. -/

/-- The block once the request at the head has left S0's queue, which is then `rest`. -/
def s0Unqueue (b : Block) (rest : List S0Req) : Block := { b with sump := { b.sump with queue := rest } }

/-- The block once a request has transferred on S0: the beats of a write are counted, and the request is outstanding. -/
def s0Send (b : Block) (r : S0Req) : Block :=
  let c := if r.write then count b 0x31 { cls := r.cls } (s0Beats r) else b
  { c with sump := { c.sump with out := c.sump.out ++ [{ r with since := c.now }] } }

theorem s0Send_eq (b : Block) (r : S0Req) :
    ∃ o, s0Send b r = { b with obs := o, sump := { b.sump with out := b.sump.out ++ [{ r with since := b.now }] } } := by
  obtain ⟨o, h⟩ := ite_obs (p := r.write = true) (count_eq b 0x31 { cls := r.cls } (s0Beats r))
  exact ⟨o, by simp only [s0Send, h]⟩

theorem s0Send_read (b : Block) {r : S0Req} (hr : r.write = false) :
    s0Send b r = { b with sump := { b.sump with out := b.sump.out ++ [{ r with since := b.now }] } } := by
  simp only [s0Send, hr, Bool.false_eq_true, if_false]

theorem s0Free_of {b : Block} {r : S0Req} (hsince : r.since ≤ b.now) (hreset : b.bring.inReset = false) (hdrain : b.recov.draining = none)
    (hon : b.power.inst = .on) (hout : b.sump.out.length < maxOut b) (hroom : r.write = true ∨ s0Reserved b + r.len + 1 ≤ 262144) :
    s0Free b r = true := by
  simpa [s0Free, hsince, hreset, hdrain, hon, hout] using hroom

section
variable {b : Block} {r : S0Req} {rest : List S0Req} (hq : b.sump.queue = r :: rest)
include hq

theorem s0Transfer_blocked (hfree : s0Free b r = false) : s0Transfer b = b := by
  simp only [s0Transfer, hq, hfree, if_true]

variable (hfree : s0Free b r = true)
include hfree

/-- Where S0 is free, the head leaves the queue: a data request whose transaction stands is answered at its FILL mark (R284) or sent, a write
moving the mark (R285), and the block's own request is sent. -/
theorem s0Transfer_free : s0Transfer b =
    match r.who with
    | .data u =>
      match txnOf b u with
      | none => s0Unqueue b rest
      | some x =>
        if beyondFill b x then answerInvalid (s0Unqueue b rest) x (b.now + 5)
        else if r.write then s0Send (moveFill (s0Unqueue b rest) x) r else s0Send (s0Unqueue b rest) r
    | _ => s0Send (s0Unqueue b rest) r := by
  rw [s0Transfer, hq]
  exact if_neg (by simp [hfree])

theorem s0Transfer_own (hwho : ∀ u, r.who ≠ .data u) : s0Transfer b = s0Send (s0Unqueue b rest) r := by
  rw [s0Transfer_free hq hfree]
  split
  · next u hu => exact absurd hu (hwho u)
  · rfl

variable {u : Nat} (hwho : r.who = .data u)
include hwho

theorem s0Transfer_gone (hx : txnOf b u = none) : s0Transfer b = s0Unqueue b rest := by
  simp only [s0Transfer_free hq hfree, hwho, hx]

variable {x : Txn} (hx : txnOf b u = some x)
include hx

theorem s0Transfer_beyond (hfill : beyondFill b x = true) : s0Transfer b = answerInvalid (s0Unqueue b rest) x (b.now + 5) := by
  simp only [s0Transfer_free hq hfree, hwho, hx, hfill, if_true]

theorem s0Transfer_read (hfill : beyondFill b x = false) (hr : r.write = false) : s0Transfer b = s0Send (s0Unqueue b rest) r := by
  simp only [s0Transfer_free hq hfree, hwho, hx, hfill, hr, Bool.false_eq_true, if_false]

theorem s0Transfer_write (hfill : beyondFill b x = false) (hw : r.write = true) :
    s0Transfer b = s0Send (moveFill (s0Unqueue b rest) x) r := by
  simp only [s0Transfer_free hq hfree, hwho, hx, hfill, hw, Bool.false_eq_true, if_false, if_true]

end

/-! The FILL mark (R285). -/

/-- The write covers the mark of its invalidated seam, with every byte from there on enabled. -/
def CoversFill (b : Block) (x : Txn) : Prop :=
  let q := seamOf b (x.seam.getD 0)
  q.sumpInvalid = true ∧ reqLo x ≤ q.fill ∧ q.fill ≤ reqHi x ∧ ∀ k, q.fill ≤ k → k ≤ reqHi x → byteEnabled x k = true

/-- A scan of the bytes from `lo` on checks each of them to `hi`. -/
theorem range_all_iff (p : Nat → Bool) (lo hi : Nat) :
    (List.range (hi + 1 - lo)).all (fun k => p (lo + k)) = true ↔ ∀ k, lo ≤ k → k ≤ hi → p k = true := by
  rw [List.all_eq_true]
  constructor
  · intro h k hlo hhi
    have hk := h (k - lo) (List.mem_range.2 (by omega))
    rwa [Nat.add_sub_cancel' hlo] at hk
  · intro h k hk
    have hlt := List.mem_range.1 hk
    exact h (lo + k) (by omega) (by omega)

/-- The seam once its mark stands behind byte `hi`: valid where that is its end. -/
def fillMoved (q : Seam) (hi : Nat) : Seam := { q with fill := hi + 1, sumpInvalid := decide (hi + 1 < seamHi q) }

theorem moveFill_covers {b : Block} {x : Txn} (h : CoversFill b x) : moveFill b x = setSeam b (x.seam.getD 0) (fillMoved · (reqHi x)) := by
  simp only [moveFill, range_all_iff]
  exact if_pos h

theorem moveFill_short {b : Block} {x : Txn} (h : ¬ CoversFill b x) : moveFill b x = b := by
  simp only [moveFill, range_all_iff]
  exact if_neg h

/-- A write changes the seams alone, and of them its own where it covers the mark. -/
theorem moveFill_spec (b : Block) (x : Txn) : ∃ l, moveFill b x = { b with seams := l }
    ∧ (CoversFill b x → ∀ m, tget Seam.init l m =
        if m = x.seam.getD 0 then fillMoved (seamOf b (x.seam.getD 0)) (reqHi x) else seamOf b m)
    ∧ (¬ CoversFill b x → l = b.seams) := by
  by_cases h : CoversFill b x
  · refine ⟨_, moveFill_covers h, fun _ m => ?_, fun hn => absurd h hn⟩
    rw [tget_tmod]
    simp only [eq_comm (a := m)]
    rfl
  · exact ⟨b.seams, moveFill_short h, fun hc => absurd hc h, fun _ => rfl⟩

/-- Settles O33: the request at the head stays where S0 is not free; where it is, the block's own request is sent, and a data request is
answered at its FILL mark or sent, a write moving the mark (`s0Transfer_free`, `moveFill_spec`). -/
theorem s0RequestTransfers : Obligations.S0RequestTransfers := by
  intro s r rest hq b out
  refine ⟨fun hsince hreset hdrain hon hout hroom => ?_, fun hblocked => congrArg (done s) (s0Transfer_blocked hq hblocked)⟩
  have hfree : s0Free b r = true := s0Free_of hsince hreset hdrain hon hout hroom
  refine ⟨fun hwho => ?_, fun u x hwho hx hfill hr => ?_, fun u x hwho hx hfill hw => ?_, fun u x hwho hx hfill => ?_,
    fun u hwho hx => congrArg (done s) (s0Transfer_gone hq hfree hwho hx)⟩
  · obtain ⟨o, hsend⟩ := s0Send_eq (s0Unqueue b rest) r
    exact ⟨o, congrArg (done s) ((s0Transfer_own hq hfree hwho).trans hsend)⟩
  · exact congrArg (done s) ((s0Transfer_read hq hfree hwho hx hfill hr).trans (s0Send_read _ hr))
  · intro n q moves
    obtain ⟨l, hmove, hcovers, hshort⟩ := moveFill_spec (s0Unqueue b rest) x
    obtain ⟨o, hsend⟩ := s0Send_eq (moveFill (s0Unqueue b rest) x) r
    rw [hmove] at hsend
    refine ⟨o, l, congrArg (done s) ((s0Transfer_write hq hfree hwho hx hfill hw).trans ?_), hcovers, hshort⟩
    rw [hmove]
    exact hsend
  · exact congrArg (done s) (s0Transfer_beyond hq hfree hwho hx hfill)

end Sys2Proof.Machine
end

section
/-! PROOFS. The responses of S0 (R276, R277): one equation for each, by whether a request on S0 awaits it. -/

namespace Sys2Proof.Machine

theorem staleShift_count (b : Block) (ev : Nat) (t : Tap) (n ctx : Nat) (sh : BitVec 8) :
    staleShift (count b ev t n) ctx sh = staleShift b ctx sh := by
  simp only [staleShift, ctxOf_count]

/-- A read beat in its place with status OKAY, of a context that stands (R277): it is counted, its lines come back, and the read stays on
S0 until its last beat. -/
theorem takeS0Beat_okay {b : Block} {r : S0Req} {t : S0Beat} {u : Nat} (hwho : r.who = .data u) (hstale : staleShift b r.ctx r.shift = false)
    (hmore : r.beats < s0Beats r) (hlast : t.last = true ↔ r.beats + 1 = s0Beats r) (hst : t.status = 0) :
    let c := setTxn (count b 0x30 { cls := r.cls } 1) u
      (fun x => { x with results := x.results ++ beatLines x r.beats t.data t.pmask .okay (b.now + 5) })
    takeS0Beat b r t = if t.last then endS0 c r else setS0 c r { r with beats := r.beats + 1 } := by
  have hwrong : (t.last != decide (r.beats + 1 = s0Beats r)) = false := by simp [← hlast]
  have hmiss : ¬ s0Beats r ≤ r.beats := Nat.not_le.2 hmore
  have herr : (Status.okay == Status.sumpErr) = false := rfl
  simp [takeS0Beat, hwrong, hst, hwho, hmiss, staleShift_count, hstale, herr, s0Legal, s0Status]

theorem s0ReadBeat_awaited {b : Block} {r : S0Req} {t : S0Beat} (h : b.sump.out.find? (fun r => !r.write && r.id == t.id) = some r) :
    s0ReadBeat b t = takeS0Beat b r t := by
  simp only [s0ReadBeat, h]

theorem s0ReadBeat_unawaited {b : Block} {t : S0Beat} (h : b.sump.out.find? (fun r => !r.write && r.id == t.id) = none)
    (hreset : b.bring.inReset = false) : s0ReadBeat b t = s0Fault b (if b.sump.stale.contains t.id then 4 else 2) t.id := by
  simp only [s0ReadBeat, h, s0Unknown, hreset, Bool.false_eq_true, if_false]

theorem s0Status_okay_or_poison {st : BitVec 4} (h : st = 0 ∨ st = 1) :
    s0Legal st = true ∧ s0Status st = (if st = 0 then .okay else .poison) ∧ s0Status st ≠ .sumpErr := by
  obtain rfl | rfl := h <;> decide

/-- The status of a write response is its request's answer, where it is OKAY or POISON and the context stands. -/
theorem s0WriteResp_awaited {b : Block} {r : S0Req} {id : BitVec 8} {st : BitVec 4} {u : Nat}
    (h : b.sump.out.find? (fun r => r.write && r.id == id && (match r.who with | .data _ => true | _ => false)) = some r)
    (hwho : r.who = .data u) (hstale : staleShift b r.ctx r.shift = false) (hst : st = 0 ∨ st = 1) :
    s0WriteResp b id st = answer (endS0 b r) u (if st = 0 then .okay else .poison) (b.now + 5) := by
  have hstale' : staleShift (endS0 b r) r.ctx r.shift = false := hstale
  unfold s0WriteResp
  split
  · next hnone => exact absurd (h.symm.trans hnone) (by simp)
  · next r' hr' =>
    obtain rfl : r = r' := Option.some.inj (h.symm.trans hr')
    obtain ⟨hlegal, hstatus, hnoerr⟩ := s0Status_okay_or_poison hst
    rw [hstatus] at hnoerr
    simp only [hlegal, if_true, hnoerr, if_false, hstale', Bool.false_eq_true, hwho, hstatus]
    rfl

/-- Settles O34: a beat or a write response goes to the oldest request on S0 that awaits it (`takeS0Beat_okay`, `s0WriteResp_awaited`), and a
beat that none awaits is the fault of `s0ReadBeat_unawaited`. -/
theorem s0ResponsesReturn : Obligations.S0ResponsesReturn := by
  intro s r u hwho hstale
  refine ⟨fun t hfind hmore hlast hst => ?_, fun id st hfind hst => congrArg (done s) (s0WriteResp_awaited hfind hwho hstale hst),
    fun t hfind hreset => congrArg (done s) (s0ReadBeat_unawaited hfind hreset)⟩
  have hbeat := (s0ReadBeat_awaited hfind).trans (takeS0Beat_okay hwho hstale hmore hlast hst)
  obtain ⟨o, hcount⟩ := count_eq s.blk 0x30 { cls := r.cls } 1
  rw [hcount] at hbeat
  refine ⟨_, congrArg (done s) hbeat, ?_⟩
  split <;> exact ⟨rfl, rfl, rfl⟩

end Sys2Proof.Machine
end

section
/-! PROOFS. What the work of the causeway changes of a block (R290 to R308): one link alone, or the queues of its messages. -/

namespace Sys2Proof.Machine

/-! One link. -/

/-- Of what `view` shows of the block, `c` differs from `b` in link `n` alone, which is `l`. -/
structure LinkOnly (view : Block → Block) (b c : Block) (n : Nat) (l : Link) : Prop where
  own : linkOf c n = l
  others : ∀ k, k ≠ n → linkOf c k = linkOf b k
  frame : view { c with cw := { c.cw with links := b.cw.links } } = view b

/-- A block under other observation state: what counts and trace records leave alone. -/
def obsAs (o : Observe) (b : Block) : Block := { b with obs := o }

section
variable {view : Block → Block} {b c : Block} {n : Nat} {l : Link}

theorem LinkOnly.refl (view : Block → Block) (b : Block) (n : Nat) : LinkOnly view b b n (linkOf b n) := ⟨rfl, fun _ _ => rfl, rfl⟩

theorem LinkOnly.setLink (h : LinkOnly view b c n l) (f : Link → Link) : LinkOnly view b (setLink c n f) n (f l) :=
  ⟨by rw [linkOf_setLink_self, h.own], fun k hk => by rw [linkOf_setLink_ne c f hk.symm, h.others k hk], h.frame⟩

theorem LinkOnly.emit (h : LinkOnly Block.quiet b c n l) (ty : Nat) (ch : Option Nat) (x : Option (Nat × BitVec 8)) (p q r w : Word) :
    LinkOnly Block.quiet b (emit c ty ch x p q r w) n l := by
  obtain ⟨_, _, _, he⟩ := emit_eq c ty ch x p q r w
  rw [he]
  exact ⟨h.own, h.others, h.frame⟩

theorem LinkOnly.count {o : Observe} (h : LinkOnly (obsAs o) b c n l) (ev : Nat) (t : Tap) (k : Nat) :
    LinkOnly (obsAs o) b (count c ev t k) n l := by
  obtain ⟨_, hc⟩ := count_eq c ev t k
  rw [hc]
  exact ⟨h.own, h.others, h.frame⟩

/-- What looks neither at the links nor at what `view` hides is kept. -/
theorem LinkOnly.keeps {α : Type} (h : LinkOnly view b c n l) (f : Block → α)
    (hf : ∀ (d : Block) (t : Tbl Link), f (view { d with cw := { d.cw with links := t } }) = f d := by intros; rfl) : f c = f b :=
  (hf c b.cw.links).symm.trans ((congrArg f h.frame).trans (hf b b.cw.links))

/-- A port enters a state: the link has it from now on, and there is a record (R294). -/
theorem LinkOnly.enterLink (h : LinkOnly Block.quiet b c n l) (st : LState) :
    LinkOnly Block.quiet b (enterLink c n st) n { l with state := st, downUs := usNow c } :=
  (h.setLink fun l => { l with state := st, downUs := usNow c }).emit ..

/-- A row of a peer port of the build does its work on the block while the causeway works. -/
theorem linkRow_eq {s : State} {c : Block} {f : Block → Block} (hok : peerOk s.blk n = true) (hlive : cwLive s.blk = true)
    (h : f s.blk = c) : guarded (peerOk s.blk n) s (onLink s.blk f) = .next { s with blk := c } :=
  guarded_eq_next hok ((if_pos hlive).trans h)

end

/-! The queues of the messages. -/

/-- What a link does with its flits and with the messages that have come, without those that it has to send. -/
def Link.unsent (l : Link) : Link := { l with tx := [], beaconed := false, imaged := false }

/-- The block without the messages that wait to be sent, the options in use, and what records and counts change. -/
def Block.unsent (b : Block) : Block :=
  { b with
    cw := { b.cw with links := [], hopDropped := 0, held := [], local_ := [], inUse := [], usePort := [], changing := [] }
    ev := Events.init, rlog := RLog.init, obs := Observe.init }

/-- From `b` to `c` messages are queued, wait for a route or are discarded, with their records and counts; nothing else changes. -/
structure Sends (b c : Block) : Prop where
  link : ∀ k, (linkOf c k).unsent = (linkOf b k).unsent
  frame : c.unsent = b.unsent

theorem Sends.refl (b : Block) : Sends b b := ⟨fun _ => rfl, rfl⟩

theorem Sends.trans {b c d : Block} (hbc : Sends b c) (hcd : Sends c d) : Sends b d :=
  ⟨fun k => (hcd.link k).trans (hbc.link k), hcd.frame.trans hbc.frame⟩

theorem Sends.foldl {α : Type} {f : Block → α → Block} (h : ∀ b x, Sends b (f b x)) (l : List α) (b : Block) : Sends b (l.foldl f b) :=
  foldl_inv (fun c => Sends b c) f (fun c x hc => hc.trans (h c x)) l b (.refl b)

section
variable {b c : Block} (h : Sends b c)
include h

/-- What does not look at the messages is kept. -/
theorem Sends.keeps {α : Type} (f : Block → α) (hf : ∀ d : Block, f d.unsent = f d := by intro; rfl) : f c = f b :=
  (hf c).symm.trans ((congrArg f h.frame).trans (hf b))

theorem Sends.keepsLink {α : Type} (k : Nat) (f : Link → α) (hf : ∀ l : Link, f l.unsent = f l := by intro; rfl) :
    f (linkOf c k) = f (linkOf b k) :=
  (hf _).symm.trans ((congrArg f (h.link k)).trans (hf _))

end

theorem sends_emit (b : Block) (ty : Nat) (ch : Option Nat) (c : Option (Nat × BitVec 8)) (x y z w : Word) :
    Sends b (emit b ty ch c x y z w) := by
  obtain ⟨_, _, _, h⟩ := emit_eq b ty ch c x y z w
  rw [h]
  exact ⟨fun _ => rfl, rfl⟩

theorem sends_count (b : Block) (e : Nat) (t : Tap) (n : Nat) : Sends b (count b e t n) := by
  obtain ⟨_, h⟩ := count_eq b e t n
  rw [h]
  exact ⟨fun _ => rfl, rfl⟩

/-- A link that changes in what it has to send alone. -/
theorem sends_setLink (b : Block) (n : Nat) {f : Link → Link} (h : ∀ l, (f l).unsent = l.unsent := by intro; rfl) :
    Sends b (setLink b n f) := by
  refine ⟨fun k => ?_, rfl⟩
  by_cases hk : n = k
  · subst hk
    rw [linkOf_setLink_self, h]
  · rw [linkOf_setLink_ne b f hk]

theorem sendTo_sends (b : Block) (n : Nat) (m : Msg) : Sends b (sendTo b n m) := by
  have hqueue (c : Block) (m : Msg) : Sends c (queueTo c n m) := sends_setLink c n
  unfold sendTo
  split
  · exact ⟨fun _ => rfl, rfl⟩
  · dsimp only
    split
    · exact (sends_count b ..).trans (hqueue _ _)
    · exact hqueue _ _

theorem sendRouted_sends (b : Block) (d p : Nat) (m : Msg) : Sends b (sendRouted b d p m) := by
  unfold sendRouted
  split
  · exact ⟨fun _ => rfl, rfl⟩
  · exact sendTo_sends b p m

theorem routeMsg_sends (b : Block) (m : Msg) : Sends b (routeMsg b m).1 := by
  unfold routeMsg
  split
  · exact sendRouted_sends ..
  · exact .refl b

theorem routeCtl_sends (b : Block) (m : Msg) : Sends b (routeCtl b m) := by
  unfold routeCtl
  split
  · exact ⟨fun _ => rfl, rfl⟩
  · exact routeMsg_sends b m

theorem flood_sends (b : Block) (skip : Option Nat) (m : Msg) : Sends b (flood b skip m) := .foldl (fun c n => sendTo_sends c n m) _ b

theorem towardPithead_sends (b : Block) (m : Msg) : Sends b (towardPithead b m) := by
  unfold towardPithead
  split
  · exact routeCtl_sends b m
  · split
    · split
      · exact sendTo_sends ..
      · exact .refl b
    · exact .refl b

/-- A destination that takes another port moves its messages there, or has them wait (R307). -/
theorem refreshRoute_sends (b : Block) (d : Nat) : Sends b (refreshRoute b d) := by
  unfold refreshRoute
  split
  · exact .refl b
  · extract_lets old w used
    have hused : Sends b used := ⟨fun _ => rfl, rfl⟩
    split
    · exact hused
    · rename_i l moved cut w waits hmoves
      have hcut : Sends used cut := sends_setLink _ _
      have hwaits : Sends cut waits := by
        unfold waits
        split
        · exact ⟨fun _ => rfl, rfl⟩
        · exact .refl cut
      exact ((hused.trans hcut).trans hwaits).trans (.foldl (fun c m => sendRouted_sends c d _ _) _ _)

theorem refreshRoutes_sends (b : Block) : Sends b (refreshRoutes b) := .foldl refreshRoute_sends _ b

/-- The pithead's messages on a port that goes into service (R315, R316). -/
theorem feedPort_sends (b : Block) (n : Nat) : Sends b (feedPort b n) := by
  unfold feedPort
  extract_lets l c
  have hbeacon : Sends b c := by
    unfold c
    split
    · exact .refl b
    · refine Sends.trans ?_ (sendTo_sends ..)
      exact sends_setLink ..
  split
  · exact hbeacon
  · refine (hbeacon.trans ?_).trans (.foldl (fun c m => sendTo_sends c n m) _ _)
    exact sends_setLink ..

/-- What an instance sends on a port that goes into service (R315 to R317). -/
theorem onActive_sends (b : Block) (n : Nat) : Sends b (onActive b n) := by
  unfold onActive
  repeat' split
  all_goals first | exact .refl b | exact feedPort_sends b n | exact sendTo_sends ..

/-! A link that goes into service, and one that is lost. -/

/-- A link as it goes into service (R292). -/
def Link.serving (us : Nat) (l : Link) : Link := { l with state := .active, downUs := us, retr := false, attempts := 0 }

theorem tryActive_waits {b : Block} {n : Nat} (h : (linkOf b n).helloSent = false ∨ (linkOf b n).helloGot = false) : tryActive b n = b := by
  refine if_neg fun ⟨_, hsent, hgot⟩ => ?_
  obtain h | h := h
  · exact absurd (h.symm.trans hsent) Bool.false_ne_true
  · exact absurd (h.symm.trans hgot) Bool.false_ne_true

/-- HELLO sent and received: the link goes into service, the routes look again, and the boot's messages go out on it. -/
theorem tryActive_sends {b : Block} {n : Nat} (hstate : (linkOf b n).state = .hello) (hsent : (linkOf b n).helloSent = true)
    (hgot : (linkOf b n).helloGot = true) : Sends (setLink b n (Link.serving (usNow b))) (tryActive b n) := by
  have hroutes (ty : Nat) : Sends (setLink b n (Link.serving (usNow b))) (refreshRoutes (linkRecord (setLink b n (Link.serving (usNow b))) ty n)) :=
    (sends_emit ..).trans (refreshRoutes_sends _)
  unfold tryActive
  rw [if_pos ⟨hstate, hsent, hgot⟩]
  dsimp only
  split
  · exact hroutes _
  · exact (hroutes _).trans (onActive_sends _ n)

/-- A link as it enters DOWN, HELD or DISABLED: its flits are lost, and its messages leave it (R308). -/
def Link.lost (us : Nat) (st : LState) (l : Link) : Link :=
  { l with
    state := st, downUs := us, attempts := 0, retr := false, lostFlits := satAdd 65535 l.lostFlits l.replay.length
    width := if st = .held then l.width else 0
    replay := [], sentAt := [], replayPos := none, replayTries := 0, nakDue := false, nakSent := false, carried := [], txRest := none, tx := []
    partialKind := none, partialChunks := [], helloSent := false, helloGot := false, owed := (0, 0, 0) }

theorem loseLink_sends (b : Block) (n : Nat) (st : LState) : Sends (setLink b n (Link.lost (usNow b) st)) (loseLink b n st) :=
  ((sends_emit ..).trans (refreshRoutes_sends _)).trans (.foldl (fun c _ => routeMsg_sends c _) _ _)

/-- A link that is lost (R293, R308): its state, its flits that are counted as lost, and what the block keeps. -/
theorem loseLink_spec (b : Block) (n : Nat) (st : LState) :
    (linkOf (loseLink b n st) n).state = st ∧ (linkOf (loseLink b n st) n).replay = []
      ∧ (linkOf (loseLink b n st) n).lostFlits = min 65535 ((linkOf b n).lostFlits + (linkOf b n).replay.length)
      ∧ (loseLink b n st).txns = b.txns ∧ (loseLink b n st).chans = b.chans := by
  have h := loseLink_sends b n st
  have hown : linkOf (setLink b n (Link.lost (usNow b) st)) n = Link.lost (usNow b) st (linkOf b n) := linkOf_setLink_self ..
  exact ⟨(h.keepsLink n Link.state).trans (by rw [hown]; rfl), (h.keepsLink n Link.replay).trans (by rw [hown]; rfl),
    (h.keepsLink n Link.lostFlits).trans (by rw [hown]; rfl), h.keeps Block.txns, h.keeps Block.chans⟩

end Sys2Proof.Machine
end

section
/-! PROOFS. The states of a peer link (R290 to R294): training, retraining and HELLO. -/

namespace Sys2Proof.Machine

section
variable {b : Block} {n : Nat}

/-! Training (R291). -/

theorem startTraining_spec (b : Block) (n : Nat) :
    LinkOnly Block.quiet b (startTraining b n) n { linkOf b n with state := .training, downUs := usNow b, attempts := 1 } :=
  ((LinkOnly.refl _ b n).enterLink .training).setLink fun l => { l with attempts := 1 }

theorem linkRetry_due (hstate : (linkOf b n).state = .down) (hsecs : fld b.cw.ctl 16 16 ≠ 0)
    (hdue : usDue b (linkOf b n).downUs (fld b.cw.ctl 16 16 * 1000000) = true) : linkRetry b n = startTraining b n :=
  if_pos ⟨hstate, .inr ⟨hsecs, hdue⟩⟩

theorem nextAttempt_more (h : (linkOf b n).attempts < 4) :
    nextAttempt b n = setLink b n (fun l => { l with attempts := l.attempts + 1, downUs := usNow b }) := if_pos h

theorem nextAttempt_last (h : 4 ≤ (linkOf b n).attempts) : nextAttempt b n = loseLink b n .down := if_neg (Nat.not_lt.2 h)

theorem trainingTimeout_due (hstate : (linkOf b n).state = .training) (hdue : usDue b (linkOf b n).downUs 5000 = true) :
    trainingTimeout b n = nextAttempt b n := if_pos ⟨hstate, hdue⟩

theorem trainingTimeout_early (h : (linkOf b n).state ≠ .training ∨ usDue b (linkOf b n).downUs 5000 = false) : trainingTimeout b n = b := by
  refine if_neg fun ⟨hstate, hdue⟩ => ?_
  obtain h | h := h
  · exact h hstate
  · exact Bool.false_ne_true (h.symm.trans hdue)

/-- HELLO is exchanged next, with fresh sequence numbers and full credits (R291, R292). -/
theorem trainingDone_trained {t : Trained} (hstate : (linkOf b n).state = .training) (hok : t.ok = true)
    (hw : commonWidth (t.failed ||| fusedLanes b n) t.partner ≠ 0) :
    trainingDone b n t = trained b n (t.failed ||| fusedLanes b n) (commonWidth (t.failed ||| fusedLanes b n) t.partner) := by
  simp [trainingDone, hstate, hok, hw]

theorem trained_spec (b : Block) (n : Nat) (failed : BitVec 64) (width : Nat) :
    LinkOnly Block.quiet b (trained b n failed width) n { linkOf b n with
      state := .hello, downUs := usNow b, width := width, failed := failed
      retr := false, helloSent := false, helloGot := false, partnerValid := false, seqNext := 0, seqExp := 0, nakDue := false
      nakSent := false, replay := [], sentAt := [], replayPos := none, replayTries := 0, skip := false, beaconed := false
      imaged := false, carried := [], txRest := none, partialKind := none, partialChunks := [], credit := (1024, 2048, 64)
      owed := (0, 0, 0) } :=
  ((LinkOnly.refl _ b n).setLink _).enterLink .hello

/-- A training that fails makes one more attempt, and the lanes found bad stay known. -/
theorem trainingDone_retries {t : Trained} (hstate : (linkOf b n).state = .training)
    (h : t.ok = false ∨ commonWidth (t.failed ||| fusedLanes b n) t.partner = 0) (hmore : (linkOf b n).attempts < 4) :
    LinkOnly id b (trainingDone b n t) n { linkOf b n with
      failed := t.failed ||| fusedLanes b n, attempts := (linkOf b n).attempts + 1, downUs := usNow b } := by
  have hfails : trainingDone b n t = nextAttempt (setLink b n (fun l => { l with failed := t.failed ||| fusedLanes b n })) n := by
    obtain h | h := h <;> simp [trainingDone, hstate, h]
  rw [hfails, nextAttempt_more (by simpa using hmore)]
  exact ((LinkOnly.refl id b n).setLink _).setLink _

/-! Retraining (R293). -/

theorem startRetrain_active (h : (linkOf b n).state = .active) :
    LinkOnly Block.quiet b (startRetrain b n) n { linkOf b n with
      state := .retraining, downUs := usNow b, retrains := min 65535 ((linkOf b n).retrains + 1), retr := true
      oldWidth := (linkOf b n).width } := by
  have hrun : startRetrain b n = enterLink (setLink b n (fun l =>
      { l with retrains := satAdd 65535 l.retrains 1, retr := true, oldWidth := l.width })) n .retraining := by
    simp [startRetrain, h]
  rw [hrun]
  exact ((LinkOnly.refl _ b n).setLink _).enterLink .retraining

/-- A link that was retraining keeps its mark and its old width, one that was training has none. -/
theorem startRetrain_hello (h : (linkOf b n).state = .hello) :
    LinkOnly Block.quiet b (startRetrain b n) n { linkOf b n with
      state := .retraining, downUs := usNow b, retrains := min 65535 ((linkOf b n).retrains + 1) } := by
  have hrun : startRetrain b n = enterLink (setLink b n (fun l => { l with retrains := satAdd 65535 l.retrains 1 })) n .retraining := by
    have hnew : (LState.hello == LState.active) = false := rfl
    simp [startRetrain, h, hnew]
  rw [hrun]
  exact ((LinkOnly.refl _ b n).setLink _).enterLink .retraining

theorem retrainEnd_trained {t : Trained} (hstate : (linkOf b n).state = .retraining) (hok : t.ok = true)
    (hw : commonWidth (t.failed ||| fusedLanes b n) t.partner ≠ 0) (hdue : usDue b (linkOf b n).downUs 100 = false) :
    LinkOnly Block.quiet b (retrainEnd b n t) n { linkOf b n with
      state := .hello, downUs := usNow b, width := commonWidth (t.failed ||| fusedLanes b n) t.partner
      failed := t.failed ||| fusedLanes b n, helloSent := false, helloGot := false, replayTries := 0
      replayPos := if (linkOf b n).replay.isEmpty then none else some 0 } := by
  have hrun : retrainEnd b n t = enterLink (setLink b n (fun l =>
      { l with
        failed := t.failed ||| fusedLanes b n, helloSent := false, helloGot := false, replayTries := 0
        replayPos := if l.replay.isEmpty then none else some 0, width := commonWidth (t.failed ||| fusedLanes b n) t.partner })) n .hello := by
    simp only [retrainEnd, hstate, hok, hw, hdue, ne_eq, not_true_eq_false, not_false_eq_true, and_self, if_true, if_false]
  rw [hrun]
  exact ((LinkOnly.refl _ b n).setLink _).enterLink .hello

/-- A retraining that fails loses the link, with its unacknowledged flits. -/
theorem retrainEnd_fails {t : Trained} (hstate : (linkOf b n).state = .retraining)
    (h : t.ok = false ∨ commonWidth (t.failed ||| fusedLanes b n) t.partner = 0 ∨ usDue b (linkOf b n).downUs 100 = true) :
    (linkOf (retrainEnd b n t) n).state = .down ∧ (linkOf (retrainEnd b n t) n).replay = []
      ∧ (linkOf (retrainEnd b n t) n).lostFlits = min 65535 ((linkOf b n).lostFlits + (linkOf b n).replay.length)
      ∧ (retrainEnd b n t).txns = b.txns ∧ (retrainEnd b n t).chans = b.chans := by
  have hrun : retrainEnd b n t = loseLink (setLink b n (fun l => { l with failed := t.failed ||| fusedLanes b n })) n .down := by
    obtain h | h | h := h <;> simp [retrainEnd, hstate, h]
  rw [hrun]
  obtain ⟨hdown, hreplay, hlost, htxns, hchans⟩ := loseLink_spec (setLink b n (fun l => { l with failed := t.failed ||| fusedLanes b n })) n .down
  rw [linkOf_setLink_self] at hlost
  exact ⟨hdown, hreplay, hlost, htxns, hchans⟩

/-! Violations (R321). -/

theorem flushViolations_spec (b : Block) (n : Nat) : ∃ ms, LinkOnly Block.quiet b (flushViolations b n) n { linkOf b n with chkMs := ms } := by
  unfold flushViolations
  split
  · split
    · exact ⟨(linkOf b n).chkMs, .refl _ b n⟩
    · exact ⟨none, ((LinkOnly.refl _ b n).setLink _).emit ..⟩
  · exact ⟨(linkOf b n).chkMs, .refl _ b n⟩

/-- A violation is counted by its code and enters the port's log; the record of a ms that has ended is written (R321, log 24). -/
theorem violate_spec (b : Block) (n code : Nat) (head : BitVec 32) (chunk seq : Nat) : ∃ log next wrap ms,
    LinkOnly Block.quiet b (violate b n code head chunk seq) n { linkOf b n with
      chk := tmod 0 (linkOf b n).chk code (fun v => satAdd cap48 v 1), log := log, logNext := next, logWrap := wrap, chkMs := ms } := by
  obtain ⟨_, h⟩ := flushViolations_spec b n
  exact ⟨_, _, _, _, h.setLink _⟩

/-! HELLO (R292). -/

/-- The port once the partner's HELLO has been taken from it, before it is judged. -/
def metPartner (b : Block) (n : Nat) (m : Msg) : Block :=
  setLink (takeMsg b (.peer n) m) n (fun l => { l with partner := m.src, partnerPort := fld m.hdr 21 2, partnerValid := true })

theorem metPartner_spec (b : Block) (n : Nat) (m : Msg) :
    LinkOnly id b (metPartner b n m) n { linkOf b n with
      rx := (linkOf b n).rx.erase m, owed := if isHello m then (linkOf b n).owed else addVc (linkOf b n).owed (vcOf m.kind) m.len
      partner := m.src, partnerPort := fld m.hdr 21 2, partnerValid := true } :=
  ((LinkOnly.refl id b n).setLink _).setLink _

theorem helloIn_none (h : showingCtl b (.peer n) 1 = none) : helloIn b n = b := by
  simp only [helloIn, h]

section
variable {m : Msg} (hm : showingCtl b (.peer n) 1 = some m) (hstate : (linkOf b n).state = .hello)
include hm hstate

theorem helloIn_accepts (hproto : fld m.hdr 24 8 = 3) (hsrc : m.src ≠ b.cw.instNum) (hnbr : expected b n = none) :
    helloIn b n = tryActive (setLink (metPartner b n m) n (fun l => { l with helloGot := true })) n := by
  have htook : (linkOf (takeMsg b (.peer n) m) n).state = .hello := (congrArg Link.state (linkOf_setLink_self ..)).trans hstate
  have hexp : expected (metPartner b n m) n = none := hnbr
  have hinst : m.src ≠ (metPartner b n m).cw.instNum := hsrc
  simp only [helloIn, hm, htook]
  exact if_pos ⟨hproto, hinst, by rw [← metPartner, hexp]⟩

/-- The partner's HELLO has come, the port's own has yet to go. -/
theorem helloIn_waits (hproto : fld m.hdr 24 8 = 3) (hsrc : m.src ≠ b.cw.instNum) (hnbr : expected b n = none)
    (hsent : (linkOf b n).helloSent = false) :
    LinkOnly id b (helloIn b n) n { linkOf b n with
      rx := (linkOf b n).rx.erase m, partner := m.src, partnerPort := fld m.hdr 21 2, partnerValid := true, helloGot := true
      owed := if isHello m then (linkOf b n).owed else addVc (linkOf b n).owed (vcOf m.kind) m.len } := by
  have h := (metPartner_spec b n m).setLink fun l => { l with helloGot := true }
  rw [helloIn_accepts hm hstate hproto hsrc hnbr, tryActive_waits (.inl (by rw [h.own]; exact hsent))]
  exact h

/-- HELLO has come and gone: the link is in service. -/
theorem helloIn_serves (hproto : fld m.hdr 24 8 = 3) (hsrc : m.src ≠ b.cw.instNum) (hnbr : expected b n = none)
    (hsent : (linkOf b n).helloSent = true) :
    (linkOf (helloIn b n) n).state = .active ∧ (linkOf (helloIn b n) n).partner = m.src
      ∧ (helloIn b n).txns = b.txns ∧ (helloIn b n).chans = b.chans := by
  have hmet := (metPartner_spec b n m).setLink fun l => { l with helloGot := true }
  rw [helloIn_accepts hm hstate hproto hsrc hnbr]
  have h := tryActive_sends (n := n) (by rw [hmet.own]; exact hstate) (by rw [hmet.own]; exact hsent) (by rw [hmet.own])
  exact ⟨(h.keepsLink n Link.state).trans (congrArg Link.state (linkOf_setLink_self ..)),
    (h.keepsLink n Link.partner).trans (by rw [linkOf_setLink_self, hmet.own]; rfl), (h.keeps Block.txns).trans (hmet.keeps Block.txns),
    (h.keeps Block.chans).trans (hmet.keeps Block.chans)⟩

/-- A HELLO of another protocol holds the port. -/
theorem helloIn_holds (hproto : fld m.hdr 24 8 ≠ 3) :
    (linkOf (helloIn b n) n).state = .held ∧ (helloIn b n).txns = b.txns ∧ (helloIn b n).chans = b.chans := by
  have htook : (linkOf (takeMsg b (.peer n) m) n).state = .hello := (congrArg Link.state (linkOf_setLink_self ..)).trans hstate
  have hrun : helloIn b n = loseLink (violateMsg (metPartner b n m) n 9 m) n .held := by
    simp only [helloIn, hm, htook]
    exact if_neg fun h => hproto h.1
  obtain ⟨_, _, _, _, hviol⟩ := violate_spec (metPartner b n m) n 9 (m.hdr.extractLsb' 0 32) m.chunk m.seq
  obtain ⟨hheld, -, -, htxns, hchans⟩ := loseLink_spec (violateMsg (metPartner b n m) n 9 m) n .held
  rw [hrun]
  exact ⟨hheld, htxns.trans (hviol.keeps Block.txns), hchans.trans (hviol.keeps Block.chans)⟩

end

end

/-- Settles O57: each clause is the lemma about its row; a link that is lost is `loseLink_spec`, one that goes into service
`tryActive_sends` (logs 25, 27, 91). -/
theorem linksChangeState : Obligations.LinksChangeState := by
  intro s n hok hlive b l only noted secs
  refine ⟨fun hdown => ?_, fun hup => ⟨?_, ?_⟩, fun hdown hsecs hdue => ?_, fun htrain hdue hmore => ?_, fun htrain hdue hlast _ => ?_,
    fun hearly => ?_, fun t htrain => ⟨fun hgood hw => ?_, fun hbad hmore => ?_⟩, fun t hother => ?_, fun hactive => ?_, fun hhello => ?_,
    fun hna hnh => ?_, fun t hretr hgood hw hdue => ?_, fun t hretr hbad _ => ?_, fun t hother => ?_, fun hnone => ?_,
    fun m hm hhello hproto hsrc hnbr => ⟨fun hunsent => ?_, fun hsent => ?_⟩, fun m hm hhello hproto _ => ?_⟩
  · obtain ⟨hown, hothers, hframe⟩ := startTraining_spec b n
    exact ⟨_, linkRow_eq hok hlive (if_pos hdown), hown, hothers, hframe⟩
  · exact linkRow_eq hok hlive (if_neg hup)
  · exact linkRow_eq hok hlive (if_neg fun h => hup h.1)
  · obtain ⟨hown, hothers, hframe⟩ := startTraining_spec b n
    exact ⟨_, linkRow_eq hok hlive (linkRetry_due hdown hsecs hdue), hown, hothers, hframe⟩
  · obtain ⟨hown, hothers, hframe⟩ := (LinkOnly.refl id b n).setLink fun l => { l with attempts := l.attempts + 1, downUs := usNow b }
    exact ⟨_, linkRow_eq hok hlive ((trainingTimeout_due htrain hdue).trans (nextAttempt_more hmore)), hown, hothers, hframe⟩
  · obtain ⟨hstate, -, -, htxns, hchans⟩ := loseLink_spec b n .down
    exact ⟨_, linkRow_eq hok hlive ((trainingTimeout_due htrain hdue).trans (nextAttempt_last hlast)), hstate, htxns, hchans⟩
  · exact linkRow_eq hok hlive (trainingTimeout_early hearly)
  · obtain ⟨hown, hothers, hframe⟩ := trained_spec b n (t.failed ||| fusedLanes b n) (commonWidth (t.failed ||| fusedLanes b n) t.partner)
    exact ⟨_, linkRow_eq hok hlive (trainingDone_trained htrain hgood hw), hown, hothers, hframe⟩
  · obtain ⟨hown, hothers, hframe⟩ := trainingDone_retries htrain hbad hmore
    exact ⟨_, linkRow_eq hok hlive rfl, hown, hothers, hframe⟩
  · exact linkRow_eq hok hlive (if_pos hother)
  · obtain ⟨hown, hothers, hframe⟩ := startRetrain_active hactive
    exact ⟨_, linkRow_eq hok hlive rfl, hown, hothers, hframe⟩
  · obtain ⟨hown, hothers, hframe⟩ := startRetrain_hello hhello
    exact ⟨_, linkRow_eq hok hlive rfl, hown, hothers, hframe⟩
  · exact linkRow_eq hok hlive (if_neg (not_or.2 ⟨hna, hnh⟩))
  · obtain ⟨hown, hothers, hframe⟩ := retrainEnd_trained hretr hgood hw hdue
    exact ⟨_, linkRow_eq hok hlive rfl, hown, hothers, hframe⟩
  · exact ⟨_, linkRow_eq hok hlive rfl, retrainEnd_fails hretr hbad⟩
  · exact linkRow_eq hok hlive (if_pos hother)
  · exact guarded_eq_next hok (helloIn_none hnone)
  · obtain ⟨hown, hothers, hframe⟩ := helloIn_waits hm hhello hproto hsrc hnbr hunsent
    exact ⟨_, guarded_eq_next hok rfl, hown, hothers, hframe⟩
  · exact ⟨_, guarded_eq_next hok rfl, helloIn_serves hm hhello hproto hsrc hnbr hsent⟩
  · obtain ⟨hstate, htxns, hchans⟩ := helloIn_holds hm hhello hproto
    exact ⟨_, guarded_eq_next hok rfl, hstate, htxns, hchans⟩

end Sys2Proof.Machine
end

section
/-! PROOFS. The flits that a port receives (R295 to R299, R321): violations, acknowledgements, credits and the messages in them. -/

namespace Sys2Proof.Machine

/-- The port exchanges flits (R295). -/
def flitsRun (l : Link) : Prop := l.state = .active ∨ l.state = .hello

/-- The flit is sound, and acknowledges nothing new (R296, R297). -/
def plainFlit (l : Link) (f : Flit) : Prop := f.crc = flitCrc f.ctl f.body ∧ f.ctl >>> 91 = 0 ∧ flitAck f = ackedSeq l

section
variable {b : Block} {n : Nat} {f : Flit}

/-! Flits by their kind. -/

theorem flitIn_stopped (h : ¬ flitsRun (linkOf b n)) : flitIn b n f = b :=
  if_pos ⟨fun hh => h (.inr hh), fun ha => h (.inl ha)⟩

theorem flitIn_badCrc (hrun : flitsRun (linkOf b n)) (hcrc : f.crc ≠ flitCrc f.ctl f.body) :
    flitIn b n f = setLink (violate b n 1 (f.ctl.extractLsb' 0 32) 0 (flitSeq f)) n
      (fun l => { l with crcErr := satAdd 65535 l.crcErr 1, nakDue := true, nakSent := true }) :=
  (if_neg fun h => hrun.elim h.2 h.1).trans (if_pos hcrc)

/-- A sound flit of a known kind is counted, and taken by its kind and its SEQ. -/
theorem flitIn_sound (hrun : flitsRun (linkOf b n)) (hplain : plainFlit (linkOf b n) f) (hkind : flitKind f ≠ 3) :
    flitIn b n f =
      (let c := peerTap b 0x39 n
       if flitKind f = 1 ∧ flitSeq f ≠ (linkOf b n).seqExp then
         setLink (violate c n 2 (f.ctl.extractLsb' 0 32) 0 (flitSeq f)) n
           (fun l => { l with nakDue := l.nakDue || !l.nakSent, nakSent := true })
       else if flitKind f = 2 then startReplay (takeCredits c n f) n
       else if flitKind f = 0 then takeCredits c n f
       else chunksIn (setLink (takeCredits c n f) n (fun l => { l with seqExp := (l.seqExp + 1) % 4096, nakSent := false })) n f) := by
  obtain ⟨hcrc, hctl, hack⟩ := hplain
  have hnack : takeAck (peerTap b 0x39 n) n f = peerTap b 0x39 n := if_pos (by rw [hack, peerTap, linkOf_count])
  refine (if_neg fun h => hrun.elim h.2 h.1).trans ((if_neg (not_not.2 hcrc)).trans ?_)
  simp only [if_pos hctl, if_neg hkind, hnack]

theorem nakIn_other (h : flitKind f ≠ 2) : nakIn b n f = b := if_neg h

/-! Replays (R299). -/

theorem startReplay_spec (hreplay : (linkOf b n).replay ≠ []) (htries : (linkOf b n).replayTries < 4) :
    startReplay b n = setLink b n (fun l => { l with
      replayPos := some 0, replayTries := l.replayTries + 1, replays := satAdd 65535 l.replays 1 }) :=
  (if_neg (by simpa using hreplay)).trans (if_neg (Nat.not_le.2 htries))

theorem replayTimeout_due (hrun : flitsRun (linkOf b n)) (hreplay : (linkOf b n).replay ≠ []) (hpos : (linkOf b n).replayPos = none)
    (hdue : usDue b (usAt b ((linkOf b n).sentAt.headD 0)) 1 = true) : replayTimeout b n = startReplay b n :=
  if_pos ⟨hrun, by simpa using hreplay, by rw [hpos]; rfl, hdue⟩

theorem replayTimeout_early (h : (linkOf b n).replay = [] ∨ usDue b (usAt b ((linkOf b n).sentAt.headD 0)) 1 = false) :
    replayTimeout b n = b := by
  refine if_neg fun ⟨_, hsome, _, hdue⟩ => ?_
  obtain h | h := h
  · rw [h] at hsome
    exact absurd hsome (by simp)
  · exact Bool.false_ne_true (h.symm.trans hdue)

/-! The chunks of a DATA flit (R296, R300). -/

theorem chunkIn_empty {k : Nat} (hnone : (linkOf b n).partialKind = none) (hmap : flitMap f k = 0) (hchunk : flitChunk f k = 0) :
    chunkIn n f b k = b := by
  simp [chunkIn, hnone, hmap, hchunk, kindOfMap]

/-- A message of one chunk is complete with its header. -/
theorem chunkIn_whole {kd : MKind} {k : Nat} (hk : 1 ≤ k) (hnone : (linkOf b n).partialKind = none) (hmap : kindOfMap (flitMap f k) = some kd)
    (hlen : (msgOf kd [flitChunk f k]).len = 1) :
    chunkIn n f b k = messageIn (setLink b n (fun l => { l with partialKind := none, partialChunks := [], skip := false })) n f
      { msgOf kd [flitChunk f k] with seq := flitSeq f, chunk := k } := by
  have hone : k + 1 - min k 1 = k := by omega
  simp [chunkIn, hnone, hmap, hlen, hone]

/-- A flit whose chunks after the first are empty carries what its first chunk carries. -/
theorem chunksIn_first (hempty : ∀ k, 2 ≤ k → k ≤ 15 → flitMap f k = 0 ∧ flitChunk f k = 0)
    (hnone : (linkOf (chunkIn n f b 1) n).partialKind = none) : chunksIn b n f = chunkIn n f b 1 := by
  unfold chunksIn
  rw [List.range_succ_eq_map, List.foldl_cons]
  refine foldl_eq_self fun i hi => ?_
  obtain ⟨j, hj, rfl⟩ := List.mem_map.1 hi
  have hlt := List.mem_range.1 hj
  obtain ⟨hmap, hchunk⟩ := hempty (j.succ + 1) (by omega) (by omega)
  exact chunkIn_empty hnone hmap hchunk

/-- A complete message that keeps the rules joins the receive buffer (R298, R321). -/
theorem messageIn_joins {m : Msg} (hfields : fieldsOk m = true) (hhops : m.hops ≤ hopLimit b) (htakes : takesMsgs (linkOf b n) = true)
    (hroom : rxChunks (linkOf b n) (vcOf m.kind) + getVc (linkOf b n).owed (vcOf m.kind) + m.len ≤ vcBuffer (vcOf m.kind)) :
    messageIn b n f m = setLink b n (fun l => { l with rx := l.rx ++ [{ m with since := b.now, inp := n }] }) := by
  have hfits : ¬ vcBuffer (vcOf m.kind) < rxChunks (linkOf b n) (vcOf m.kind) + getVc (linkOf b n).owed (vcOf m.kind) + m.len := Nat.not_lt.2 hroom
  simp [messageIn, hfields, Nat.not_lt.2 hhops, hfits, htakes]

/-! What a flit in order does to its link. -/

/-- The credits that a flit gives back, up to the partner's buffers (R298). -/
def creditsAfter (l : Link) (f : Flit) : Nat × Nat × Nat :=
  (min 1024 (l.credit.1 + fld f.ctl 71 8), min 2048 (l.credit.2.1 + fld f.ctl 79 8), min 64 (l.credit.2.2 + fld f.ctl 87 4))

/-- The port once a DATA flit in order is taken, before its chunks. -/
def orderedIn (b : Block) (n : Nat) (f : Flit) : Block :=
  setLink (takeCredits (peerTap b 0x39 n) n f) n (fun l => { l with seqExp := (l.seqExp + 1) % 4096, nakSent := false })

theorem takeCredits_spec (b : Block) (n : Nat) (f : Flit) :
    LinkOnly (obsAs b.obs) b (takeCredits (peerTap b 0x39 n) n f) n { linkOf b n with credit := creditsAfter (linkOf b n) f } :=
  ((LinkOnly.refl _ b n).count ..).setLink _

theorem orderedIn_spec (b : Block) (n : Nat) (f : Flit) :
    LinkOnly (obsAs b.obs) b (orderedIn b n f) n { linkOf b n with
      seqExp := ((linkOf b n).seqExp + 1) % 4096, nakSent := false, credit := creditsAfter (linkOf b n) f } :=
  (takeCredits_spec b n f).setLink _

section
variable (hrun : flitsRun (linkOf b n)) (hplain : plainFlit (linkOf b n) f)
include hrun hplain

theorem flitIn_ordered (hkind : flitKind f = 1) (hseq : flitSeq f = (linkOf b n).seqExp) : flitIn b n f = chunksIn (orderedIn b n f) n f := by
  rw [flitIn_sound hrun hplain (by rw [hkind]; decide)]
  simp [hkind, hseq, orderedIn]

theorem flitIn_outOfOrder (hkind : flitKind f = 1) (hseq : flitSeq f ≠ (linkOf b n).seqExp) :
    flitIn b n f = setLink (violate (peerTap b 0x39 n) n 2 (f.ctl.extractLsb' 0 32) 0 (flitSeq f)) n
      (fun l => { l with nakDue := l.nakDue || !l.nakSent, nakSent := true }) := by
  rw [flitIn_sound hrun hplain (by rw [hkind]; decide)]
  exact if_pos ⟨hkind, hseq⟩

/-- A NAK with flits to replay starts the replay at the oldest. -/
theorem nakIn_replays (hkind : flitKind f = 2) (hreplay : (linkOf b n).replay ≠ []) (htries : (linkOf b n).replayTries < 4) :
    LinkOnly (obsAs b.obs) b (nakIn b n f) n { linkOf b n with
      credit := creditsAfter (linkOf b n) f, replayPos := some 0, replayTries := (linkOf b n).replayTries + 1
      replays := min 65535 ((linkOf b n).replays + 1) } := by
  have hrun' : nakIn b n f = startReplay (takeCredits (peerTap b 0x39 n) n f) n := by
    refine (if_pos hkind).trans ?_
    rw [flitIn_sound hrun hplain (by rw [hkind]; decide)]
    simp [hkind]
  have h := takeCredits_spec b n f
  rw [hrun', startReplay_spec (by rw [h.own]; exact hreplay) (by rw [h.own]; exact htries)]
  exact h.setLink _

/-- An empty DATA flit in order. -/
theorem flitIn_empty (hkind : flitKind f = 1) (hseq : flitSeq f = (linkOf b n).seqExp) (hnone : (linkOf b n).partialKind = none)
    (hempty : ∀ k, 2 ≤ k → k ≤ 15 → flitMap f k = 0 ∧ flitChunk f k = 0) (hmap : flitMap f 1 = 0) (hchunk : flitChunk f 1 = 0) :
    flitIn b n f = orderedIn b n f := by
  have hopen : (linkOf (orderedIn b n f) n).partialKind = none := by rw [(orderedIn_spec b n f).own]; exact hnone
  have hfirst := chunkIn_empty (k := 1) hopen hmap hchunk
  rw [flitIn_ordered hrun hplain hkind hseq, chunksIn_first hempty (by rw [hfirst]; exact hopen), hfirst]

/-- A DATA flit in order with one control message of one chunk, for which the receive buffer has room. -/
theorem flitIn_message (hkind : flitKind f = 1) (hseq : flitSeq f = (linkOf b n).seqExp) (hnone : (linkOf b n).partialKind = none)
    (hempty : ∀ k, 2 ≤ k → k ≤ 15 → flitMap f k = 0 ∧ flitChunk f k = 0) (hmap : flitMap f 1 = 4) (hactive : (linkOf b n).state = .active)
    (hlen : (msgOf .control [flitChunk f 1]).len = 1) (hfields : fieldsOk (msgOf .control [flitChunk f 1]) = true)
    (hhops : (msgOf .control [flitChunk f 1]).hops ≤ hopLimit b) (hroom : rxChunks (linkOf b n) 2 + (linkOf b n).owed.2.2 + 1 ≤ 64) :
    LinkOnly (obsAs b.obs) b (flitIn b n f) n { linkOf b n with
      seqExp := ((linkOf b n).seqExp + 1) % 4096, nakSent := false, credit := creditsAfter (linkOf b n) f, partialChunks := [], skip := false
      rx := (linkOf b n).rx ++ [{ msgOf .control [flitChunk f 1] with seq := flitSeq f, chunk := 1, since := b.now, inp := n }] } := by
  have hord := orderedIn_spec b n f
  have hclosed := hord.setLink fun l => { l with partialKind := none, partialChunks := [], skip := false }
  have hfirst := chunkIn_whole (b := orderedIn b n f) (n := n) (f := f) (kd := .control) (k := 1) (Nat.le_refl 1)
    (by rw [hord.own]; exact hnone) (by rw [hmap]; rfl) hlen
  rw [messageIn_joins (m := { msgOf .control [flitChunk f 1] with seq := flitSeq f, chunk := 1 }) hfields (Nat.le_trans hhops (Nat.le_of_eq (hclosed.keeps hopLimit).symm))
      (by rw [hclosed.own]; simp [takesMsgs, hactive])
    (by rw [hclosed.own, show Msg.len { msgOf .control [flitChunk f 1] with seq := flitSeq f, chunk := 1 } = 1 from hlen]; exact hroom),
    hclosed.keeps Block.now] at hfirst
  have h := hclosed.setLink fun l => { l with
    rx := l.rx ++ [{ msgOf .control [flitChunk f 1] with seq := flitSeq f, chunk := 1, since := b.now, inp := n }] }
  rw [← hfirst] at h
  rw [flitIn_ordered hrun hplain hkind hseq, chunksIn_first hempty (by rw [h.own])]
  rw [← hnone] at h
  exact h

end

end

end Sys2Proof.Machine
end

section
/-! PROOFS. The flit that a port sends (R295 to R299, R306): a NAK, a flit of the replay, a message with the next SEQ, or an idle flit. -/

namespace Sys2Proof.Machine

/-! The fields of a flit (R296). -/

/-- A field that lies in the vector reads as it lies in the number. -/
theorem fld_ofNat {w lo len : Nat} (h : lo + len ≤ w) (v : Nat) : fld (BitVec.ofNat w v) lo len = v / 2 ^ lo % 2 ^ len := by
  rw [fld, BitVec.toNat_ofNat, Nat.shiftRight_eq_div_pow, ← Nat.mod_mul_right_div_self, ← Nat.mod_mul_right_div_self, ← Nat.pow_add,
    Nat.mod_mod_of_dvd _ (Nat.pow_dvd_pow 2 h)]

/-- The link control of a flit without chunks names its kind. -/
theorem flitKind_plain (l : Link) {kind : Nat} (h : kind < 4) (d : BitVec 1920) : flitKind (mkFlit (flitCtl l kind 0 []) d) = kind := by
  refine (fld_ofNat (by decide) _).trans ?_
  show (kind + 0 * 4 + (l.seqExp + 4095) % 4096 * 2 ^ 14 + 0 + min 255 l.owed.1 * 2 ^ 71 + min 255 l.owed.2.1 * 2 ^ 79
    + min 15 l.owed.2.2 * 2 ^ 87) / 2 ^ 0 % 2 ^ 2 = kind
  omega

/-- The DATA flit of a link with these chunks, by their MAP codes: it takes the next SEQ. -/
def dataFlit (l : Link) (cs : List (Nat × BitVec 128)) : Flit :=
  mkFlit (flitCtl l 1 l.seqNext (cs.map (·.1))) (BitVec.ofNat 1920 (cs.foldr (fun c a => a * 2 ^ 128 + c.2.toNat) 0))

/-- A DATA flit with the header of one control message and nothing else. -/
theorem dataFlit_single (l : Link) (h : BitVec 128) (hseq : l.seqNext < 4096) :
    flitKind (dataFlit l [(4, h)]) = 1 ∧ flitSeq (dataFlit l [(4, h)]) = l.seqNext ∧ flitMap (dataFlit l [(4, h)]) 1 = 4
      ∧ flitChunk (dataFlit l [(4, h)]) 1 = h := by
  have hctl : (dataFlit l [(4, h)]).ctl = BitVec.ofNat 96 (1 + l.seqNext * 4 + (l.seqExp + 4095) % 4096 * 2 ^ 14 + 4 * 2 ^ 26
    + min 255 l.owed.1 * 2 ^ 71 + min 255 l.owed.2.1 * 2 ^ 79 + min 15 l.owed.2.2 * 2 ^ 87) := by
    simp [dataFlit, mkFlit, flitCtl]
  refine ⟨?_, ?_, ?_, ?_⟩
  · rw [flitKind, hctl, fld_ofNat (by decide)]
    omega
  · rw [flitSeq, hctl, fld_ofNat (by decide)]
    omega
  · rw [flitMap, hctl, fld_ofNat (by decide)]
    omega
  · have hbody : (dataFlit l [(4, h)]).body = BitVec.ofNat 1920 (0 * 2 ^ 128 + h.toNat) := rfl
    apply BitVec.eq_of_toNat_eq
    rw [flitChunk, hbody, BitVec.extractLsb'_toNat, BitVec.toNat_ofNat]
    have hlt := h.isLt
    omega

/-! The next message (R306). -/

theorem nextMsg_empty (b : Block) {l : Link} (h : l.tx = []) : nextMsg b l = none := by
  simp [nextMsg, h, reqHeads, leastBy]

/-- A control message goes as soon as there are credits for it. -/
theorem nextMsg_control (b : Block) {l : Link} {m : Msg} (htx : l.tx = [m]) (hkind : m.kind = .control) (hroom : m.len ≤ l.credit.2.2) :
    nextMsg b l = some m := by
  have hvc : vcOf m.kind = 2 := by rw [hkind]; rfl
  have hfits : m.len ≤ getVc l.credit 2 := hroom
  simp [nextMsg, htx, hvc, Option.filter, hfits]

theorem fillFlit_empty (b : Block) {l : Link} (htx : l.tx = []) (hrest : l.txRest = none) (room : Nat) (cs : List (Nat × BitVec 128))
    (ds : List Nat) : fillFlit b room (l, cs, ds) = (l, cs, ds) := by
  cases room with
  | zero => rfl
  | succ room => simp only [fillFlit, hrest, nextMsg_empty b htx]

/-- The link once its one message, a control message of one chunk, has left its queue. -/
def Link.sentControl (l : Link) : Link := { l with tx := [], credit := (l.credit.1, l.credit.2.1, l.credit.2.2 - 1) }

/-- A control message of one chunk is its header. -/
theorem chunks_control {m : Msg} (hkind : m.kind = .control) (hlen : m.len = 1) : m.chunks = [m.hdr] := by
  have hbe : hasBe m.kind m.hdr = false := by rw [hkind]; rfl
  have hdata : hasData m.kind m.hdr = false := by
    cases h : hasData m.kind m.hdr with
    | false => rfl
    | true => simp [Msg.len, needOf, hbe, h] at hlen
  simp [Msg.chunks, hbe, hdata]

theorem fillFlit_control (b : Block) {l : Link} {m : Msg} (htx : l.tx = [m]) (hrest : l.txRest = none) (hkind : m.kind = .control)
    (hlen : m.len = 1) (hcredit : 1 ≤ l.credit.2.2) (room : Nat) :
    fillFlit b (room + 1) (l, [], []) = (l.sentControl, [(4, m.hdr)], [msgGoal m]) := by
  have hnext := nextMsg_control b htx hkind (Nat.le_trans (Nat.le_of_eq hlen) hcredit)
  have htake : { takeNext l m with txRest := none } = l.sentControl := by
    rw [← hrest]
    simp [takeNext, htx, hkind, vcOf, subVc, hlen, Link.sentControl]
  have hcode : mapCode m.kind = 4 := by rw [hkind]; rfl
  have hstep : fillFlit b (room + 1) (l, [], []) = fillFlit b room (l.sentControl, [(4, m.hdr)], [msgGoal m]) := by
    simp only [fillFlit, hrest, hnext, chunks_control hkind hlen, hcode, List.drop_succ_cons, List.drop_zero, List.isEmpty_nil, if_true, htake]
    rfl
  rw [hstep]
  exact fillFlit_empty b (l := l.sentControl) rfl hrest room _ _

/-! What leaves the port. -/

section
variable {b : Block} {n : Nat}

theorem LinkOnly.emitFlit {o : Observe} {c : Block} {l : Link} (h : LinkOnly (obsAs o) b c n l) (f : Flit) :
    LinkOnly (obsAs o) b (emitFlit c n f) n { l with lastFlit := some f } :=
  (h.setLink fun l => { l with lastFlit := some f }).count ..

theorem creditsGone_eq (l : Link) : creditsGone l = { l with owed := (l.owed.1 - 255, l.owed.2.1 - 255, l.owed.2.2 - 15) } := rfl

/-- A new DATA flit takes the next SEQ, joins the replay buffer and waits for its acknowledgement (R299). -/
theorem sendData_spec (b : Block) (n : Nat) (l : Link) (cs : List (Nat × BitVec 128)) (ds : List Nat) :
    LinkOnly (obsAs b.obs) b (sendData b n l cs ds) n { creditsGone l with
      seqNext := (l.seqNext + 1) % 4096, replay := l.replay ++ [dataFlit l cs], sentAt := l.sentAt ++ [b.now]
      carried := l.carried ++ ds.map (fun d => (l.seqNext, d)), lastFlit := some (dataFlit l cs) } := by
  unfold sendData
  generalize creditsGone l = g
  exact (((LinkOnly.refl _ b n).setLink _).emitFlit _).count ..

/-- An idle flit carries credits and the acknowledgement. -/
theorem plainOut_spec (b : Block) (n : Nat) (f : Flit) :
    LinkOnly (obsAs b.obs) b (emitFlit (setLink b n creditsGone) n f) n { creditsGone (linkOf b n) with lastFlit := some f } :=
  ((LinkOnly.refl _ b n).setLink _).emitFlit f

theorem flitOut_stopped (h : ¬ flitsRun (linkOf b n)) : flitOut b n = b :=
  if_pos ⟨fun hh => h (.inr hh), fun ha => h (.inl ha)⟩

section
variable (hrun : flitsRun (linkOf b n))
include hrun

theorem flitOut_nak (hnak : (linkOf b n).nakDue = true) :
    LinkOnly (obsAs b.obs) b (flitOut b n) n { creditsGone (linkOf b n) with
      nakDue := false, lastFlit := some (mkFlit (flitCtl (linkOf b n) 2 0 []) 0) } := by
  have hout : flitOut b n = emitFlit (setLink b n (fun l => { creditsGone l with nakDue := false })) n
      (mkFlit (flitCtl (linkOf b n) 2 0 []) 0) := (if_neg fun h => hrun.elim h.2 h.1).trans (if_pos hnak)
  rw [hout]
  generalize creditsGone = g
  exact ((LinkOnly.refl _ b n).setLink _).emitFlit _

variable (hnak : (linkOf b n).nakDue = false)
include hnak

/-- A flit of the replay goes again, as it was but for its acknowledgement (log 26). -/
theorem flitOut_replay {i : Nat} {g : Flit} (hpos : (linkOf b n).replayPos = some i) (hg : (linkOf b n).replay[i]? = some g) : ∃ ctl,
    LinkOnly (obsAs b.obs) b (flitOut b n) n { linkOf b n with
      replayPos := if i + 1 < (linkOf b n).replay.length then some (i + 1) else none, sentAt := (linkOf b n).sentAt.set i b.now
      lastFlit := some (mkFlit ctl g.body) } := by
  have hout : flitOut b n = resend b n i g := by
    refine (if_neg fun h => hrun.elim h.2 h.1).trans ((if_neg (Bool.eq_false_iff.1 hnak)).trans ?_)
    simp only [hpos, hg]
  rw [hout]
  exact ⟨_, ((((LinkOnly.refl _ b n).setLink _).emitFlit _).count ..).count ..⟩

variable (hpos : (linkOf b n).replayPos = none)
include hpos

/-- With 128 flits unacknowledged no message goes. -/
theorem flitOut_full (hfull : 128 ≤ (linkOf b n).replay.length) :
    flitOut b n = emitFlit (setLink b n creditsGone) n (mkFlit (flitCtl (linkOf b n) 0 0 []) 0) := by
  refine (if_neg fun h => hrun.elim h.2 h.1).trans ((if_neg (Bool.eq_false_iff.1 hnak)).trans ?_)
  simp only [hpos, if_pos hfull]

end

section
variable (hnak : (linkOf b n).nakDue = false) (hpos : (linkOf b n).replayPos = none) (hroom : (linkOf b n).replay.length < 128)
include hnak hpos hroom

/-- A port in service fills a flit with its messages. -/
theorem flitOut_active (hactive : (linkOf b n).state = .active) :
    flitOut b n = (let (l, cs, ds) := fillFlit b 15 (linkOf b n, [], [])
      if cs.isEmpty then emitFlit (setLink b n creditsGone) n (mkFlit (flitCtl (linkOf b n) 0 0 []) 0) else sendData b n l cs ds) := by
  simp only [flitOut, hactive, hnak, hpos, Nat.not_le.2 hroom, ne_eq, reduceCtorEq, not_true_eq_false, not_false_eq_true, and_false,
    if_false, Bool.false_eq_true]

theorem flitOut_idle (hactive : (linkOf b n).state = .active) (htx : (linkOf b n).tx = []) (hrest : (linkOf b n).txRest = none) :
    flitOut b n = emitFlit (setLink b n creditsGone) n (mkFlit (flitCtl (linkOf b n) 0 0 []) 0) := by
  rw [flitOut_active hnak hpos hroom hactive, fillFlit_empty b htx hrest]
  rfl

theorem flitOut_control {m : Msg} (hactive : (linkOf b n).state = .active) (htx : (linkOf b n).tx = [m]) (hrest : (linkOf b n).txRest = none)
    (hkind : m.kind = .control) (hlen : m.len = 1) (hcredit : 1 ≤ (linkOf b n).credit.2.2) :
    flitOut b n = sendData b n (linkOf b n).sentControl [(4, m.hdr)] [msgGoal m] := by
  rw [flitOut_active hnak hpos hroom hactive, fillFlit_control b htx hrest hkind hlen hcredit]
  rfl

/-- A port that has yet to send its HELLO sends it; it goes into service once the partner's has come too (R292). -/
theorem flitOut_hello (hhello : (linkOf b n).state = .hello) (hsent : (linkOf b n).helloSent = false) (hgot : (linkOf b n).helloGot = false)
    (hrest : (linkOf b n).txRest = none) :
    flitOut b n = sendData b n { linkOf b n with helloSent := true } [(4, (helloMsg b n).hdr)] [64] := by
  have hout : flitOut b n = helloFlit b n := by
    simp only [flitOut, hhello, hnak, hpos, Nat.not_le.2 hroom, hsent, ne_eq, reduceCtorEq, not_true_eq_false, not_false_eq_true, false_and,
      if_false, if_true, Bool.false_eq_true]
  rw [hout]
  simp only [helloFlit, hrest]
  exact tryActive_waits (.inr (by rw [(sendData_spec ..).own]; exact hgot))

end

end

/-- Settles O58: a flit comes by `flitIn_badCrc`, `flitIn_outOfOrder`, `flitIn_empty` and `flitIn_message`, replays start by
`startReplay_spec`, and a flit goes by the `flitOut` lemma of its case (logs 26, 27). -/
theorem flitsAreExchanged : Obligations.FlitsAreExchanged := by
  intro s n hok hlive b l only live credits sound
  refine ⟨fun f hstop => ⟨?_, ?_, ?_⟩, fun f hrun hcrc => ?_, fun f hrun hsound hkind hseq => ?_,
    fun f hrun hsound hkind hseq hnone hempty => ⟨fun hmap hchunk => ?_, fun hmap hactive hlen hfields hhops hroom => ?_⟩, fun f hkind => ?_,
    fun f hrun hsound hkind hreplay htries => ?_, fun hrun hreplay hpos hdue htries => ?_, fun hearly => ?_, fun hrun hnak => ?_,
    fun i g hrun hnak hpos hg => ?_, fun hrun hnak hpos hfull => ?_, fun hactive hnak hpos hroom htx hrest => ?_,
    fun m hactive hnak hpos hroom htx hrest hkind hlen hcredit hseq => ?_, fun hhello hnak hpos hroom hsent hgot hrest hseq => ?_⟩
  · exact linkRow_eq hok hlive (flitIn_stopped hstop)
  · exact linkRow_eq hok hlive (ite_eq_right_iff.2 fun _ => flitIn_stopped hstop)
  · exact linkRow_eq hok hlive (flitOut_stopped hstop)
  · obtain ⟨_, _, _, _, hviol⟩ := violate_spec b n 1 (f.ctl.extractLsb' 0 32) 0 (flitSeq f)
    have h := hviol.setLink fun l => { l with crcErr := satAdd 65535 l.crcErr 1, nakDue := true, nakSent := true }
    refine ⟨_, linkRow_eq hok hlive (flitIn_badCrc hrun hcrc), ?_⟩
    rw [h.own]
    exact ⟨rfl, rfl, rfl, rfl, tget_tset_self .., h.others⟩
  · obtain ⟨_, _, _, _, hviol⟩ := violate_spec (peerTap b 0x39 n) n 2 (f.ctl.extractLsb' 0 32) 0 (flitSeq f)
    have h := hviol.setLink fun l => { l with nakDue := l.nakDue || !l.nakSent, nakSent := true }
    rw [show linkOf (peerTap b 0x39 n) n = l from linkOf_count ..] at h
    refine ⟨_, linkRow_eq hok hlive (flitIn_outOfOrder hrun hsound hkind hseq), ?_⟩
    rw [h.own]
    exact ⟨rfl, rfl, rfl, rfl, fun hfirst => by simp [l, hfirst], fun k hk => (h.others k hk).trans (linkOf_count ..)⟩
  · obtain ⟨hown, hothers, hframe⟩ := orderedIn_spec b n f
    exact ⟨_, linkRow_eq hok hlive (flitIn_empty hrun hsound hkind hseq hnone hempty hmap hchunk), hown, hothers, hframe⟩
  · obtain ⟨hown, hothers, hframe⟩ := flitIn_message hrun hsound hkind hseq hnone hempty hmap hactive hlen hfields hhops hroom
    exact ⟨_, linkRow_eq hok hlive rfl, hown, hothers, hframe⟩
  · exact linkRow_eq hok hlive (nakIn_other hkind)
  · obtain ⟨hown, hothers, hframe⟩ := nakIn_replays hrun hsound hkind hreplay htries
    exact ⟨_, linkRow_eq hok hlive rfl, hown, hothers, hframe⟩
  · obtain ⟨hown, hothers, hframe⟩ := (LinkOnly.refl (obsAs b.obs) b n).setLink fun l =>
      { l with replayPos := some 0, replayTries := l.replayTries + 1, replays := satAdd 65535 l.replays 1 }
    exact ⟨_, linkRow_eq hok hlive ((replayTimeout_due hrun hreplay hpos hdue).trans (startReplay_spec hreplay htries)), hown, hothers, hframe⟩
  · exact linkRow_eq hok hlive (replayTimeout_early hearly)
  · obtain ⟨hown, hothers, hframe⟩ := flitOut_nak hrun hnak
    rw [creditsGone_eq] at hown
    exact ⟨_, _, linkRow_eq hok hlive rfl, flitKind_plain l (by decide) 0, rfl, hown, hothers, hframe⟩
  · obtain ⟨ctl, hown, hothers, hframe⟩ := flitOut_replay hrun hnak hpos hg
    exact ⟨_, mkFlit ctl g.body, linkRow_eq hok hlive rfl, rfl, rfl, hown, hothers, hframe⟩
  · obtain ⟨hown, hothers, hframe⟩ := plainOut_spec b n (mkFlit (flitCtl l 0 0 []) 0)
    rw [creditsGone_eq] at hown
    exact ⟨_, _, linkRow_eq hok hlive (flitOut_full hrun hnak hpos hfull), flitKind_plain l (by decide) 0, rfl, hown, hothers, hframe⟩
  · obtain ⟨hown, hothers, hframe⟩ := plainOut_spec b n (mkFlit (flitCtl l 0 0 []) 0)
    rw [creditsGone_eq] at hown
    exact ⟨_, _, linkRow_eq hok hlive (flitOut_idle hnak hpos hroom hactive htx hrest), flitKind_plain l (by decide) 0, rfl, hown, hothers,
      hframe⟩
  · obtain ⟨hown, hothers, hframe⟩ := sendData_spec b n l.sentControl [(4, m.hdr)] [msgGoal m]
    rw [creditsGone_eq] at hown
    obtain ⟨hdata, hnum, hcode, hhdr⟩ := dataFlit_single l.sentControl m.hdr hseq
    exact ⟨_, _, linkRow_eq hok hlive (flitOut_control hnak hpos hroom hactive htx hrest hkind hlen hcredit), hdata, hnum, hcode, hhdr, rfl,
      hown, hothers, hframe⟩
  · obtain ⟨hown, hothers, hframe⟩ := sendData_spec b n { l with helloSent := true } [(4, (helloMsg b n).hdr)] [64]
    rw [creditsGone_eq] at hown
    obtain ⟨hdata, hnum, hcode, hhdr⟩ := dataFlit_single { l with helloSent := true } (helloMsg b n).hdr hseq
    exact ⟨_, _, linkRow_eq hok hlive (flitOut_hello hnak hpos hroom hhello hsent hgot hrest), hdata, hnum, hcode, hhdr, rfl,
      hown, hothers, hframe⟩

end Sys2Proof.Machine
end

section
/-! PROOFS. Messages on their way (R300, R304, R305): a message that leaves its input, goes on to a port, or has no route. -/

namespace Sys2Proof.Machine

/-! A message leaves its input. -/

/-- The block without its notes on the requests that are open, and on the input granted last. -/
def Block.unheard (b : Block) : Block := { b with cw := { b.cw with openCls := [], lastLocal := 0 } }

/-- A link from whose input a message has been taken: its credits go back, but for HELLO (R298, log 27). -/
def Link.took (m : Msg) (l : Link) : Link :=
  { l with rx := l.rx.erase m, owed := if isHello m then l.owed else addVc l.owed (vcOf m.kind) m.len }

/-- The message has left input `n` of the block; nothing else has changed but those notes. -/
abbrev Took (b c : Block) (n : Nat) (m : Msg) : Prop := LinkOnly Block.unheard b c n ((linkOf b n).took m)

theorem took_takeMsg (b : Block) (n : Nat) (m : Msg) : Took b (takeMsg b (.peer n) m) n m := (LinkOnly.refl _ b n).setLink _

theorem took_takeLocal (b : Block) (n : Nat) (m : Msg) : Took b (takeLocal b (.peer n) m) n m :=
  ⟨(took_takeMsg b n m).own, (took_takeMsg b n m).others, rfl⟩

section
variable {b c : Block} {n : Nat} {m : Msg}

theorem Took.openReq (h : Took b c n m) : Took b (openReq c m) n m := ⟨h.own, h.others, h.frame⟩

/-- Routing looks at the table and at which links are live. -/
theorem pickRoute_congr {d : Nat} (hbuild : c.build = b.build) (hroute : c.cw.route = b.cw.route)
    (hlive : ∀ k, linkLive (linkOf c k) = linkLive (linkOf b k)) : pickRoute c d = pickRoute b d := by
  simp only [pickRoute, peerOk, hbuild, hroute, hlive]

theorem Took.sameRoute (h : Took b c n m) (d : Nat) : pickRoute c d = pickRoute b d := by
  refine pickRoute_congr (h.keeps Block.build) (h.keeps (·.cw.route)) fun k => ?_
  by_cases hk : k = n
  · subst hk
    rw [h.own]
    rfl
  · rw [h.others k hk]

/-- What an input shows is a message of the kind asked for. -/
theorem showing_kind {i : CwIn} {k : MKind} (h : showing b i k = some m) : m.kind = k := by
  obtain ⟨_, hm⟩ := Option.filter_eq_some_iff.1 h
  exact eq_of_beq (Bool.and_eq_true_iff.1 hm).1

/-! A message with a route (R304). -/

/-- A message below the hop limit joins the queue of its port, with its HOPS one more; what goes through is counted. -/
theorem sendTo_spec {p : Nat} (h : m.hops + 1 ≤ hopLimit b) : LinkOnly (obsAs b.obs) b (sendTo b p m) p { linkOf b p with
    tx := (linkOf b p).tx ++ [{ withHops m (m.hops + 1) with since := b.now }] } := by
  unfold sendTo
  rw [if_neg (Nat.not_lt.2 h)]
  dsimp only
  split
  · have hq := ((LinkOnly.refl (obsAs b.obs) b p).count 0x3C { port := 10 + p } 1).setLink fun l =>
      { l with tx := l.tx ++ [{ withHops m (m.hops + 1) with since := b.now }] }
    rw [queueTo, count_now]
    exact hq
  · exact (LinkOnly.refl _ b p).setLink _

section
variable {o p : Nat} (hroute : pickRoute b m.dst = some (o, p)) (hstill : tget 0 b.cw.changing m.dst = 0)
include hroute hstill

theorem routeMsg_routed : routeMsg b m = (sendTo b p m, true) := by
  simp only [routeMsg, hroute, sendRouted, hstill, ne_eq, not_true_eq_false, if_false]

/-- A message with a live option goes on; a write line does so where its request has. -/
theorem routeOn_routed (hline : m.kind = .writeLine → tget (0, 0) b.cw.openCls (openKey m.inp m.src m.orig) ≠ (9, 0)) :
    routeOn b m = sendTo b p m := by
  refine (if_neg fun h => hline h.1 h.2).trans ?_
  simp only [routeMsg_routed hroute hstill]

end

/-- The message has passed from input `n` to port `p`. -/
def Passes (b u : Block) (n p : Nat) (m : Msg) : Prop :=
  (linkOf u p).tx = (linkOf b p).tx ++ [{ withHops m (m.hops + 1) with since := b.now }] ∧ (linkOf u n).rx = (linkOf b n).rx.erase m
    ∧ u.txns = b.txns ∧ u.chans = b.chans ∧ u.ctxs = b.ctxs

/-- A message that has left its input and has a live option passes to its port. -/
theorem Took.passes {o p : Nat} (h : Took b c n m) (hroute : pickRoute b m.dst = some (o, p)) (hstill : tget 0 b.cw.changing m.dst = 0)
    (hhops : m.hops + 1 ≤ hopLimit b) (hline : m.kind = .writeLine → tget (0, 0) c.cw.openCls (openKey m.inp m.src m.orig) ≠ (9, 0)) :
    Passes b (routeOn c m) n p m := by
  have hsent := sendTo_spec (b := c) (p := p) (Nat.le_trans hhops (Nat.le_of_eq (h.keeps hopLimit).symm))
  have htx : (linkOf c p).tx = (linkOf b p).tx := by
    by_cases hp : p = n
    · subst hp
      rw [h.own]
      rfl
    · rw [h.others p hp]
  have hrx : (linkOf (sendTo c p m) n).rx = (linkOf b n).rx.erase m := by
    by_cases hp : n = p
    · subst hp
      rw [hsent.own, h.own]
      rfl
    · rw [hsent.others n hp, h.own]
      rfl
  rw [routeOn_routed ((h.sameRoute _).trans hroute) ((congrArg (tget 0 · m.dst) (h.keeps (·.cw.changing))).trans hstill) hline]
  refine ⟨?_, hrx, (hsent.keeps Block.txns).trans (h.keeps Block.txns), (hsent.keeps Block.chans).trans (h.keeps Block.chans),
    (hsent.keeps Block.ctxs).trans (h.keeps Block.ctxs)⟩
  rw [hsent.own, htx, h.keeps Block.now]

/-! A request without a route (R305). -/

theorem ite_pow (c : Bool) (k : Nat) : (if c then 2 ^ k else 0) = c.toNat * 2 ^ k := by cases c <;> simp
theorem ite_zero_pow (c : Bool) (k : Nat) : (if c then 0 else 2 ^ k) = (!c).toNat * 2 ^ k := by cases c <;> simp

/-- A response joins the local queue, with its status and its destination (R300). -/
theorem respond_spec (b : Block) {dst : Nat} (hdst : dst < 64) (orig : Nat) (r : ReqBeat) (isRead : Bool) (line : Nat) (st : Status)
    (pm : WordMask) (coll last : Bool) (data : Option LineData) (since : Nat) : ∃ m : Msg,
    respond b dst orig r isRead line st pm coll last data since = { b with cw := { b.cw with local_ := b.cw.local_ ++ [m] } }
      ∧ m.kind = .response ∧ fld m.hdr 8 4 = st.code ∧ m.dst = dst := by
  have hid := r.id.isLt
  have hshift := r.shift.isLt
  have hctx := r.ctx.isLt
  have hst : st.code < 16 := by cases st <;> decide
  refine ⟨_, rfl, rfl, ?_, ?_⟩
  · simp only [ite_pow, ite_zero_pow]
    rw [fld_ofNat (by decide)]
    omega
  · refine (fld_ofNat (by decide) _).trans ?_
    simp only [ite_pow, ite_zero_pow]
    omega

theorem routeOn_noRoute (hkind : m.kind = .request) (hroute : pickRoute b m.dst = none) : routeOn b m = noRoute b m := by
  refine (if_neg fun h => absurd (hkind.symm.trans h.1) (by decide)).trans ?_
  simp only [routeMsg, hroute, hkind]

/-- A request of another instance without a route is counted and answered NOROUTE. -/
theorem noRoute_answers (hkind : m.kind = .request) (hinp : m.inp < 4) : ∃ (r : Msg) (t : Tbl (Nat × Nat)),
    noRoute b m = { b with cw := { b.cw with noroute := satAdd 65535 b.cw.noroute 1, openCls := t, local_ := b.cw.local_ ++ [r] } }
      ∧ r.kind = .response ∧ fld r.hdr 8 4 = 11 ∧ r.dst = m.src := by
  have hsrc : m.src < 64 := by
    rw [Msg.src, hkind]
    exact Nat.mod_lt _ (by decide)
  obtain ⟨r, hr, hresp, hst, hdst⟩ := respond_spec
    { b with cw := { b.cw with
        noroute := satAdd 65535 b.cw.noroute 1, openCls := tset b.cw.openCls (openKey m.inp m.src m.orig) (9, 0) } }
    hsrc m.orig (reqOfMsg m) ((opOfCode (fld m.hdr 8 5)).any (fun o => o.isRead)) 0 .noroute 0 false true none b.now
  exact ⟨r, _, (if_neg (Nat.ne_of_lt hinp)).trans hr, hresp, hst, hdst⟩

end

end Sys2Proof.Machine
end

section
/-! PROOFS. Requests, write lines and responses between instances (R300, R304, R305, R309, R312, R321, R380). -/

namespace Sys2Proof.Machine

section
variable {b : Block} {n : Nat} {m : Msg}

/-! Requests. -/

theorem requestMsg_none (hm : showing b (.peer n) .request = none) : requestMsg b (.peer n) = b := by
  simp only [requestMsg, hm]

section
variable (hm : showing b (.peer n) .request = some m)
include hm

theorem requestMsg_passesOn (hdst : m.dst ≠ b.cw.instNum) : requestMsg b (.peer n) = routeOn (openReq (takeMsg b (.peer n) m) m) m := by
  simp only [requestMsg, hm]
  exact if_neg hdst

theorem requestMsg_waits (hdst : m.dst = b.cw.instNum) (hturn : localTurn b (.peer n) m = false) : requestMsg b (.peer n) = b := by
  simp only [requestMsg, hm]
  exact (if_pos hdst).trans (if_pos (.inr (.inr hturn)))

theorem requestMsg_delivers (hdst : m.dst = b.cw.instNum) (hwipe : b.bring.wipeHold = false) (hports : b.safety.portsStopped = false)
    (hturn : localTurn b (.peer n) m = true) : requestMsg b (.peer n) = deliverRequest (openReq (takeLocal b (.peer n) m) m) m := by
  simp only [requestMsg, hm]
  exact (if_pos hdst).trans (if_neg (by rw [hwipe, hports, hturn]; simp))

end

/-- A request that finds no open context, or an instance that is not ready, is judged ABORTED (R309, R312). -/
theorem judgeRemote_aborted (h : isReady b = false ∨ (ctxOf b (fld m.hdr 96 6)).state ≠ .open ∨ (ctxOf b (fld m.hdr 96 6)).faulted = true)
    (o : Option Op) : judgeRemote b o (reqOfMsg m) = some .aborted := by
  have hctx : (reqOfMsg m).ctx.toNat = fld m.hdr 96 6 := by
    show (BitVec.ofNat 6 (fld m.hdr 96 6)).toNat = fld m.hdr 96 6
    rw [BitVec.toNat_ofNat]
    exact Nat.mod_mod _ _
  rw [← hctx] at h
  exact if_pos h

/-- The request is outstanding all the same, answered ABORTED, and nothing is done for it. -/
theorem deliverRequest_aborted {o : Op} (hop : opOfCode (fld m.hdr 8 5) = some o) (hon : b.power.inst = .on)
    (hjudge : ∀ q, judgeRemote b q (reqOfMsg m) = some .aborted) : ∃ x : Txn,
    deliverRequest b m = { b with serial := freshUid b, txns := b.txns ++ [x] } ∧ x.org = .remote m.src m.orig m.inp ∧ x.op = o
      ∧ x.req = reqOfMsg m ∧ x.phase = .answered .aborted := by
  have hawake : (isReady b && b.power.inst == .deep) = false := by
    rw [hon]
    exact Bool.and_false _
  refine ⟨{ newTxn b (freshUid b) (.remote m.src m.orig m.inp) o (reqOfMsg m) with phase := .answered .aborted, due := b.now + 2 }, ?_,
    rfl, rfl, rfl, rfl⟩
  simp only [deliverRequest, hop, hjudge, hawake, Bool.false_eq_true, if_false]

/-- Such a request joins the outstanding ones, answered ABORTED, and no work begins for it. -/
theorem requestMsg_aborts {o : Op} (hm : showing b (.peer n) .request = some m) (hdst : m.dst = b.cw.instNum) (hwipe : b.bring.wipeHold = false)
    (hports : b.safety.portsStopped = false) (hturn : localTurn b (.peer n) m = true) (hop : opOfCode (fld m.hdr 8 5) = some o)
    (hon : b.power.inst = .on)
    (hclosed : isReady b = false ∨ (ctxOf b (fld m.hdr 96 6)).state ≠ .open ∨ (ctxOf b (fld m.hdr 96 6)).faulted = true) : ∃ u x,
    requestMsg b (.peer n) = u ∧ (u.ops = b.ops ∧ u.xfers = b.xfers ∧ u.descs = b.descs) ∧ u.txns = b.txns ++ [x]
      ∧ x.org = .remote m.src m.orig m.inp ∧ x.op = o ∧ x.req = reqOfMsg m ∧ x.phase = .answered .aborted := by
  rw [requestMsg_delivers hm hdst hwipe hports hturn]
  have htook := (took_takeLocal b n m).openReq
  generalize openReq (takeLocal b (.peer n) m) m = c at htook
  rw [← htook.keeps isReady, ← htook.keeps (ctxOf · (fld m.hdr 96 6))] at hclosed
  obtain ⟨x, hdeliver, hx⟩ := deliverRequest_aborted hop ((htook.keeps (·.power.inst)).trans hon) (judgeRemote_aborted hclosed)
  refine ⟨_, x, hdeliver, ⟨htook.keeps Block.ops, htook.keeps Block.xfers, htook.keeps Block.descs⟩, ?_, hx⟩
  exact congrArg (· ++ [x]) (htook.keeps Block.txns)

/-! Write lines. -/

theorem writeLineMsg_none (hm : showing b (.peer n) .writeLine = none) : writeLineMsg b (.peer n) = b := by
  simp only [writeLineMsg, hm]

section
variable (hm : showing b (.peer n) .writeLine = some m)
include hm

theorem writeLineMsg_passesOn (hdst : m.dst ≠ b.cw.instNum) : writeLineMsg b (.peer n) = routeOn (takeMsg b (.peer n) m) m := by
  simp only [writeLineMsg, hm]
  exact if_pos hdst

theorem writeLineMsg_waits (hdst : m.dst = b.cw.instNum) (hturn : localTurn b (.peer n) m = false) : writeLineMsg b (.peer n) = b := by
  simp only [writeLineMsg, hm]
  exact (if_neg (not_not.2 hdst)).trans (if_pos hturn)

theorem writeLineMsg_joins {x : Txn} (hdst : m.dst = b.cw.instNum) (hturn : localTurn b (.peer n) m = true) (hx : lineOwner b m = some x) :
    writeLineMsg b (.peer n) = joinLine (takeLocal b (.peer n) m) m x := by
  have hx' : lineOwner (takeLocal b (.peer n) m) m = some x := hx
  simp only [writeLineMsg, hm, hdst, hturn, hx', ne_eq, not_true_eq_false, if_false, Bool.true_eq_false]

theorem writeLineMsg_unowned (hdst : m.dst = b.cw.instNum) (hturn : localTurn b (.peer n) m = true) (hx : lineOwner b m = none)
    (hinp : m.inp < 4) : writeLineMsg b (.peer n) = violateMsg (takeLocal b (.peer n) m) m.inp 7 m := by
  have hx' : lineOwner (takeLocal b (.peer n) m) m = none := hx
  simp only [writeLineMsg, hm, hdst, hturn, hx', hinp, ne_eq, not_true_eq_false, if_true, if_false, Bool.true_eq_false]

end

/-- A beat keeps the request's number, its phase and the count of its lines, and brings LAST. -/
theorem takeBeat_spec (expect : Option Nat) (now : Nat) (t : WBeat) (x : Txn) :
    (takeBeat expect now t x).uid = x.uid ∧ (takeBeat expect now t x).beatsOut = x.beatsOut ∧ (takeBeat expect now t x).phase = x.phase
      ∧ (takeBeat expect now t x).gotLast = (x.gotLast || t.last) := by
  unfold takeBeat
  dsimp only
  split
  · next hlast => split <;> simp [hlast]
  · next hmore => simp [hmore]

/-- A request that is answered ABORTED stays so, whatever its beats (R99). -/
theorem finish_aborted {x : Txn} (h : x.phase = .answered .aborted) : finishTxn (beatsWrong x) = x := by
  have hwrong : beatsWrong x = x := by simp only [beatsWrong, h]
  rw [hwrong]
  refine if_neg ?_
  rw [h]
  simp

/-- A line of a request that is answered ABORTED counts as its next, and LAST ends its lines. -/
theorem joinLine_aborted {x : Txn} (hx : x ∈ b.txns) (hlast : x.gotLast = false) (hphase : x.phase = .answered .aborted) :
    (∃ y ∈ (joinLine b m x).txns, y.uid = x.uid ∧ y.beatsOut = x.beatsOut + 1 ∧ y.gotLast = bit m.hdr 52) ∧ (joinLine b m x).ops = b.ops := by
  unfold joinLine
  extract_lets k last order ends c t d
  have hc : c.txns = b.txns ∧ c.ops = b.ops := by
    unfold c
    split
    · exact ⟨rfl, rfl⟩
    · split
      · obtain ⟨_, _, _, _, h⟩ := violate_spec b m.inp 7 (m.hdr.extractLsb' 0 32) m.chunk m.seq
        exact ⟨h.keeps Block.txns, h.keeps Block.ops⟩
      · exact ⟨rfl, rfl⟩
  obtain ⟨huid, hout, hph, hgot⟩ := takeBeat_spec (beatsDue x) c.now t { x with beatsOut := k + 1, mismatch := x.mismatch || !order }
  rw [hphase]
  refine ⟨⟨finishTxn (beatsWrong (takeBeat (beatsDue x) c.now t { x with beatsOut := k + 1, mismatch := x.mismatch || !order })), ?_, ?_⟩, hc.2⟩
  · exact List.mem_map.2 ⟨x, hc.1 ▸ hx, if_pos rfl⟩
  · rw [finish_aborted (hph.trans hphase)]
    exact ⟨huid, hout, hgot.trans (by rw [hlast]; rfl)⟩

/-- The request that a write line belongs to is outstanding, and its last line has yet to come. -/
theorem lineOwner_spec {x : Txn} (h : lineOwner b m = some x) : x ∈ b.txns ∧ x.gotLast = false := by
  have hp := List.find?_some h
  rw [Bool.and_eq_true, Bool.and_eq_true, Bool.not_eq_true'] at hp
  exact ⟨List.mem_of_find?_eq_some h, hp.1.2⟩

/-! Responses. -/

theorem responseMsg_none (hm : showing b (.peer n) .response = none) : responseMsg b (.peer n) = b := by
  simp only [responseMsg, hm]

section
variable (hm : showing b (.peer n) .response = some m)
include hm

theorem responseMsg_passesOn (hdst : m.dst ≠ b.cw.instNum) : responseMsg b (.peer n) = routeOn (takeMsg b (.peer n) m) m := by
  simp only [responseMsg, hm]
  exact if_pos hdst

variable (hdst : m.dst = b.cw.instNum)
include hdst

theorem responseMsg_early (hready : isReady b = false) : responseMsg b (.peer n) = dropRsp (takeMsg b (.peer n) m) := by
  simp only [responseMsg, hm]
  exact (if_neg (not_not.2 hdst)).trans (if_pos hready)

variable (hready : isReady b = true)
include hready

theorem responseMsg_stale (hstale : staleShift b (fld m.hdr 20 6) (m.hdr.extractLsb' 12 8) = true) :
    responseMsg b (.peer n) = dropResponse (takeMsg b (.peer n) m) (fld m.hdr 20 6) := by
  simp only [responseMsg, hm]
  exact (if_neg (not_not.2 hdst)).trans ((if_neg (ne_false_of_eq_true hready)).trans (if_pos hstale))

/-- A response without data that its request awaits is its answer. -/
theorem responseMsg_answers {x : Txn} (hstale : staleShift b (fld m.hdr 20 6) (m.hdr.extractLsb' 12 8) = false) (hdata : bit m.hdr 71 = false)
    (hx : b.txns.find? (fun x => decide (x.org = .loc (portOfOrig m.orig)) && x.req.id == m.hdr.extractLsb' 0 8 && x.phase == .active
        && decide (instOf x.req.addr = m.src) && x.op.isRead == decide (fld m.hdr 76 2 = 0)) = some x) :
    responseMsg b (.peer n) = answer (takeMsg b (.peer n) m) x.uid (statusOf (fld m.hdr 8 4)) (b.now + 5) := by
  have hrun : responseMsg b (.peer n) = matchResponse (takeMsg b (.peer n) m) m x := by
    simp only [responseMsg, hm]
    refine (if_neg (not_not.2 hdst)).trans ((if_neg (ne_false_of_eq_true hready)).trans ((if_neg (Bool.eq_false_iff.1 hstale)).trans ?_))
    rw [show (takeMsg b (.peer n) m).txns = b.txns from rfl, hx]
  rw [hrun]
  exact if_pos hdata

/-- A response that nothing awaits is a violation (R321). -/
theorem responseMsg_unawaited (hstale : staleShift b (fld m.hdr 20 6) (m.hdr.extractLsb' 12 8) = false) (hnone : b.txns = [])
    (hinp : m.inp < 4) : responseMsg b (.peer n) = violateMsg (takeMsg b (.peer n) m) m.inp 11 m := by
  simp only [responseMsg, hm]
  refine (if_neg (not_not.2 hdst)).trans ((if_neg (ne_false_of_eq_true hready)).trans ((if_neg (Bool.eq_false_iff.1 hstale)).trans ?_))
  rw [show (takeMsg b (.peer n) m).txns = [] from hnone]
  exact if_pos hinp

end

/-- A response under another shift is counted in its context, and changes nothing else of the requests and contexts (R380). -/
theorem Took.dropResponse {c : Block} (h : Took b c n m) (ctx : Nat) : (dropResponse c ctx).txns = b.txns
    ∧ (ctxOf (dropResponse c ctx) ctx).dropped = min (2 ^ 24 - 1) ((ctxOf b ctx).dropped + 1)
    ∧ ∀ k, k ≠ ctx → ctxOf (dropResponse c ctx) k = ctxOf b k := by
  unfold Machine.dropResponse
  refine ⟨?_, ?_, fun k hk => ?_⟩
  · rw [count_txns]
    exact h.keeps Block.txns
  · rw [ctxOf_count, ctxOf_setCtx_self, h.keeps (ctxOf · ctx)]
    rfl
  · rw [ctxOf_count, ctxOf_setCtx_ne _ _ hk.symm]
    exact h.keeps (ctxOf · k)

/-- A message that breaks a rule at the input it has left: the requests stay, and the violation is counted. -/
theorem violateMsg_took {c : Block} (h : Took b c n m) (code : Nat) :
    (violateMsg c n code m).txns = b.txns
      ∧ tget 0 (linkOf (violateMsg c n code m) n).chk code = min (2 ^ 48 - 1) (tget 0 (linkOf b n).chk code + 1) := by
  obtain ⟨_, _, _, _, hviol⟩ := violate_spec c n code (m.hdr.extractLsb' 0 32) m.chunk m.seq
  refine ⟨(hviol.keeps Block.txns).trans (h.keeps Block.txns), ?_⟩
  rw [violateMsg, hviol.own, h.own]
  exact tget_tset_self ..

end

/-- Settles O59: each clause is the lemma about its message; a message with a route is `Took.passes`, one for this instance has the lemma
of its kind (logs 52, 53, 104). -/
theorem messagesReachTheirRequests : Obligations.MessagesReachTheirRequests := by
  intro s n hok hn b i passes routed
  refine ⟨fun hnone => ?_, fun hnone => ?_, fun hnone => ?_, fun m p hm ⟨hdst, ⟨o, hroute⟩, hstill, hhops⟩ => ?_,
    fun m p hm ⟨hdst, ⟨o, hroute⟩, hstill, hhops⟩ hline => ?_, fun m p hm ⟨hdst, ⟨o, hroute⟩, hstill, hhops⟩ => ?_,
    fun m hm hinp hdst hroute => ?_, fun m o hm hdst hwipe hports hop hon hturn hclosed => ?_, fun m x hm hdst hturn hx hphase _ => ?_,
    fun m hm hdst hturn hx hinp => ?_, fun m hdst hturn => ⟨fun hm => ?_, fun hm => ?_⟩, fun m hm hdst hready => ?_,
    fun m hm hdst hready => ⟨fun hstale => ?_, fun x hstale hdata hx => ?_, fun hinp hstale hempty => ?_⟩⟩
  · exact guarded_eq_next hok (requestMsg_none hnone)
  · exact guarded_eq_next hok (writeLineMsg_none hnone)
  · exact guarded_eq_next hok (responseMsg_none hnone)
  · have hkind := showing_kind hm
    exact ⟨_, guarded_eq_next hok (requestMsg_passesOn hm hdst), (took_takeMsg b n m).openReq.passes hroute hstill hhops
      fun h => absurd (hkind.symm.trans h) (by decide)⟩
  · exact ⟨_, guarded_eq_next hok (writeLineMsg_passesOn hm hdst), (took_takeMsg b n m).passes hroute hstill hhops fun _ => hline⟩
  · have hkind := showing_kind hm
    exact ⟨_, guarded_eq_next hok (responseMsg_passesOn hm hdst), (took_takeMsg b n m).passes hroute hstill hhops
      fun h => absurd (hkind.symm.trans h) (by decide)⟩
  · have htook := (took_takeMsg b n m).openReq
    have hnoroute := (htook.sameRoute m.dst).trans hroute
    obtain ⟨r, t, hans, hresp, hst, hsrc⟩ := noRoute_answers (b := openReq (takeMsg b (.peer n) m) m) (showing_kind hm) (hinp ▸ hn)
    refine ⟨_, r, guarded_eq_next hok ((requestMsg_passesOn hm hdst).trans ((routeOn_noRoute (showing_kind hm) hnoroute).trans hans)), ?_, ?_,
      hresp, hst, hsrc, htook.keeps Block.txns⟩
    · exact congrArg (satAdd 65535 · 1) (htook.keeps (·.cw.noroute))
    · exact congrArg (· ++ [r]) (htook.keeps (·.cw.local_))
  · obtain ⟨u, x, hrun, htook, hadd, horg, hxop, hreq, hphase⟩ := requestMsg_aborts hm hdst hwipe hports hturn hop hon hclosed
    exact ⟨u, x, guarded_eq_next hok hrun, hadd, horg, hxop, hreq, hphase, htook⟩
  · obtain ⟨hmem, hlast⟩ := lineOwner_spec hx
    exact ⟨_, guarded_eq_next hok (writeLineMsg_joins hm hdst hturn hx), joinLine_aborted (b := takeLocal b (.peer n) m) hmem hlast hphase⟩
  · refine ⟨_, guarded_eq_next hok (writeLineMsg_unowned hm hdst hturn hx (hinp ▸ hn)), ?_⟩
    rw [hinp]
    exact violateMsg_took (took_takeLocal b n m) 7
  · exact guarded_eq_next hok (requestMsg_waits hm hdst hturn)
  · exact guarded_eq_next hok (writeLineMsg_waits hm hdst hturn)
  · exact ⟨_, guarded_eq_next hok (responseMsg_early hm hdst hready), rfl, rfl⟩
  · obtain ⟨htxns, hself, hother⟩ := (took_takeMsg b n m).dropResponse (fld m.hdr 20 6)
    exact ⟨_, guarded_eq_next hok (responseMsg_stale hm hdst hready hstale), htxns, hself, hother⟩
  · exact ⟨_, guarded_eq_next hok (responseMsg_answers hm hdst hready hstale hdata hx), rfl⟩
  · obtain ⟨-, hcount⟩ := violateMsg_took (took_takeMsg b n m) 11
    refine ⟨_, guarded_eq_next hok (responseMsg_unawaited hm hdst hready hstale hempty (hinp ▸ hn)), ?_⟩
    rw [hinp]
    exact hcount

end Sys2Proof.Machine
end

section
/-! PROOFS. Step 5 of the boot (R337): the records of an image, the registers that they write among them, leave the outstanding requests as
they are, and so does a causeway that asks for its image. -/

namespace Sys2Proof.Machine

/-- The outstanding requests, and whether the instance asks for its image, are the same. -/
structure Undisturbed (b c : Block) : Prop where
  txns : c.txns = b.txns
  asking : c.cw.asking = b.cw.asking

theorem Undisturbed.refl (b : Block) : Undisturbed b b := ⟨rfl, rfl⟩

section
variable {b c d : Block}

theorem Undisturbed.trans (hbc : Undisturbed b c) (hcd : Undisturbed c d) : Undisturbed b d :=
  ⟨hcd.txns.trans hbc.txns, hcd.asking.trans hbc.asking⟩

theorem Undisturbed.foldl {α : Type} {f : Block → α → Block} (h : ∀ b x, Undisturbed b (f b x)) (l : List α) (b : Block) :
    Undisturbed b (l.foldl f b) :=
  foldl_inv (fun c => Undisturbed b c) f (fun c x hc => hc.trans (h c x)) l b (.refl b)

theorem Undisturbed.ite {p : Prop} [Decidable p] (hc : Undisturbed b c) (hd : Undisturbed b d) : Undisturbed b (if p then c else d) := by
  split
  · exact hc
  · exact hd

theorem Undisturbed.ite_fst {p : Prop} [Decidable p] {c d : Block × Bool} (hc : Undisturbed b c.1) (hd : Undisturbed b d.1) :
    Undisturbed b (if p then c else d).1 := by
  split
  · exact hc
  · exact hd

theorem Sends.undisturbed (h : Sends b c) : Undisturbed b c := ⟨h.keeps Block.txns, h.keeps (·.cw.asking)⟩

theorem undisturbed_emit (b : Block) (ty : Nat) (ch : Option Nat) (x : Option (Nat × BitVec 8)) (p q r w : Word) :
    Undisturbed b (emit b ty ch x p q r w) := (sends_emit b ty ch x p q r w).undisturbed

end

/-! Registers. -/

section
variable (b : Block) (n off : Nat) (v : Word)

theorem writeEvtCtl_undisturbed : Undisturbed b (writeEvtCtl b v) := by
  unfold writeEvtCtl
  exact .ite ⟨rfl, rfl⟩ ⟨rfl, rfl⟩

theorem writeEvtTail_undisturbed (v : BitVec 32) : Undisturbed b (writeEvtTail b v).1 := by
  unfold writeEvtTail
  exact .ite_fst ⟨rfl, rfl⟩ ⟨rfl, rfl⟩

theorem writeCmdTail_undisturbed (v : BitVec 32) : Undisturbed b (writeCmdTail b v).1 := by
  unfold writeCmdTail
  exact .ite_fst ⟨rfl, rfl⟩ ⟨rfl, rfl⟩

theorem writeCplTail_undisturbed (v : BitVec 32) : Undisturbed b (writeCplTail b v).1 := by
  unfold writeCplTail
  exact .ite_fst ⟨rfl, rfl⟩ ⟨rfl, rfl⟩

theorem timeLoadReg_undisturbed : Undisturbed b (timeLoadReg b v) := by
  unfold timeLoadReg
  split <;> exact ⟨rfl, rfl⟩

/-- A global register: its own field, or the command queue and the event ring. -/
theorem writeGlobal_undisturbed : Undisturbed b (writeGlobal b off v).1 := by
  unfold writeGlobal
  split
  case h_5 => exact writeEvtCtl_undisturbed b v
  case h_6 => exact writeEvtTail_undisturbed b _
  case h_11 => exact timeLoadReg_undisturbed b v
  case h_13 => exact writeCmdTail_undisturbed b _
  case h_14 => exact writeCplTail_undisturbed b _
  case h_16 => split <;> [skip; split] <;> exact ⟨rfl, rfl⟩
  all_goals exact ⟨rfl, rfl⟩

theorem eccStart_undisturbed (op : Nat) : Undisturbed b (eccStart b n op) := by
  unfold eccStart
  extract_lets c bankF row word setE
  refine .ite ⟨rfl, rfl⟩ (.ite (.ite ⟨rfl, rfl⟩ ⟨rfl, rfl⟩) (.refl b))

theorem writeChan_undisturbed : Undisturbed b (writeChan b n off v).1 := by
  unfold writeChan
  split
  case h_3 | h_4 => exact .ite ⟨rfl, rfl⟩ (.refl b)
  case h_5 => exact .ite_fst (.refl b) (eccStart_undisturbed ..)
  all_goals exact ⟨rfl, rfl⟩

theorem writeRoute_sends (d w : Nat) : Sends { b with
    cw := { b.cw with route := tset b.cw.route d (w % 65536 &&& 0x8BBB) }
    safety := { b.safety with routeCopy := tset b.safety.routeCopy d (w % 65536 &&& 0x8BBB) } } (writeRoute b d w) :=
  refreshRoute_sends ..

theorem writeRoute_undisturbed (d w : Nat) : Undisturbed b (writeRoute b d w) :=
  .trans (c := { b with
      cw := { b.cw with route := tset b.cw.route d (w % 65536 &&& 0x8BBB) }
      safety := { b.safety with routeCopy := tset b.safety.routeCopy d (w % 65536 &&& 0x8BBB) } })
    ⟨rfl, rfl⟩ (writeRoute_sends b d w).undisturbed

theorem writeCw_undisturbed : Undisturbed b (writeCw b off v) := by
  unfold writeCw
  exact .ite ⟨rfl, rfl⟩ (.ite ⟨rfl, rfl⟩ (.ite (writeRoute_undisturbed ..) (.refl b)))

theorem setLink_undisturbed (f : Link → Link) : Undisturbed b (setLink b n f) := ⟨rfl, rfl⟩

theorem enterLink_undisturbed (st : LState) : Undisturbed b (enterLink b n st) :=
  (setLink_undisturbed b n _).trans (undisturbed_emit ..)

theorem loseLink_undisturbed (st : LState) : Undisturbed b (loseLink b n st) :=
  (setLink_undisturbed b n _).trans (loseLink_sends b n st).undisturbed

theorem disablePort_undisturbed (on : Bool) : Undisturbed b (disablePort b n on) := by
  refine (setLink_undisturbed b n fun l => { l with disable := on }).trans ?_
  unfold disablePort
  extract_lets c
  split
  · exact .ite (.refl c) (enterLink_undisturbed ..)
  · exact .ite (loseLink_undisturbed ..) (.refl c)

theorem startRetrain_undisturbed : Undisturbed b (startRetrain b n) := by
  unfold startRetrain
  exact .ite ((setLink_undisturbed ..).trans (enterLink_undisturbed ..)) (.refl b)

theorem trainPort_undisturbed : Undisturbed b (trainPort b n) := by
  unfold trainPort
  split
  case h_3 => exact .refl b
  all_goals exact (enterLink_undisturbed ..).trans (setLink_undisturbed ..)

/-- PEERn_CTL: the port is cleared, disabled, retrained and trained in this order (R322). -/
theorem writePeer_undisturbed : Undisturbed b (writePeer b n off v) := by
  unfold writePeer
  refine .ite (.refl b) ?_
  extract_lets b1 b2 b3
  have h1 : Undisturbed b b1 := .ite (setLink_undisturbed ..) (.refl b)
  have h2 : Undisturbed b1 b2 := disablePort_undisturbed ..
  have h3 : Undisturbed b2 b3 := .ite (startRetrain_undisturbed ..) (.refl b2)
  exact ((h1.trans h2).trans h3).trans (.ite (trainPort_undisturbed ..) (.refl b3))

/-- What an observation register starts changes the observation alone. -/
theorem undisturbed_of_obs {b c : Block} (h : ∃ o, c = { b with obs := o }) : Undisturbed b c := by
  obtain ⟨_, rfl⟩ := h
  exact ⟨rfl, rfl⟩

theorem endTrace_undisturbed (st : TrcState) : Undisturbed b (endTrace b st) :=
  (undisturbed_of_obs (trcPut_eq b ..)).trans ⟨rfl, rfl⟩

theorem stopTrace_undisturbed : Undisturbed b (stopTrace b) := by
  unfold stopTrace
  split
  case h_3 => exact .refl b
  all_goals exact endTrace_undisturbed ..

theorem armTrace_undisturbed : Undisturbed b (armTrace b) := by
  unfold armTrace
  extract_lets o c
  have hc : Undisturbed b c := ⟨rfl, rfl⟩
  exact (hc.trans (undisturbed_of_obs (traceSync_eq c))).trans (undisturbed_of_obs (traceSys_eq ..))

theorem triggerTrace_undisturbed : Undisturbed b (triggerTrace b) := by
  unfold triggerTrace
  refine .ite ?_ (.refl b)
  extract_lets src o c d o' e
  have hc : Undisturbed b c := ⟨rfl, rfl⟩
  have he : Undisturbed b e := (hc.trans (undisturbed_of_obs (trcPut_eq c ..))).trans ⟨rfl, rfl⟩
  exact .ite (he.trans ⟨rfl, rfl⟩) he

theorem writeTrcCtl_undisturbed : Undisturbed b (writeTrcCtl b v) := by
  unfold writeTrcCtl
  extract_lets o b1 b2 b3
  have h1 : Undisturbed b b1 := ⟨rfl, rfl⟩
  have h2 : Undisturbed b1 b2 := .ite (stopTrace_undisturbed b1) (.refl b1)
  have h3 : Undisturbed b2 b3 := .ite (armTrace_undisturbed b2) (.refl b2)
  exact ((h1.trans h2).trans h3).trans (.ite (triggerTrace_undisturbed b3) (.refl b3))

theorem writeObsCtl_undisturbed : Undisturbed b (writeObsCtl b v) := by
  unfold writeObsCtl
  extract_lets o c
  have hc : Undisturbed b c := .ite ⟨rfl, rfl⟩ (.refl b)
  exact hc.trans ⟨rfl, rfl⟩

theorem writeObs_undisturbed : Undisturbed b (writeObs b off v) := by
  unfold writeObs
  extract_lets o setO
  refine .ite ⟨rfl, rfl⟩ (.ite ⟨rfl, rfl⟩ ?_)
  split
  case h_1 => exact writeObsCtl_undisturbed b v
  case h_2 => exact writeTrcCtl_undisturbed b v
  all_goals exact ⟨rfl, rfl⟩

theorem writeDbg_undisturbed : Undisturbed b (writeDbg b off v).1 := by
  unfold writeDbg
  split
  case h_1 =>
    have hstep : Undisturbed b (stepCores b) := .ite ⟨rfl, rfl⟩ (.refl b)
    exact .trans (.ite hstep (.refl b)) ⟨rfl, rfl⟩
  case h_3 => exact .ite_fst ⟨rfl, rfl⟩ (.refl b)
  all_goals exact ⟨rfl, rfl⟩

/-- A register of any window: a request that is outstanding does not see the write (R468, R477). -/
theorem writeReg_undisturbed : Undisturbed b (writeReg b off v).1 := by
  have hcw : ∀ k, Undisturbed b (writeCw b k v, true).1 := fun k => writeCw_undisturbed b k v
  have hpeer : ∀ k o, Undisturbed b (writePeer b k o v, true).1 := fun k o => writePeer_undisturbed b k o v
  have hobs : ∀ k, Undisturbed b (writeObs b k v, true).1 := fun k => writeObs_undisturbed b k v
  unfold writeReg
  exact .ite_fst (.refl b) (.ite_fst (writeGlobal_undisturbed b off v) (.ite_fst (writeChan_undisturbed b _ _ v) (.ite_fst (hcw _)
    (.ite_fst (hpeer _ _) (.ite_fst (hobs _) (.ite_fst (writeDbg_undisturbed b _ v) (.refl b)))))))

end

/-! Records. -/

theorem runSteps_undisturbed : ∀ (l : List (Block → Block × Nat)) (b : Block), (∀ f ∈ l, ∀ c, Undisturbed c (f c).1) →
    Undisturbed b (runSteps l b).1
  | [], b, _ => .refl b
  | f :: l, b, h => by
    have hf := h f List.mem_cons_self b
    rw [runSteps]
    split
    · next c hc =>
      rw [hc] at hf
      exact hf.trans (runSteps_undisturbed l c fun g hg => h g (List.mem_cons_of_mem f hg))
    · exact hf

theorem applyEach_undisturbed {α : Type} (ok : α → Bool) {f : Block → α → Block} (hf : ∀ b x, Undisturbed b (f b x)) :
    ∀ (l : List α) (b : Block), Undisturbed b (applyEach ok f l b).1
  | [], b => .refl b
  | x :: l, b => by
    rw [applyEach]
    split
    · exact (hf b x).trans (applyEach_undisturbed ok hf l (f b x))
    · exact .refl b

section
variable (b : Block)

theorem applySafety_undisturbed (e : Nat × Word) : Undisturbed b (applySafety b e) := by
  unfold applySafety
  extract_lets v
  split <;> exact ⟨rfl, rfl⟩

theorem bootSwitch_undisturbed (ch bank onto : Nat) : Undisturbed b (bootSwitch b ch bank onto) := by
  unfold bootSwitch
  extract_lets c d
  have hc : Undisturbed b c := ⟨rfl, rfl⟩
  have hd : Undisturbed c d := undisturbed_emit ..
  exact (hc.trans hd).trans ⟨rfl, rfl⟩

theorem applyRetire_undisturbed (r : Block × Bool) (e : Nat) : Undisturbed r.1 (applyRetire r e).1 := by
  unfold applyRetire
  extract_lets bank ch
  split
  · exact .refl r.1
  split
  · exact .refl r.1
  split
  · exact .refl r.1
  · exact bootSwitch_undisturbed ..

theorem loadRetire_undisturbed (l : List Nat) : Undisturbed b (loadRetire l b).1 := by
  have hfold : Undisturbed b (l.foldl applyRetire (b, true)).1 :=
    foldl_inv (fun r : Block × Bool => Undisturbed b r.1) applyRetire (fun r e hr => hr.trans (applyRetire_undisturbed r e)) l (b, true) (.refl b)
  unfold loadRetire
  split
  · exact .refl b
  · split
    all_goals next c hc =>
      rw [hc] at hfold
      exact hfold

theorem loadSeams_undisturbed (store : Nat) (l : List Seam) : Undisturbed b (loadSeams store l b).1 := by
  unfold loadSeams
  split <;> exact ⟨rfl, rfl⟩

theorem applyRoster_undisturbed (rs : List ImgRec) (i r : Nat) : Undisturbed b (applyRoster rs i b r) := by
  unfold applyRoster
  extract_lets recs c
  have hc : Undisturbed b c := .foldl (fun d e => by split <;> exact ⟨rfl, rfl⟩) recs b
  exact .ite (hc.trans ⟨rfl, rfl⟩) hc

theorem admitAll_undisturbed : Undisturbed b (admitAll b) := by
  unfold admitAll
  extract_lets declared rosters verdicts rule adm a c
  have hc : Undisturbed b c := ⟨rfl, rfl⟩
  refine hc.trans (.foldl (fun d v => ?_) verdicts c)
  split
  · exact .refl d
  · exact .ite (.refl d) (undisturbed_emit ..)

theorem checkNbr_undisturbed (n : Nat) : Undisturbed b (checkNbr b n) := by
  unfold checkNbr
  split
  · exact .ite (loseLink_undisturbed ..) (.refl b)
  · exact .refl b

theorem applyRoutes_undisturbed (r : ImgRec) : Undisturbed b (applyRoutes b r) := by
  unfold applyRoutes
  extract_lets c nbr w z d
  have hc : Undisturbed b c := .foldl (fun e k => writeRoute_undisturbed e k _) _ b
  have hd : Undisturbed c d := ⟨rfl, rfl⟩
  exact (hc.trans hd).trans (.foldl checkNbr_undisturbed _ d)

theorem loadRoutes_undisturbed (r : Option ImgRec) : Undisturbed b (loadRoutes r b) := by
  unfold loadRoutes
  split
  · exact applyRoutes_undisturbed ..
  · exact ⟨rfl, rfl⟩

theorem loadPower_undisturbed (p : Option Word) : Undisturbed b (loadPower p b).1 := by
  unfold loadPower
  split
  · split <;> exact ⟨rfl, rfl⟩
  · exact .refl b

/-- The records of an image, as far as they can be applied (R337). -/
theorem loadRecords_undisturbed (img : List Byte) : Undisturbed b (loadRecords b img).1 := by
  unfold loadRecords
  split
  · exact .refl b
  · next rs _ =>
    refine runSteps_undisturbed _ b ?_
    simp only [List.forall_mem_cons, List.not_mem_nil, false_implies, implies_true, and_true]
    refine ⟨fun c => ?_, fun c => loadRetire_undisturbed c _, fun c => loadSeams_undisturbed c .., fun c => ?_,
      fun c => loadRoutes_undisturbed c _, fun c => loadPower_undisturbed c _, fun c => ?_, fun c => ⟨rfl, rfl⟩⟩
    · have hfirm : Undisturbed c (loadFirmware rs c) := ⟨rfl, rfl⟩
      exact hfirm.trans (applyEach_undisturbed safetyOk applySafety_undisturbed _ _)
    · exact (Undisturbed.foldl (fun d r => applyRoster_undisturbed d rs _ r) _ c).trans (admitAll_undisturbed _)
    · exact applyEach_undisturbed _ (fun d e => writeReg_undisturbed d ..) _ c

/-- A boot that fails has phase 15 from now on (R340). -/
theorem bootFail_undisturbed (cause : Nat) : Undisturbed b (bootFail b cause) ∧ (bootFail b cause).bring.phase = 15 := by
  unfold bootFail
  extract_lets r c
  have hc : Undisturbed b c := ⟨rfl, rfl⟩
  obtain ⟨_, _, _, hcycle⟩ := powerCycle_ite_eq (bit (emit c 0x50 none none (bootStat c)).regs.recovCtl 3) (emit c 0x50 none none (bootStat c))
  have hemit := hc.trans (undisturbed_emit c 0x50 none none (bootStat c) 0 0 0)
  rw [escalatePower, hcycle]
  exact ⟨⟨hemit.txns, hemit.asking⟩, by simp [c]⟩

/-- Step 5 of the boot ends in phase 4, or fails (R337, R340). -/
theorem bootLoad_undisturbed : Undisturbed b (bootLoad b) ∧ ((bootLoad b).bring.phase = 4 ∨ (bootLoad b).bring.phase = 15) := by
  have hload := loadRecords_undisturbed b b.bring.store
  unfold bootLoad
  split
  · split
    · next c hc =>
      rw [hc] at hload
      exact ⟨hload.trans ⟨rfl, rfl⟩, .inl rfl⟩
    · next c k _ hc =>
      rw [hc] at hload
      obtain ⟨hfail, hphase⟩ := bootFail_undisturbed c k
      exact ⟨hload.trans hfail, .inr hphase⟩
  · obtain ⟨hfail, hphase⟩ := bootFail_undisturbed b _
    exact ⟨hfail, .inr hphase⟩

end

end Sys2Proof.Machine
end

section
/-! PROOFS. Control messages of the boot and of the aborts (R315 to R317, R319, R320). -/

namespace Sys2Proof.Machine

/-- The outstanding requests, the channels, the seams and the registers are as they were. -/
def SameCore (b u : Block) : Prop := u.txns = b.txns ∧ u.chans = b.chans ∧ u.seams = b.seams ∧ u.regs = b.regs

theorem SameCore.refl (b : Block) : SameCore b b := ⟨rfl, rfl, rfl, rfl⟩

theorem SameCore.trans {b c d : Block} : SameCore b c → SameCore c d → SameCore b d := by
  rintro ⟨h1, h2, h3, h4⟩ ⟨k1, k2, k3, k4⟩
  exact ⟨k1.trans h1, k2.trans h2, k3.trans h3, k4.trans h4⟩

theorem Sends.sameCore {b c : Block} (h : Sends b c) : SameCore b c :=
  ⟨h.keeps Block.txns, h.keeps Block.chans, h.keeps Block.seams, h.keeps Block.regs⟩

section
variable {b : Block} {n : Nat} {m : Msg}

theorem takeMsg_sameCore (b : Block) (n : Nat) (m : Msg) : SameCore b (takeMsg b (.peer n) m) := ⟨rfl, rfl, rfl, rfl⟩

/-! No message of the type at the input. -/

theorem beaconIn_none (h : showingCtl b (.peer n) 2 = none) : beaconIn b n = b := by simp only [beaconIn, h]
theorem onBootMsg_none {t : Nat} (h : showingCtl b (.peer n) t = none) (f : Block → Msg → Block) : onBootMsg b n t f = b := by
  simp only [onBootMsg, h]
theorem imageAckIn_none (h : showingCtl b (.peer n) 5 = none) : imageAckIn b (.peer n) = b := by simp only [imageAckIn, h]
theorem abortIn_none (h : showingCtl b (.peer n) 7 = none) (a : Arrays) : abortIn a b n = b := by simp only [abortIn, h]
theorem bootReqIn_none (h : showingCtl b (.peer n) 12 = none) : bootReqIn b n = b := by simp only [bootReqIn, h]

/-- The arrays are written where the image becomes complete, and only there. -/
theorem imageEndIn_kept {u : Block} (hu : onBootMsg b n 4 (fun b m => endImage b n m) = u) (h : u.cw.imageOk = b.cw.imageOk ∨ u.cw.imageOk = false)
    (a : Arrays) : imageEndIn a b n = (a, u) := by
  subst hu
  refine congrArg (·, _) (if_neg fun ⟨hset, hwas⟩ => ?_)
  obtain h | h := h
  · exact absurd (hset.symm.trans (h.trans hwas)) (by decide)
  · exact absurd (hset.symm.trans h) (by decide)

/-! BEACON (R315). -/

/-- The worker's parent and its pithead, as it takes a BEACON. -/
theorem takeBeacon_sends (b : Block) (p : Nat) (f : Msg) :
    Sends { b with cw := { b.cw with parent := some p, pitheadInst := f.src, beaconHops := f.hops } } (takeBeacon b p f) := flood_sends ..

theorem beaconIn_first (hm : showingCtl b (.peer n) 2 = some m) (hworker : isPithead b = false) (hwaits : bootWaits b = false)
    (hparent : b.cw.parent = none) (hstarted : b.cw.started = false) : beaconIn b n =
      takeBeacon (takeMsg b (.peer n) m) ((firstBeacon b).getD (n, m)).1 ((firstBeacon b).getD (n, m)).2 := by
  simp only [beaconIn, hm, hworker, hwaits, hparent, hstarted, Option.isSome_none, Bool.false_eq_true, if_false]

theorem beaconIn_higher (hm : showingCtl b (.peer n) 2 = some m) (hpithead : isPithead b = true) (hsrc : b.cw.instNum ≤ m.src) :
    beaconIn b n = takeMsg b (.peer n) m := by
  simp only [beaconIn, hm]
  exact (if_pos hpithead).trans (if_neg (Nat.not_lt.2 hsrc))

/-! The image (R316). -/

/-- The block as a boot control message is handled: the message has left its input, and an instance that asks notes its pithead. -/
def bootTaken (b : Block) (n : Nat) (m : Msg) : Block :=
  { takeMsg b (.peer n) m with cw := { (takeMsg b (.peer n) m).cw with pitheadInst := if b.cw.asking then m.src else b.cw.pitheadInst } }

theorem bootTaken_sameCore (b : Block) (n : Nat) (m : Msg) : SameCore b (bootTaken b n m) := ⟨rfl, rfl, rfl, rfl⟩

theorem onBootMsg_taken {t : Nat} (hm : showingCtl b (.peer n) t = some m) (htake : bootMsg b n m = .take) (hown : m.bcast = false)
    (f : Block → Msg → Block) : onBootMsg b n t f = f (bootTaken b n m) m := by
  have hpass : passDown (takeMsg b (.peer n) m) n m = takeMsg b (.peer n) m := if_neg fun h => absurd (hown.symm.trans h.1) (by decide)
  simp only [onBootMsg, hm, htake, hpass]
  refine congrArg (f · m) ?_
  have hasking : (takeMsg b (.peer n) m).cw.asking = b.cw.asking := rfl
  rw [hasking, bootTaken]
  split <;> rfl

theorem keepImage_open (hopen : b.cw.imageOk = false) (m : Msg) :
    keepImage b m = { b with cw := { b.cw with bootBytes := tset b.cw.bootBytes (fld m.hdr 21 24 / 128) (m.data.getD 0) } } :=
  if_neg (ne_true_of_eq_false hopen)

theorem sendAck_sends (b : Block) (n : Nat) (ok : Bool) : Sends b (sendAck b n ok) := by
  unfold sendAck
  dsimp only
  split
  · exact sendTo_sends ..
  · exact towardPithead_sends ..

/-- A complete image with its check is in the store, and its bytes are no longer kept. -/
theorem endImage_whole {l : List Byte} (hopen : b.cw.imageOk = false) (hbytes : imageBytes b (fld m.hdr 21 25) = some l)
    (hcheck : (crc32c l).toNat = fld m.hdr 46 32) : Sends { b with
      bring := { b.bring with store := packStore b l }, cw := { b.cw with imageOk := true, bootBytes := [] } } (endImage b n m) := by
  have hwhole : wholeImage b m = some l := by
    rw [wholeImage, hbytes]
    exact Option.filter_some_pos (decide_eq_true hcheck)
  simp only [endImage, hwhole, hopen, Bool.false_eq_true, if_false]
  exact sendAck_sends ..

/-- Bytes that do not make an image are dropped. -/
theorem endImage_broken (hopen : b.cw.imageOk = false) (hbytes : imageBytes b (fld m.hdr 21 25) = none) :
    Sends { b with cw := { b.cw with bootBytes := [] } } (endImage b n m) := by
  have hwhole : wholeImage b m = none := by
    rw [wholeImage, hbytes]
    rfl
  simp only [endImage, hwhole, hopen, Bool.false_eq_true, if_false]
  refine (sendAck_sends _ n false).trans ?_
  split
  · exact sendTo_sends ..
  · exact towardPithead_sends ..

/-- START without GO leaves the instance as it is; one with GO loads the image that it has. -/
theorem startWorker_waits (hgo : bit m.hdr 21 = false) : startWorker b m = b := by
  simp only [startWorker, hgo, Bool.false_and, Bool.false_eq_true, if_false]

theorem startWorker_goes (hgo : bit m.hdr 21 = true) (hok : b.cw.imageOk = true) :
    startWorker b m = bootLoad { b with cw := { b.cw with asking := false } } := by
  simp only [startWorker, hgo, hok, Bool.true_and, if_true]

/-! The pithead's answers (R316, R317). -/

theorem fromPithead_sends (b : Block) (i : Nat) (f : Bool → Msg) : Sends b (fromPithead b i f) := by
  unfold fromPithead
  split
  · exact routeCtl_sends ..
  · exact flood_sends ..

theorem restoreRoutes_sends (b : Block) (i : Nat) : Sends b (restoreRoutes b i) := .foldl (fun c _ => routeCtl_sends c _) _ b

theorem imageAckIn_own (hm : showingCtl b (.peer n) 5 = some m) (hdst : m.dst = b.cw.instNum) (hpithead : isPithead b = true) :
    imageAckIn b (.peer n) = takeAckMsg (takeMsg b (.peer n) m) m := by
  simp only [imageAckIn, hm]
  exact (if_neg (not_not.2 hdst)).trans (if_pos hpithead)

theorem takeAckMsg_refused (hok : bit m.hdr 21 = false) : Sends b (takeAckMsg b m) := by
  rw [takeAckMsg, if_pos hok]
  exact fromPithead_sends ..

theorem contains_added (l : List Nat) (k : Nat) : (if l.contains k then l else l ++ [k]).contains k = true := by
  split
  · assumption
  · simp

/-- An acknowledgement is noted: the instance has been heard of. -/
def ackNoted (b : Block) (s : Nat) : Block :=
  { b with cw := { b.cw with acked := b.cw.acked ++ [s], heard := if b.cw.heard.contains s then b.cw.heard else b.cw.heard ++ [s] } }

/-- START has gone to an instance: it is no longer off. -/
def startNoted (b : Block) (s : Nat) : Block :=
  { b with cw := { b.cw with
      offGranted := b.cw.offGranted.filter (fun i => i != s)
      sentStart := if b.cw.sentStart.contains s then b.cw.sentStart else b.cw.sentStart ++ [s] } }

theorem takeAckMsg_first (hok : bit m.hdr 21 = true) (hsrc : m.src ≠ b.cw.instNum) (hfirst : b.cw.acked.contains m.src = false) :
    ∃ e, Sends (ackNoted b m.src) e ∧ takeAckMsg b m = startNoted e m.src := by
  have hknown : ¬(m.src = b.cw.instNum ∨ b.cw.acked.contains m.src = true) := not_or.2 ⟨hsrc, ne_true_of_eq_false hfirst⟩
  have hsent (d : Block) : Sends d (restoreRoutes (sendStart d m.src true) m.src) :=
    (fromPithead_sends d ..).trans (restoreRoutes_sends ..)
  refine ⟨_, .trans ?_ (hsent _), (if_neg (ne_false_of_eq_true hok)).trans (if_neg hknown)⟩
  split
  · exact sends_emit ..
  · exact .refl _

/-- The first acknowledgement of an instance is noted, and its START and its routes are sent. -/
theorem ackFirst_noted {e : Block} {s : Nat} (h : Sends (ackNoted b s) e) : (startNoted e s).cw.acked = b.cw.acked ++ [s]
    ∧ (startNoted e s).cw.sentStart.contains s = true ∧ (startNoted e s).cw.heard.contains s = true ∧ SameCore b (startNoted e s) := by
  have hcore : SameCore b (ackNoted b s) := ⟨rfl, rfl, rfl, rfl⟩
  have hheard : (startNoted e s).cw.heard = (ackNoted b s).cw.heard := h.keeps (·.cw.heard)
  refine ⟨h.keeps (·.cw.acked), contains_added e.cw.sentStart s, ?_, hcore.trans h.sameCore⟩
  rw [hheard]
  exact contains_added b.cw.heard s

/-- The image goes to an instance again, whose acknowledgement is awaited anew. -/
theorem resendImage_sends (b : Block) (i : Nat) :
    Sends { b with cw := { b.cw with acked := b.cw.acked.filter (fun k => k != i) } } (resendImage b i) := by
  unfold resendImage
  dsimp only
  split
  · exact .foldl routeCtl_sends _ _
  · exact .foldl (fun c m => flood_sends c none m) _ _

theorem wakeServe_on (hon : b.power.inst = .on) : wakeServe b = b := if_neg (by rw [hon]; decide)

theorem bootReqIn_pithead (hm : showingCtl b (.peer n) 12 = some m) (hpithead : isPithead b = true) (himage : b.cw.imageReady = true)
    (hready : isReady b = true) (hon : b.power.inst = .on) : bootReqIn b n = resendImage (takeMsg b (.peer n) m) m.src := by
  have hawake : wakeServe (takeMsg b (.peer n) m) = takeMsg b (.peer n) m := wakeServe_on hon
  simp only [bootReqIn, hm, hpithead, himage, hready, hawake, Bool.and_true, if_true]

theorem bootReqIn_waits (hm : showingCtl b (.peer n) 12 = some m) (hpithead : isPithead b = true) (himage : b.cw.imageReady = false) :
    bootReqIn b n = b := by
  simp only [bootReqIn, hm, hpithead, himage, Bool.false_and, Bool.false_eq_true, if_false, if_true]

theorem bootReqIn_worker (hm : showingCtl b (.peer n) 12 = some m) (hworker : isPithead b = false) :
    Sends (takeMsg b (.peer n) m) (bootReqIn b n) := by
  simp only [bootReqIn, hm, hworker, Bool.false_eq_true, if_false]
  split <;> exact towardPithead_sends ..

theorem workerMissing_eq {k : Nat} (hpithead : isPithead b = true) (himage : b.cw.imageReady = true)
    (hmesh : (meshOf (storeRecs b)).contains k = true) (hheard : b.cw.heard.contains k = false) (hk : k ≠ b.cw.instNum)
    (hdue : usDue b b.bring.releasedUs 80000 = true) : workerMissing b k =
      if b.cw.missing.contains k then b else emit { b with cw := { b.cw with missing := b.cw.missing ++ [k] } } 0x47 none none (put 0 6 k) := by
  cases hmissing : b.cw.missing.contains k <;>
    simp only [workerMissing, hpithead, himage, hmesh, hheard, bne_iff_ne.2 hk, hdue, hmissing, Bool.not_true, Bool.not_false, Bool.and_true,
      Bool.and_false, Bool.false_eq_true, if_true, if_false]

/-! ABORT (R319, R320). -/

theorem abortIn_again (hm : showingCtl b (.peer n) 7 = some m) (hseen : (tget [] b.cw.seen m.src).contains (fld m.hdr 67 8) = true) (a : Arrays) :
    abortIn a b n = takeMsg b (.peer n) m := by
  simp only [abortIn, hm]
  exact if_pos hseen

/-- The block as it floods an ABORT that is new to it. -/
def abortNoted (b : Block) (n : Nat) (m : Msg) : Block :=
  { noteSeen (takeMsg b (.peer n) m) m.src (fld m.hdr 67 8) with
    cw := { (noteSeen (takeMsg b (.peer n) m) m.src (fld m.hdr 67 8)).cw with aborts := satAdd 65535 b.cw.aborts 1 } }

theorem abortNoted_seen (b : Block) (n : Nat) (m : Msg) :
    tget [] (abortNoted b n m).cw.seen m.src = (fld m.hdr 67 8 :: tget [] b.cw.seen m.src).take 32 := tget_tset_self ..

/-- An instance that is not ready floods an ABORT that is new to it, and nothing else. -/
theorem abortIn_first (hm : showingCtl b (.peer n) 7 = some m) (hnew : (tget [] b.cw.seen m.src).contains (fld m.hdr 67 8) = false)
    (hready : isReady b = false) (a : Arrays) : Sends (abortNoted b n m) (abortIn a b n) := by
  have hflood := flood_sends (abortNoted b n m) (some n) m
  have hidle : isReady (flood (abortNoted b n m) (some n) m) = false := (hflood.keeps isReady).trans hready
  have hrun : abortIn a b n = flood (abortNoted b n m) (some n) m := by
    simp only [abortIn, hm]
    exact (if_neg (ne_true_of_eq_false hnew)).trans (if_pos hidle)
  rw [hrun]
  exact hflood

end

end Sys2Proof.Machine
end

section
/-! PROOFS. Control messages of the routes and the off plans (R307, R314, R361). -/

namespace Sys2Proof.Machine

section
variable {b : Block} {n : Nat} {m : Msg}

theorem routeSetIn_none (h : showingCtl b (.peer n) 8 = none) : routeSetIn b (.peer n) = b := by simp only [routeSetIn, h]
theorem routeAckIn_none (h : showingCtl b (.peer n) 9 = none) : routeAckIn b (.peer n) = b := by simp only [routeAckIn, h]
theorem offReqIn_none (h : showingCtl b (.peer n) 10 = none) : offReqIn b (.peer n) = b := by simp only [offReqIn, h]
theorem offAckIn_none (h : showingCtl b (.peer n) 11 = none) : offAckIn b (.peer n) = b := by simp only [offAckIn, h]

/-! ROUTE_SET (R307). -/

/-- A ROUTEd entry as it is written, with the sequencer's copy. -/
def routeNoted (b : Block) (d v : Nat) : Block :=
  { b with
    cw := { b.cw with route := tset b.cw.route d (v % 65536 &&& 0x8BBB) }
    safety := { b.safety with routeCopy := tset b.safety.routeCopy d (v % 65536 &&& 0x8BBB) } }

theorem routeSetIn_own (hm : showingCtl b (.peer n) 8 = some m) (hdst : m.dst = b.cw.instNum) :
    Sends (routeNoted (takeMsg b (.peer n) m) (fld m.hdr 37 6) (fld m.hdr 21 16)) (routeSetIn b (.peer n)) := by
  have hrun : routeSetIn b (.peer n) =
      routeCtl (writeRoute (takeMsg b (.peer n) m) (fld m.hdr 37 6) (fld m.hdr 21 16))
        (ctlMsg (writeRoute (takeMsg b (.peer n) m) (fld m.hdr 37 6) (fld m.hdr 21 16)) 9 m.src false 0) := by
    simp only [routeSetIn, hm]
    exact if_neg (not_not.2 hdst)
  rw [hrun]
  exact (writeRoute_sends ..).trans (routeCtl_sends ..)

/-! Off plans (R314). -/

/-- An off plan that has ended: it no longer runs, and one that is granted is noted. -/
def planEnded (b : Block) (i : Nat) (granted : Bool) : Block :=
  { b with cw := { b.cw with
      offPlans := b.cw.offPlans.filter (fun p => p.inst != i)
      offGranted := if granted && !b.cw.offGranted.contains i then b.cw.offGranted ++ [i] else b.cw.offGranted } }

theorem sendOffAck_sends (b : Block) (i : Nat) (granted : Bool) : Sends (planEnded b i granted) (sendOffAck b i granted) := by
  have hrun : sendOffAck b i granted =
      routeCtl (planEnded b i granted) (ctlMsg (planEnded b i granted) 11 i false (if granted then 2 ^ 21 else 0)) := by
    refine congrArg (fun c => routeCtl c (ctlMsg c 11 i false (if granted then 2 ^ 21 else 0))) ?_
    unfold planEnded
    dsimp only
    split <;> rfl
  rw [hrun]
  exact routeCtl_sends ..

theorem planEnded_sameCore (b : Block) (i : Nat) (granted : Bool) : SameCore b (planEnded b i granted) := ⟨rfl, rfl, rfl, rfl⟩

theorem planEnded_granted (b : Block) (i : Nat) : (planEnded b i true).cw.offGranted.contains i = true := by
  cases h : b.cw.offGranted.contains i
  · simp only [planEnded, h, Bool.not_false, Bool.and_self, if_true]
    simp
  · simp only [planEnded, h, Bool.not_true, Bool.and_false, Bool.false_eq_true, if_false]

theorem planEnded_last {p : OffPlan} (h : b.cw.offPlans = [p]) (granted : Bool) : (planEnded b p.inst granted).cw.offPlans = [] := by
  simp [planEnded, h]

/-- The one plan that runs as a ROUTE_ACK has come for it. -/
def planAcked (b : Block) (n : Nat) (m : Msg) (p : OffPlan) : Block :=
  { takeMsg b (.peer n) m with cw := { (takeMsg b (.peer n) m).cw with offPlans := [{ p with waiting := p.waiting.erase m.src }] } }

theorem routeAckIn_own (hm : showingCtl b (.peer n) 9 = some m) (hdst : m.dst = b.cw.instNum) {p : OffPlan} (hplan : b.cw.offPlans = [p])
    (hwaits : p.waiting.contains m.src = true) : routeAckIn b (.peer n) =
      if (p.waiting.erase m.src).isEmpty then sendOffAck (planAcked b n m p) p.inst true else planAcked b n m p := by
  have hplan' : (takeMsg b (.peer n) m).cw.offPlans = [p] := hplan
  simp only [routeAckIn, hm]
  refine (if_neg (not_not.2 hdst)).trans ?_
  simp only [hplan', List.find?_cons, hwaits, List.map_cons, List.map_nil, if_true]
  rfl

theorem offReqIn_worker (hm : showingCtl b (.peer n) 10 = some m) (hdst : m.dst = b.cw.instNum) (hworker : isPithead b = false) :
    offReqIn b (.peer n) = takeMsg b (.peer n) m := by
  simp only [offReqIn, hm]
  exact (if_neg (not_not.2 hdst)).trans (if_pos hworker)

theorem offReqIn_waits (hm : showingCtl b (.peer n) 10 = some m) (hdst : m.dst = b.cw.instNum) (hpithead : isPithead b = true)
    (hready : isReady b = false) : offReqIn b (.peer n) = b := by
  simp only [offReqIn, hm]
  exact (if_neg (not_not.2 hdst)).trans ((if_neg (ne_false_of_eq_true hpithead)).trans (if_neg (ne_true_of_eq_false hready)))

theorem startOffPlan_none {i : Nat} (hi : i ≠ b.cw.instNum) (hplan : offPlanOf (storeRecs b) i = []) :
    startOffPlan b i = sendOffAck b i true := by
  unfold startOffPlan
  dsimp only
  rw [if_neg fun h => hi h.1, hplan]
  exact if_pos rfl

/-- An instance without an off plan is granted at once. -/
theorem offReqIn_granted (hm : showingCtl b (.peer n) 10 = some m) (hdst : m.dst = b.cw.instNum) (hpithead : isPithead b = true)
    (hready : isReady b = true) (hon : b.power.inst = .on) (hsrc : m.src ≠ b.cw.instNum) (hplan : offPlanOf (storeRecs b) m.src = []) :
    offReqIn b (.peer n) = sendOffAck (takeMsg b (.peer n) m) m.src true := by
  have hawake : wakeServe (takeMsg b (.peer n) m) = takeMsg b (.peer n) m := wakeServe_on hon
  have hstart : startOffPlan (takeMsg b (.peer n) m) m.src = sendOffAck (takeMsg b (.peer n) m) m.src true := startOffPlan_none hsrc hplan
  simp only [offReqIn, hm]
  refine (if_neg (not_not.2 hdst)).trans ((if_neg (ne_false_of_eq_true hpithead)).trans ((if_pos hready).trans ?_))
  rw [hawake, hstart]

theorem offAckIn_own (hm : showingCtl b (.peer n) 11 = some m) (hdst : m.dst = b.cw.instNum) :
    offAckIn b (.peer n) = offAnswer (takeMsg b (.peer n) m) (bit m.hdr 21) := by
  simp only [offAckIn, hm]
  exact if_neg (not_not.2 hdst)

section
variable {h : Handshake} (hhs : b.power.hs = some h) (hphase : h.phase = .offAck)
include hhs hphase

/-- OFF_ACK with a grant: the handshake goes on. -/
theorem offAnswer_granted :
    offAnswer b true = { b with power := { b.power with hs := some { h with phase := .ask, granted := true, fromUs := usNow b } } } := by
  simp only [offAnswer, hhs]
  exact if_neg (not_not.2 hphase)

/-- OFF_ACK without one: the handshake has ended. -/
theorem offAnswer_refused : (offAnswer b false).power.hs = none ∧ (offAnswer b false).power.refuseReason = 7 ∧ SameCore b (offAnswer b false) := by
  have hrun : offAnswer b false = abandonHs b 7 0 := by
    simp only [offAnswer, hhs]
    exact if_neg (not_not.2 hphase)
  rw [hrun]
  simp only [abandonHs, hhs]
  obtain ⟨_, hq⟩ := completeIf_eq (emit { b with power := { b.power with hs := none, refuseReason := 7, refuseCh := 0 } } 0x59 none none
    (put 0 3 h.target ||| put 4 4 7 ||| put 8 3 0)) h.cmd cRefused 7 (put 0 3 0)
  rw [hq]
  have hemit := sends_emit { b with power := { b.power with hs := none, refuseReason := 7, refuseCh := 0 } } 0x59 none none
    (put 0 3 h.target ||| put 4 4 7 ||| put 8 3 0) 0 0 0
  exact ⟨hemit.keeps (·.power.hs), hemit.keeps (·.power.refuseReason), hemit.sameCore⟩

end

/-! OFF_PLAN_TIMEOUT (R314). -/

theorem offPlanTimeout_early (h : b.cw.offPlans.all (fun p => !usDue b p.fromUs 10000) = true) : offPlanTimeout b = b := by
  have hnone : b.cw.offPlans.filter (fun p => usDue b p.fromUs 10000) = [] := by
    refine List.filter_eq_nil_iff.2 fun p hp hdue => ?_
    have hearly := List.all_eq_true.1 h p hp
    rw [hdue] at hearly
    exact absurd hearly (by decide)
  rw [offPlanTimeout, hnone]
  rfl

theorem offPlanTimeout_due {p : OffPlan} (hplan : b.cw.offPlans = [p]) (hdue : usDue b p.fromUs 10000 = true) :
    offPlanTimeout b = sendOffAck b p.inst false := by
  simp only [offPlanTimeout, hplan, List.filter_cons, hdue, if_true, List.filter_nil, List.foldl_cons, List.foldl_nil]

/-! ROUTE_CHANGE_RELEASE (R307). -/

theorem sendTo_changing (b : Block) (p : Nat) (m : Msg) : (sendTo b p m).cw.changing = b.cw.changing := by
  unfold sendTo
  split
  · rfl
  · dsimp only
    split
    · rw [queueTo, setLink, count_cw]
    · rfl

theorem sendRouted_changing (b : Block) (d p : Nat) (m : Msg) : (sendRouted b d p m).cw.changing = b.cw.changing := by
  unfold sendRouted
  split
  · rfl
  · exact sendTo_changing ..

theorem routeMsg_changing (b : Block) (m : Msg) : (routeMsg b m).1.cw.changing = b.cw.changing := by
  unfold routeMsg
  split
  · exact sendRouted_changing ..
  · rfl

/-- The channels, the seams, the registers, and the destinations whose routes change, are as they were. -/
structure SameRouting (b u : Block) : Prop where
  chans : u.chans = b.chans
  seams : u.seams = b.seams
  regs : u.regs = b.regs
  changing : u.cw.changing = b.cw.changing

theorem SameRouting.refl (b : Block) : SameRouting b b := ⟨rfl, rfl, rfl, rfl⟩

theorem SameRouting.trans {b c d : Block} (hbc : SameRouting b c) (hcd : SameRouting c d) : SameRouting b d :=
  ⟨hcd.chans.trans hbc.chans, hcd.seams.trans hbc.seams, hcd.regs.trans hbc.regs, hcd.changing.trans hbc.changing⟩

theorem routeMsg_sameRouting (b : Block) (m : Msg) : SameRouting b (routeMsg b m).1 :=
  have hsends := routeMsg_sends b m
  ⟨hsends.keeps Block.chans, hsends.keeps Block.seams, hsends.keeps Block.regs, routeMsg_changing b m⟩

theorem noRoute_sameRouting (b : Block) (m : Msg) : SameRouting b (noRoute b m) := by
  unfold noRoute
  extract_lets w c r
  have hc : SameRouting b c := ⟨rfl, rfl, rfl, rfl⟩
  split
  · split
    · split
      · exact ⟨rfl, rfl, rfl, rfl⟩
      · exact hc
    · exact hc
  · exact ⟨rfl, rfl, rfl, rfl⟩

/-- A message that goes on changes none of these, whether it has a route or not. -/
theorem routeOn_sameRouting (b : Block) (m : Msg) : SameRouting b (routeOn b m) := by
  have hrouted := routeMsg_sameRouting b m
  unfold routeOn
  split
  · exact .refl b
  · generalize routeMsg b m = r at hrouted
    split
    case h_2 => exact hrouted.trans (noRoute_sameRouting ..)
    case h_3 => exact hrouted.trans ⟨rfl, rfl, rfl, rfl⟩
    all_goals exact hrouted

theorem routeOns_sameRouting (l : List (Nat × Nat × Msg)) (b : Block) : SameRouting b (l.foldl (fun b e => routeOn b e.2.2) b) :=
  foldl_inv (fun c => SameRouting b c) _ (fun c e hc => hc.trans (routeOn_sameRouting c e.2.2)) l b (.refl b)

/-- The block as destination `d` is released: its messages go on. -/
def routeReleased (b : Block) (d : Nat) : Block :=
  { b with cw := { b.cw with changing := tset b.cw.changing d 0, held := b.cw.held.filter (fun e => e.1 != d) } }

section
variable {d : Nat}

theorem routeRelease_waits (h : tget 0 b.cw.changing d = 0 ∨ portBusy (linkOf b (tget 0 b.cw.changing d - 1)) d = true) :
    routeRelease b d = b := if_pos h

variable (hchanging : tget 0 b.cw.changing d ≠ 0) (hidle : portBusy (linkOf b (tget 0 b.cw.changing d - 1)) d = false)
include hchanging hidle

theorem routeRelease_runs :
    routeRelease b d = (b.cw.held.filter (fun e => e.1 == d)).foldl (fun b e => routeOn b e.2.2) (routeReleased b d) :=
  if_neg (not_or.2 ⟨hchanging, ne_true_of_eq_false hidle⟩)

/-- The destination is released, and what routes do not change stays. -/
theorem routeRelease_sameRouting : SameRouting (routeReleased b d) (routeRelease b d) := by
  rw [routeRelease_runs hchanging hidle]
  exact routeOns_sameRouting ..

/-- No message waits for the destination. -/
theorem routeRelease_unheld (h : b.cw.held.all (fun e => e.1 != d) = true) :
    routeRelease b d = routeReleased b d ∧ (routeReleased b d).cw.held = b.cw.held := by
  have hall := List.all_eq_true.1 h
  have hnone : b.cw.held.filter (fun e => e.1 == d) = [] :=
    List.filter_eq_nil_iff.2 fun e he heq => bne_iff_ne.1 (hall e he) (eq_of_beq heq)
  rw [routeRelease_runs hchanging hidle, hnone]
  exact ⟨rfl, List.filter_eq_self.2 hall⟩

/-- One message waits for the destination. -/
theorem routeRelease_held {k : Nat} (h : b.cw.held = [(d, k, m)]) :
    routeRelease b d = routeOn (routeReleased b d) m ∧ (routeReleased b d).cw.held = [] := by
  rw [routeRelease_runs hchanging hidle, h]
  simp [routeReleased, h]

end

end

end Sys2Proof.Machine
end

section
/-! PROOFS. What the control messages do (R307, R314 to R317, R319, R320, R361): O60, a lemma for each kind of message. -/

namespace Sys2Proof.Machine

section
variable {b : Block} {n : Nat} {m : Msg}

/-- What follows a message that has left its input sends messages alone. -/
theorem Sends.sameCore_of {w c : Block} (h : Sends w c) (hw : SameCore b w) : SameCore b c := hw.trans h.sameCore

/-- IMAGE_END with all the bytes and the check: the store is written to the arrays (R332). -/
theorem imageEndIn_whole (hm : showingCtl b (.peer n) 4 = some m) (htake : bootMsg b n m = .take) (hown : m.bcast = false)
    (hopen : b.cw.imageOk = false) {l : List Byte} (hbytes : imageBytes b (fld m.hdr 21 25) = some l)
    (hcheck : (crc32c l).toNat = fld m.hdr 46 32) (a : Arrays) : ∃ u, imageEndIn a b n = (writeStore a u u.bring.store, u)
      ∧ u.bring.store = packStore b l ∧ u.cw.imageOk = true ∧ SameCore b u := by
  have hsends := endImage_whole (b := bootTaken b n m) (n := n) (m := m) hopen hbytes hcheck
  have hok : (endImage (bootTaken b n m) n m).cw.imageOk = true := hsends.keeps (·.cw.imageOk)
  refine ⟨endImage (bootTaken b n m) n m, ?_, hsends.keeps (·.bring.store), hok, hsends.sameCore_of ⟨rfl, rfl, rfl, rfl⟩⟩
  rw [imageEndIn, onBootMsg_taken hm htake hown]
  exact congrArg (·, _) (if_pos ⟨hok, hopen⟩)

/-- IMAGE_END without: the bytes are dropped. -/
theorem imageEndIn_broken (hm : showingCtl b (.peer n) 4 = some m) (htake : bootMsg b n m = .take) (hown : m.bcast = false)
    (hopen : b.cw.imageOk = false) (hbytes : imageBytes b (fld m.hdr 21 25) = none) (a : Arrays) : ∃ u, imageEndIn a b n = (a, u)
      ∧ u.bring.store = b.bring.store ∧ u.cw.imageOk = false ∧ u.cw.bootBytes = [] ∧ SameCore b u := by
  have hsends := endImage_broken (b := bootTaken b n m) (n := n) (m := m) hopen hbytes
  have hok : (endImage (bootTaken b n m) n m).cw.imageOk = false := (hsends.keeps (·.cw.imageOk)).trans hopen
  exact ⟨endImage (bootTaken b n m) n m, imageEndIn_kept (onBootMsg_taken hm htake hown _) (.inr hok) a, hsends.keeps (·.bring.store), hok,
    hsends.keeps (·.cw.bootBytes), hsends.sameCore_of ⟨rfl, rfl, rfl, rfl⟩⟩

/-- START with GO, where the image is complete: the instance no longer asks, and step 5 of its boot has run. -/
theorem start_loads (hm : showingCtl b (.peer n) 6 = some m) (htake : bootMsg b n m = .take) (hown : m.bcast = false)
    (hgo : bit m.hdr 21 = true) (hok : b.cw.imageOk = true) : ∃ u, onBootMsg b n 6 startWorker = u ∧ u.cw.asking = false
      ∧ (u.bring.phase = 4 ∨ u.bring.phase = 15) ∧ u.txns = b.txns := by
  obtain ⟨⟨htxns, hasking⟩, hphase⟩ := bootLoad_undisturbed { bootTaken b n m with cw := { (bootTaken b n m).cw with asking := false } }
  exact ⟨_, (onBootMsg_taken hm htake hown _).trans (startWorker_goes hgo hok), hasking, hphase, htxns⟩

/-- IMAGE_ACK at the pithead, OK: noted, and its sender started. -/
theorem imageAckIn_first (hm : showingCtl b (.peer n) 5 = some m) (hdst : m.dst = b.cw.instNum) (hpithead : isPithead b = true)
    (hok : bit m.hdr 21 = true) (hsrc : m.src ≠ b.cw.instNum) (hfirst : b.cw.acked.contains m.src = false) : ∃ u,
    imageAckIn b (.peer n) = u ∧ u.cw.acked = b.cw.acked ++ [m.src] ∧ u.cw.sentStart.contains m.src = true
      ∧ u.cw.heard.contains m.src = true ∧ SameCore b u := by
  obtain ⟨e, hsends, hrun⟩ := takeAckMsg_first (b := takeMsg b (.peer n) m) hok hsrc hfirst
  obtain ⟨hacked, hstart, hheard, hcore⟩ := ackFirst_noted hsends
  exact ⟨_, (imageAckIn_own hm hdst hpithead).trans hrun, hacked, hstart, hheard, (takeMsg_sameCore b n m).trans hcore⟩

/-- An ABORT that is new counts, and its sequence number is noted. -/
theorem abortIn_counts (hm : showingCtl b (.peer n) 7 = some m) (hnew : (tget [] b.cw.seen m.src).contains (fld m.hdr 67 8) = false)
    (hready : isReady b = false) (a : Arrays) : (abortIn a b n).cw.aborts = min 65535 (b.cw.aborts + 1)
      ∧ tget [] (abortIn a b n).cw.seen m.src = (fld m.hdr 67 8 :: tget [] b.cw.seen m.src).take 32 ∧ (abortIn a b n).ctxs = b.ctxs
      ∧ SameCore b (abortIn a b n) := by
  have hsends := abortIn_first hm hnew hready a
  refine ⟨hsends.keeps (·.cw.aborts), ?_, hsends.keeps Block.ctxs, hsends.sameCore_of ⟨rfl, rfl, rfl, rfl⟩⟩
  rw [hsends.keeps (·.cw.seen)]
  exact abortNoted_seen b n m

/-- ROUTE_SET: the entry is written, and the others stay. -/
theorem routeSetIn_writes (hm : showingCtl b (.peer n) 8 = some m) (hdst : m.dst = b.cw.instNum) :
    tget 0 (routeSetIn b (.peer n)).cw.route (fld m.hdr 37 6) = fld m.hdr 21 16 &&& 0x8BBB
      ∧ (∀ d, d ≠ fld m.hdr 37 6 → tget 0 (routeSetIn b (.peer n)).cw.route d = tget 0 b.cw.route d)
      ∧ SameCore b (routeSetIn b (.peer n)) := by
  have hsends := routeSetIn_own hm hdst
  have hroute : (routeSetIn b (.peer n)).cw.route = tset b.cw.route (fld m.hdr 37 6) (fld m.hdr 21 16 % 65536 &&& 0x8BBB) :=
    hsends.keeps (·.cw.route)
  have hlt : fld m.hdr 21 16 < 65536 := Nat.mod_lt _ (by decide)
  rw [Nat.mod_eq_of_lt hlt] at hroute
  refine ⟨?_, fun d hd => ?_, hsends.sameCore_of ⟨rfl, rfl, rfl, rfl⟩⟩
  · rw [hroute, tget_tset_self]
  · rw [hroute, tget_tset, if_neg hd.symm]

/-- The last ROUTE_ACK of a plan grants it. -/
theorem routeAckIn_last (hm : showingCtl b (.peer n) 9 = some m) (hdst : m.dst = b.cw.instNum) {p : OffPlan} (hplan : b.cw.offPlans = [p])
    (hwaits : p.waiting = [m.src]) : ∃ u, routeAckIn b (.peer n) = u ∧ u.cw.offPlans = [] ∧ u.cw.offGranted.contains p.inst = true
      ∧ SameCore b u := by
  have hrun := (routeAckIn_own hm hdst hplan (by simp [hwaits])).trans (if_pos (by simp [hwaits]))
  have hsends := sendOffAck_sends (planAcked b n m p) p.inst true
  have hgranted : (sendOffAck (planAcked b n m p) p.inst true).cw.offGranted = _ := hsends.keeps (·.cw.offGranted)
  have hleft : (planAcked b n m p).cw.offPlans = [{ p with waiting := p.waiting.erase m.src }] := rfl
  refine ⟨_, hrun, (hsends.keeps (·.cw.offPlans)).trans (planEnded_last hleft true), ?_, hsends.sameCore_of ⟨rfl, rfl, rfl, rfl⟩⟩
  rw [hgranted]
  exact planEnded_granted ..

/-- Any other ROUTE_ACK of a plan is one less to await. -/
theorem routeAckIn_more (hm : showingCtl b (.peer n) 9 = some m) (hdst : m.dst = b.cw.instNum) {p : OffPlan} (hplan : b.cw.offPlans = [p])
    {k : Nat} {rest : List Nat} (hwaits : p.waiting = m.src :: k :: rest) : ∃ u, routeAckIn b (.peer n) = u
      ∧ u.cw.offPlans = [{ p with waiting := k :: rest }] ∧ u.cw.offGranted = b.cw.offGranted ∧ SameCore b u := by
  have herase : p.waiting.erase m.src = k :: rest := by simp [hwaits]
  have hleft : (planAcked b n m p).cw.offPlans = [{ p with waiting := p.waiting.erase m.src }] := rfl
  rw [herase] at hleft
  exact ⟨_, (routeAckIn_own hm hdst hplan (by simp [hwaits])).trans (if_neg (by simp [herase])), hleft, rfl, rfl, rfl, rfl, rfl⟩

/-- OFF_REQ of an instance without an off plan: granted. -/
theorem offReqIn_grants (hm : showingCtl b (.peer n) 10 = some m) (hdst : m.dst = b.cw.instNum) (hpithead : isPithead b = true)
    (hready : isReady b = true) (hon : b.power.inst = .on) (hsrc : m.src ≠ b.cw.instNum) (hplan : offPlanOf (storeRecs b) m.src = []) :
    ∃ u, offReqIn b (.peer n) = u ∧ u.cw.offGranted.contains m.src = true ∧ SameCore b u := by
  have hsends := sendOffAck_sends (takeMsg b (.peer n) m) m.src true
  exact ⟨_, offReqIn_granted hm hdst hpithead hready hon hsrc hplan,
    (congrArg (·.contains m.src) (hsends.keeps (·.cw.offGranted))).trans (planEnded_granted _ _), hsends.sameCore_of ⟨rfl, rfl, rfl, rfl⟩⟩

/-- OFF_ACK with OK: the handshake goes on. -/
theorem offAckIn_goesOn (hm : showingCtl b (.peer n) 11 = some m) (hdst : m.dst = b.cw.instNum) {h : Handshake} (hhs : b.power.hs = some h)
    (hphase : h.phase = .offAck) (hack : bit m.hdr 21 = true) : ∃ u, offAckIn b (.peer n) = u
      ∧ u.power.hs = some { h with phase := .ask, granted := true, fromUs := usNow b } ∧ SameCore b u := by
  have hrun := offAckIn_own hm hdst
  rw [hack] at hrun
  exact ⟨_, hrun.trans (offAnswer_granted hhs hphase), rfl, rfl, rfl, rfl, rfl⟩

/-- OFF_ACK without: the handshake has ended. -/
theorem offAckIn_ends (hm : showingCtl b (.peer n) 11 = some m) (hdst : m.dst = b.cw.instNum) {h : Handshake} (hhs : b.power.hs = some h)
    (hphase : h.phase = .offAck) (hack : bit m.hdr 21 = false) : ∃ u, offAckIn b (.peer n) = u
      ∧ u.power.hs = none ∧ u.power.refuseReason = 7 ∧ SameCore b u := by
  obtain ⟨hnone, hreason, hcore⟩ := offAnswer_refused (b := takeMsg b (.peer n) m) hhs hphase
  have hrun := offAckIn_own hm hdst
  rw [hack] at hrun
  exact ⟨_, hrun, hnone, hreason, (takeMsg_sameCore b n m).trans hcore⟩

/-- BOOT_REQ at the pithead with its image: the acknowledgement of the sender is awaited again. -/
theorem bootReqIn_resends (hm : showingCtl b (.peer n) 12 = some m) (hpithead : isPithead b = true) (himage : b.cw.imageReady = true)
    (hready : isReady b = true) (hon : b.power.inst = .on) : ∃ u, bootReqIn b n = u ∧ u.cw.acked.contains m.src = false ∧ SameCore b u := by
  have hsends := resendImage_sends (takeMsg b (.peer n) m) m.src
  have hacked : (resendImage (takeMsg b (.peer n) m) m.src).cw.acked = b.cw.acked.filter (fun k => k != m.src) := hsends.keeps (·.cw.acked)
  refine ⟨_, bootReqIn_pithead hm hpithead himage hready hon, ?_, hsends.sameCore_of ⟨rfl, rfl, rfl, rfl⟩⟩
  rw [hacked]
  simp

/-- OFF_PLAN_TIMEOUT: the plan is refused. -/
theorem offPlanTimeout_refuses {p : OffPlan} (hplan : b.cw.offPlans = [p]) (hdue : usDue b p.fromUs 10000 = true) : ∃ u,
    offPlanTimeout b = u ∧ u.cw.offPlans = [] ∧ u.cw.offGranted = b.cw.offGranted ∧ SameCore b u := by
  have hsends := sendOffAck_sends b p.inst false
  exact ⟨_, offPlanTimeout_due hplan hdue, (hsends.keeps (·.cw.offPlans)).trans (planEnded_last hplan false), hsends.keeps (·.cw.offGranted),
    hsends.sameCore_of (planEnded_sameCore ..)⟩

section
variable {d : Nat} (hchanging : tget 0 b.cw.changing d ≠ 0) (hidle : portBusy (linkOf b (tget 0 b.cw.changing d - 1)) d = false)
include hchanging hidle

/-- The destination has left the table of those that change. -/
theorem routeRelease_ends : tget 0 (routeRelease b d).cw.changing d = 0 := by
  rw [(routeRelease_sameRouting hchanging hidle).changing]
  exact tget_tset_self ..

/-- A request that waited and has no route any more is answered NOROUTE. -/
theorem routeRelease_noRoute {k : Nat} (hheld : b.cw.held = [(d, k, m)]) (hdst : m.dst = d) (hkind : m.kind = .request) (hinp : m.inp < 4)
    (hroute : pickRoute b d = none) : (routeRelease b d).cw.held = [] ∧ (routeRelease b d).cw.noroute = min 65535 (b.cw.noroute + 1)
      ∧ SameCore b (routeRelease b d) := by
  obtain ⟨hrun, hempty⟩ := routeRelease_held hchanging hidle hheld
  obtain ⟨_, _, hans, -⟩ := noRoute_answers (b := routeReleased b d) hkind hinp
  have hnoroute : pickRoute (routeReleased b d) m.dst = none := (congrArg (pickRoute b) hdst).trans hroute
  rw [hrun, routeOn_noRoute hkind hnoroute, hans]
  exact ⟨hempty, rfl, rfl, rfl, rfl, rfl⟩

/-- A message that waited goes on at its new port. -/
theorem routeRelease_passes {k o p : Nat} (hheld : b.cw.held = [(d, k, m)]) (hdst : m.dst = d) (hroute : pickRoute b d = some (o, p))
    (hhops : m.hops + 1 ≤ hopLimit b) (hline : m.kind = .writeLine → tget (0, 0) b.cw.openCls (openKey m.inp m.src m.orig) ≠ (9, 0)) :
    (routeRelease b d).cw.held = [] ∧ SameCore b (routeRelease b d)
      ∧ (linkOf (routeRelease b d) p).tx = (linkOf b p).tx ++ [{ withHops m (m.hops + 1) with since := b.now }] := by
  obtain ⟨hrun, hempty⟩ := routeRelease_held hchanging hidle hheld
  have hroute' : pickRoute (routeReleased b d) m.dst = some (o, p) := (congrArg (pickRoute b) hdst).trans hroute
  have hstill : tget 0 (routeReleased b d).cw.changing m.dst = 0 := by
    rw [hdst]
    exact tget_tset_self ..
  have hsent := sendTo_spec (b := routeReleased b d) (p := p) (m := m) hhops
  rw [hrun, routeOn_routed hroute' hstill hline]
  exact ⟨(hsent.keeps (·.cw.held)).trans hempty,
    ⟨hsent.keeps Block.txns, hsent.keeps Block.chans, hsent.keeps Block.seams, hsent.keeps Block.regs⟩, congrArg Link.tx hsent.own⟩

end

end

/-- Settles O60: each clause is the lemma about its message. The choices it rests on are those of logs 27, 51, 54, 55, 93, 95 and 105. -/
theorem controlMessagesAct : Obligations.ControlMessagesAct := by
  intro s n hok b i mine
  refine ⟨fun t hnone => ⟨fun ht => ?_, fun ht => ?_, fun ht => ?_, fun ht => ?_, fun ht => ?_, fun ht => ?_, fun ht => ?_, fun ht => ?_,
      fun ht => ?_, fun ht => ?_, fun ht => ?_⟩,
    fun m hm hworker hwaits hparent hstarted => ?_, fun m hm hpithead hsrc => ?_, fun m hm htake hown hopen => ?_,
    fun m hm htake hown hopen => ⟨fun l hbytes hcheck => ?_, fun hbytes => ?_⟩, fun m hm htake hown hgo => ?_,
    fun m hm htake hown hgo himage => ?_, fun m hm hdst hpithead => ⟨fun hack => ?_, fun hack hsrc hfirst => ?_⟩,
    fun m hm => ⟨fun hseen => ?_, fun hnew hready => ?_⟩, fun m hm hdst => ?_, fun m p hm hdst hplan => ⟨fun hwaits => ?_, fun k rest hwaits => ?_⟩,
    fun m hm hdst => ⟨fun hworker => ?_, fun hpithead hready hon hsrc hplan => ?_, fun hpithead hready => ?_⟩,
    fun m h hm hdst hhs hphase => ⟨fun hack => ?_, fun hack => ?_⟩,
    fun m hm hpithead => ⟨fun himage hready hon => ?_, fun himage => ?_⟩, fun m hm hworker => ?_, fun hearly => ?_, fun p hplan hdue => ?_,
    fun d hwaits => ?_, fun d hchanging hidle => ?_,
    fun k hpithead himage hmesh hheard hk hdue => ⟨fun hmissing => ?_, fun hmissing => ?_⟩⟩
  · subst ht
    exact guarded_eq_next hok (beaconIn_none hnone)
  · subst ht
    exact guarded_eq_next hok (onBootMsg_none hnone _)
  · subst ht
    exact guardedArr_eq_next hok (imageEndIn_kept (onBootMsg_none hnone _) (.inl rfl) s.arr)
  · subst ht
    exact guarded_eq_next hok (imageAckIn_none hnone)
  · subst ht
    exact guarded_eq_next hok (onBootMsg_none hnone _)
  · subst ht
    exact guarded_eq_next hok (abortIn_none hnone _)
  · subst ht
    exact guarded_eq_next hok (routeSetIn_none hnone)
  · subst ht
    exact guarded_eq_next hok (routeAckIn_none hnone)
  · subst ht
    exact guarded_eq_next hok (offReqIn_none hnone)
  · subst ht
    exact guarded_eq_next hok (offAckIn_none hnone)
  · subst ht
    exact guarded_eq_next hok (bootReqIn_none hnone)
  · have hsends := takeBeacon_sends (takeMsg b (.peer n) m) ((firstBeacon b).getD (n, m)).1 ((firstBeacon b).getD (n, m)).2
    exact ⟨_, guarded_eq_next hok (beaconIn_first hm hworker hwaits hparent hstarted), hsends.keeps (·.cw.parent),
      hsends.keeps (·.cw.pitheadInst), hsends.sameCore_of ⟨rfl, rfl, rfl, rfl⟩⟩
  · exact ⟨_, guarded_eq_next hok (beaconIn_higher hm hpithead hsrc), congrArg Link.rx (took_takeMsg b n m).own, rfl, rfl, takeMsg_sameCore b n m⟩
  · have hrun := (onBootMsg_taken hm htake hown keepImage).trans (keepImage_open (b := bootTaken b n m) hopen m)
    exact ⟨_, guarded_eq_next hok hrun, tget_tset_self .., rfl, rfl, rfl, rfl⟩
  · obtain ⟨u, hrun, hu⟩ := imageEndIn_whole hm htake hown hopen hbytes hcheck s.arr
    exact ⟨u, guardedArr_eq_next hok hrun, hu⟩
  · obtain ⟨u, hrun, hu⟩ := imageEndIn_broken hm htake hown hopen hbytes s.arr
    exact ⟨u, guardedArr_eq_next hok hrun, hu⟩
  · exact ⟨_, guarded_eq_next hok ((onBootMsg_taken hm htake hown _).trans (startWorker_waits hgo)), rfl, rfl, bootTaken_sameCore b n m⟩
  · obtain ⟨u, hrun, hu⟩ := start_loads hm htake hown hgo himage
    exact ⟨u, guarded_eq_next hok hrun, hu⟩
  · have hsends := takeAckMsg_refused (b := takeMsg b (.peer n) m) hack
    exact ⟨_, guarded_eq_next hok (imageAckIn_own hm hdst hpithead), hsends.keeps (·.cw.acked), hsends.keeps (·.cw.sentStart),
      hsends.sameCore_of (takeMsg_sameCore b n m)⟩
  · obtain ⟨u, hrun, hu⟩ := imageAckIn_first hm hdst hpithead hack hsrc hfirst
    exact ⟨u, guarded_eq_next hok hrun, hu⟩
  · exact ⟨_, guarded_eq_next hok (abortIn_again hm hseen s.arr), rfl, rfl, takeMsg_sameCore b n m⟩
  · exact ⟨_, guarded_eq_next hok rfl, abortIn_counts hm hnew hready s.arr⟩
  · exact ⟨_, guarded_eq_next hok rfl, routeSetIn_writes hm hdst⟩
  · obtain ⟨u, hrun, hu⟩ := routeAckIn_last hm hdst hplan hwaits
    exact ⟨u, guarded_eq_next hok hrun, hu⟩
  · obtain ⟨u, hrun, hu⟩ := routeAckIn_more hm hdst hplan hwaits
    exact ⟨u, guarded_eq_next hok hrun, hu⟩
  · exact ⟨_, guarded_eq_next hok (offReqIn_worker hm hdst hworker), rfl, takeMsg_sameCore b n m⟩
  · obtain ⟨u, hrun, hu⟩ := offReqIn_grants hm hdst hpithead hready hon hsrc hplan
    exact ⟨u, guarded_eq_next hok hrun, hu⟩
  · exact guarded_eq_next hok (offReqIn_waits hm hdst hpithead hready)
  · obtain ⟨u, hrun, hu⟩ := offAckIn_goesOn hm hdst hhs hphase hack
    exact ⟨u, guarded_eq_next hok hrun, hu⟩
  · obtain ⟨u, hrun, hu⟩ := offAckIn_ends hm hdst hhs hphase hack
    exact ⟨u, guarded_eq_next hok hrun, hu⟩
  · obtain ⟨u, hrun, hu⟩ := bootReqIn_resends hm hpithead himage hready hon
    exact ⟨u, guarded_eq_next hok hrun, hu⟩
  · exact guarded_eq_next hok (bootReqIn_waits hm hpithead himage)
  · exact ⟨_, guarded_eq_next hok rfl, (bootReqIn_worker hm hworker).sameCore_of (takeMsg_sameCore b n m)⟩
  · exact congrArg (done s) (offPlanTimeout_early hearly)
  · obtain ⟨u, hrun, hu⟩ := offPlanTimeout_refuses hplan hdue
    exact ⟨u, congrArg (done s) hrun, hu⟩
  · exact congrArg (done s) (routeRelease_waits hwaits)
  · obtain ⟨hchans, hseams, hregs, -⟩ := routeRelease_sameRouting hchanging hidle
    refine ⟨_, rfl, routeRelease_ends hchanging hidle, hchans, hseams, hregs, fun hunheld => ?_, fun k m hheld hdst hkind hinp hroute => ?_,
      fun k m o p hheld hdst hroute hhops hline => ?_⟩
    · obtain ⟨hrun, hkept⟩ := routeRelease_unheld hchanging hidle hunheld
      rw [hrun]
      exact ⟨⟨rfl, rfl, rfl, rfl⟩, hkept⟩
    · exact routeRelease_noRoute hchanging hidle hheld hdst hkind hinp hroute
    · exact routeRelease_passes hchanging hidle hheld hdst hroute hhops hline
  · exact congrArg (done s) ((workerMissing_eq hpithead himage hmesh hheard hk hdue).trans (if_pos hmissing))
  · exact congrArg (done s) ((workerMissing_eq hpithead himage hmesh hheard hk hdue).trans (if_neg (ne_true_of_eq_false hmissing)))

end Sys2Proof.Machine
end

section
/-! SUPPORT. The shape of every command settles what it keeps: the queue, the arrays but for seven rows, and their canonical form. -/

namespace Sys2Proof.Machine

/-- A row outside `touchesArrays` leaves the arrays and the queue as they are. -/
theorem exec_keeps_arrays {c : Instr} {s t : State} (h : exec c s = .next t) (hc : c.touchesArrays = false) :
    t.arr = s.arr ∧ t.pending = s.pending := by
  obtain ⟨b, hb⟩ := exec_shape c s hc
  obtain rfl := Host.Outcome.next.inj (hb.symm.trans h)
  exact ⟨rfl, rfl⟩

theorem exec_keeps_pending {c : Instr} {s t : State} (h : exec c s = .next t) : t.pending = s.pending := by
  cases hc : c.touchesArrays with
  | false => exact (exec_keeps_arrays h hc).2
  | true =>
    obtain ⟨r, hr⟩ := exec_shape_arr c s hc
    obtain rfl := Host.Outcome.next.inj (hr.symm.trans h)
    rfl

theorem safe_of_arr {s t : State} (h : t.arr = s.arr) (hs : s.Safe) : t.Safe := by
  unfold State.Safe at hs ⊢
  rw [h, hs]

/-- A guarded row answers canonical arrays, if what it runs does. -/
theorem guardedArr_safe {ok : Bool} {s t : State} {r : Arrays × Block} (hs : s.Safe) (hr : r.1.wf = true)
    (h : guardedArr ok s r = .next t) : t.Safe := by
  obtain rfl := Host.Outcome.next.inj h
  cases ok
  · exact hs
  · exact hr

theorem doneArr_safe {s t : State} {r : Arrays × Block} (hr : r.1.wf = true) (h : doneArr s r = .next t) : t.Safe := by
  obtain rfl := Host.Outcome.next.inj h
  exact hr

/-- The seven rows that change the arrays keep their canonical form. -/
theorem exec_touching_safe {c : Instr} {s t : State} (hs : s.Safe) (hc : c.touchesArrays = true) (h : exec c s = .next t) : t.Safe := by
  cases c
  case bankSlotGrant ch bank => exact guardedArr_safe hs (grantBank_wf _ _ _ hs) h
  case checkPoint ch n => exact guardedArr_safe hs (checkPoint_wf _ _ _ hs) h
  case dredgeStep ch => exact guardedArr_safe hs (dredgeStep_wf _ _ hs) h
  case imageEnd n => exact guardedArr_safe hs (imageEndIn_wf _ _ hs) h
  case boot i => exact doneArr_safe (boot_wf _ _ hs) h
  case wipeDone => exact doneArr_safe (wipeDone_wf _ hs) h
  case seedClearDone n => exact doneArr_safe (seedClearDone_wf _ _ hs) h
  all_goals exact Bool.noConfusion hc

theorem exec_safe {c : Instr} {s t : State} (hs : s.Safe) (h : exec c s = .next t) : t.Safe := by
  cases hc : c.touchesArrays with
  | false => exact safe_of_arr (exec_keeps_arrays h hc).1 hs
  | true => exact exec_touching_safe hs hc h

/-- Settles O4: the tick leaves the arrays alone, and every command keeps their canonical form. -/
theorem stepKeepsSafe : Obligations.StepKeepsSafe := by
  intro s t hs h
  unfold step at h
  split at h
  case h_1 => exact safe_of_arr (by rw [← Host.Outcome.next.inj h]) hs
  case h_2 c rest _ =>
    have hrest : State.Safe { s with pending := rest } := safe_of_arr rfl hs
    exact exec_safe hrest h

/-- Settles O2: a command answers the state with other arrays and another block at most. -/
theorem commandsKeepTheQueue : Obligations.CommandsKeepTheQueue := fun _ _ _ h => exec_keeps_pending h

/-- Settles O3: the rows outside `touchesArrays` change the block alone. -/
theorem onlySevenCommandsTouchArrays : Obligations.OnlySevenCommandsTouchArrays := by
  intro c s t h hc
  have ha := (exec_keeps_arrays h hc).1
  exact ⟨ha, fun k => by simp [ha]⟩

/-- Settles O6: each row is done, or guarded by the units that it names. -/
theorem everyCommandCompletes : Obligations.EveryCommandCompletes := by
  intro c s
  cases hc : c.touchesArrays with
  | false =>
    obtain ⟨b, hb⟩ := exec_shape c s hc
    exact ⟨⟨_, hb⟩, fun hwf => by rw [hb, hwf]; rfl⟩
  | true =>
    obtain ⟨r, hr⟩ := exec_shape_arr c s hc
    exact ⟨⟨_, hr⟩, fun hwf => by rw [hr, hwf]; rfl⟩

/-- Settles O5: both arrays are empty after reset. -/
theorem resetIsSafe : Obligations.ResetIsSafe := by
  unfold Obligations.ResetIsSafe State.Safe
  rfl

end Sys2Proof.Machine
end

section
/-! PROOFS. Records (R424, R428, R435), the timebase (R436 to R439) and the take of management commands (R481 to R486). -/

namespace Sys2Proof.Machine

/-! A record in the pending queue. -/

theorem placeRecord_eq (l : List Record) (r : Record) : ∃ m n, l = m ++ n ∧ placeRecord l r = m ++ r :: n
    ∧ (∀ q ∈ m, recordBefore r q = false) ∧ ∀ q ∈ n.head?, recordBefore r q = true := by
  refine ⟨l.takeWhile (fun q => !recordBefore r q), l.dropWhile (fun q => !recordBefore r q),
    (List.takeWhile_append_dropWhile ..).symm, rfl, fun q hq => ?_, fun q hq => ?_⟩
  · simpa using List.mem_takeWhile_imp hq
  · have := List.head?_dropWhile_not (fun q => !recordBefore r q) l
    rw [Option.mem_def.1 hq] at this
    simpa using this

/-- A record comes before another of its own cycle alone (R424). -/
theorem born_of_recordBefore {r q : Record} (h : recordBefore r q = true) : q.born = r.born := by
  simp only [recordBefore, Bool.and_eq_true, beq_iff_eq] at h
  exact h.1.symm

theorem queueRecord_room {e : Events} (h : e.queue.length < 64) (r : Record) :
    queueRecord e r = { e with queue := placeRecord e.queue r } := if_pos h

theorem queueRecord_full {e : Events} (h : 64 ≤ e.queue.length) (r : Record) : (queueRecord e r).queue = e.queue
    ∧ (queueRecord e r).lost = satAdd (2 ^ 32 - 1) e.lost 1 ∧ (queueRecord e r).lostLast = r.time := by
  unfold queueRecord
  rw [if_neg (Nat.not_lt.2 h)]
  exact ⟨rfl, rfl, rfl⟩

/-- Settles O8: of what `emitRecord_eq` names, the queue is `placeRecord`'s, and full it counts the record as lost. -/
theorem recordEffect : Obligations.RecordEffect := by
  intro b ty ch ctx p3 p4 p5 p6
  obtain ⟨o, ht⟩ := emitRecord_eq b (mkRecord b ty ch ctx p3 p4 p5 p6)
  unfold emit
  rw [ht]
  refine ⟨rfl, rfl, fun hroom => ?_, queueRecord_full (r := mkRecord b ty ch ctx p3 p4 p5 p6)⟩
  obtain ⟨l, m, hsplit, hplace, hbehind, hnext⟩ := placeRecord_eq b.ev.queue (mkRecord b ty ch ctx p3 p4 p5 p6)
  refine ⟨l, m, hsplit, ?_, hbehind, fun q hq => ⟨hnext q hq, born_of_recordBefore (hnext q hq)⟩⟩
  rw [queueRecord_room hroom, hplace]

/-! The timebase. -/

section
variable {b : Block} {v : Word} {parity : Bool}

/-- The timebase with one more good frame counted (R437). -/
def frameCounted (t : TimeBase) : TimeBase := { t with frames := (t.frames + 1) % 2 ^ 32 }

theorem timeFrame_off (h : b.time.syncEn = false) : timeFrame b v parity = b := if_pos h

theorem timeFrame_bad (hen : b.time.syncEn = true) (hbad : ((ones v % 2 == 1) == parity) = false) :
    timeFrame b v parity = { b with time := { b.time with badFrames := min 65535 (b.time.badFrames + 1) } } := by
  unfold timeFrame
  dsimp only
  rw [if_neg (by simp [hen]), if_pos (by simpa using hbad)]
  rfl

/-- Of a good frame, what is left is whether it loads (R437, R438). -/
theorem timeFrame_good (hen : b.time.syncEn = true) (hgood : ((ones v % 2 == 1) == parity) = true) :
    timeFrame b v parity = if b.time.frozen then { b with time := frameCounted b.time }
      else if b.time.synced then
        (if timeDist v b.time.ns ≤ b.time.tol then { b with time := frameCounted b.time }
          else { b with time := { frameCounted b.time with loadPending := some (v + 10, gapDrift) } })
      else { b with time := { frameCounted b.time with loadPending := some (v + 10, gapSync) } } := by
  have hpar : ¬ ((ones v % 2 == 1) != parity) = true := by simpa using hgood
  unfold timeFrame
  dsimp only
  rw [if_neg (by simp [hen]), if_neg hpar]
  rfl

theorem syncWaitEnd_due {u : Nat} (hu : b.time.resumedUs = some u) (hs : b.time.synced = false)
    (hdue : usDue b u (max 1 b.time.syncWait) = true) : syncWaitEnd b =
      emit { b with time := { b.time with resumedUs := none } } 0x02 none none b.time.frozenAt b.time.ns b.time.ns 3 := by
  simp only [syncWaitEnd, hu]
  rw [if_pos ⟨hs, hdue⟩]
  rfl

theorem syncWaitEnd_idle (h : b.time.resumedUs = none ∨ b.time.synced = true) : syncWaitEnd b = b := by
  unfold syncWaitEnd
  split
  · rfl
  · next u hu => exact if_neg (by rcases h with h | h <;> simp_all)

end

/-- Settles O49: a frame is off, bad, or good (`timeFrame_good`), and a wait is due or has ended. Frames that come while the timebase is
held are counted (log 73). -/
theorem timebaseFollowsFrames : Obligations.TimebaseFollowsFrames := by
  intro s v parity
  refine ⟨fun hoff => congrArg (done s) (timeFrame_off hoff), fun hen hbad => congrArg (done s) (timeFrame_bad hen hbad),
    fun hen hgood hkeep => ?_, fun hen hgood hfrozen hsync => ?_, fun hen hgood hfrozen hsync hfar => ?_,
    fun u hu hs hdue => congrArg (done s) (syncWaitEnd_due hu hs hdue), fun h => congrArg (done s) (syncWaitEnd_idle h)⟩
  all_goals refine congrArg (done s) ((timeFrame_good hen hgood).trans ?_)
  · rcases hkeep with hfrozen | ⟨hsync, hnear⟩
    · exact if_pos hfrozen
    · rw [if_pos hsync, if_pos hnear]; exact ite_self _
  · exact (if_neg (by simp [hfrozen])).trans (if_neg (by simp [hsync]))
  · exact (if_neg (by simp [hfrozen])).trans ((if_pos hsync).trans (if_neg (Nat.not_le.2 hfar)))

/-! The take of management commands. -/

theorem takeCmd_shut {b : Block} (h : canTake b = false) (is : Nat → Bool) (f : Block → Nat → Taken → Block) : takeCmd b is f = b :=
  if_neg (by simp [h])

/-- A malformed command is taken by its row, and completes at once (R484). -/
theorem takeCmd_malformed {b : Block} {t : Taken} {is : Nat → Bool} (hcan : canTake b = true)
    (ht : t = { idx := b.cmdq.head, dw0 := headDw b 0, dw1 := headDw b 1, dw2 := headDw b 2 }) (hbad : cmdOk b t (headDw b 3) = false)
    (his : is (fld t.dw0 0 8) = true) (f : Block → Nat → Taken → Block) :
    takeCmd b is f = complete (b.taken t) t.idx.toNat cMalformed 0 := by
  subst ht
  unfold takeCmd
  dsimp only
  rw [if_pos (by simpa [hcan] using his), if_neg (by simp [hbad])]
  rfl

/-- The row of an OPC takes the commands with this OPC; NOP's takes the reserved ones too (R483, log 64). -/
theorem exec_opcRow (level : BitVec 8) (img : List Byte) (err : Bool) (opc : Nat) (s : State) : ∃ is f,
    exec (opcRow level img err opc) s = done s (takeCmd s.blk is f) ∧ is opc = true := by
  unfold opcRow
  split
  case h_22 =>
    refine ⟨_, _, rfl, ?_⟩
    by_cases h0 : opc = 0
    · simp [h0]
    · unfold opcMask
      split <;> simp_all
  all_goals exact ⟨_, _, rfl, rfl⟩

/-- Settles O51: every OPC has the row that takes it (`exec_opcRow`); a reserved one is taken by NOP's, and is malformed (log 64). -/
theorem commandsAreTaken : Obligations.CommandsAreTaken := by
  intro s level img err t
  refine ⟨fun opc hshut => ?_, fun hcan ht hbad => ?_, fun htakes => ?_⟩
  · obtain ⟨is, f, hrow, -⟩ := exec_opcRow level img err opc s
    exact hrow.trans (congrArg (done s) (takeCmd_shut hshut is f))
  · obtain ⟨is, f, hrow, his⟩ := exec_opcRow level img err (fld t.dw0 0 8) s
    exact hrow.trans (congrArg (done s) (takeCmd_malformed hcan ht hbad his f))
  · obtain ⟨hcan, rfl, hopc, hok⟩ := htakes
    refine congrArg (done s) ((if_pos (by simpa [hcan] using Or.inl hopc)).trans (if_pos hok))

end Sys2Proof.Machine
end

section
/-! PROOFS. The event ring and its doorbell (R427 to R434), and the sequences on N0 with their crash dumps (R348 to R350, R400). -/

namespace Sys2Proof.Machine

section
variable {b : Block}

/-! The issue of records. -/

theorem issueEvent_blocked (h : evtOn b.ev = false ∨ s0Reach b = false ∨ ringFree b.ev = false) : issueEvent b = b := by
  refine if_neg ?_
  rcases h with h | h | h <;> simp [h]

section
variable (hon : evtOn b.ev = true) (hreach : s0Reach b = true) (hfree : ringFree b.ev = true)
include hon hreach hfree

/-- With the ring open, the records to issue again come first, then an OVERFLOW, then the pending queue (R428 to R431). -/
theorem issueEvent_open : issueEvent b = match b.ev.again with
    | r :: rest => issueRecord { b with ev := { b.ev with again := rest } } r
    | [] =>
      if 32 ≤ uncovered b.ev then b
      else if 0 < b.ev.lost then
        let c := trace b 6 0 {} none (put 0 16 1 ||| ((overflowRecord b).p3 <<< 32))
        issueRecord { c with ev := { c.ev with lost := 0 } } (overflowRecord b)
      else match b.ev.queue with
        | r :: rest => issueRecord { b with ev := { b.ev with queue := rest } } r
        | [] => b :=
  if_pos (by simp [hon, hreach, hfree])

theorem issueEvent_again {r : Record} {rest : List Record} (hagain : b.ev.again = r :: rest) :
    issueEvent b = issueRecord { b with ev := { b.ev with again := rest } } r := by
  rw [issueEvent_open hon hreach hfree, hagain]

theorem issueEvent_pending {r : Record} {rest : List Record} (hagain : b.ev.again = []) (hroom : uncovered b.ev < 32)
    (hlost : b.ev.lost = 0) (hqueue : b.ev.queue = r :: rest) :
    issueEvent b = issueRecord { b with ev := { b.ev with queue := rest } } r := by
  rw [issueEvent_open hon hreach hfree, hagain]
  dsimp only
  rw [if_neg (Nat.not_le.2 hroom), if_neg (by simp [hlost]), hqueue]

theorem issueEvent_overflow (hagain : b.ev.again = []) (hroom : uncovered b.ev < 32) (hlost : 0 < b.ev.lost) :
    (issueEvent b).ev = { b.ev with
      lost := 0, nextSeq := b.ev.nextSeq + 1, issued := b.ev.issued ++ [(b.ev.nextSeq, false, overflowRecord b)] } := by
  rw [issueEvent_open hon hreach hfree, hagain]
  dsimp only
  rw [if_neg (Nat.not_le.2 hroom), if_pos hlost]
  simp [issueRecord, ownWrite, addXfer]

end

/-! The acknowledgement of a record. -/

/-- An answer on S0 to the block's own write of a record (R276 to R278). -/
theorem ownAck_record {r : S0Req} {id : BitVec 8} {st : BitVec 4} {seq : BitVec 32} (hlegal : s0Legal st = true)
    (hfind : b.sump.out.find? (fun r => r.id == id && match r.who with | .record _ => true | _ => false) = some r)
    (hwho : r.who = .record seq) : ownAck b id false st = recordAck (endS0
      (if s0Status st = .sumpErr then { b with sump := { b.sump with errors := satAdd 65535 b.sump.errors 1 } } else b) r) seq
      (s0Status st != .sumpErr) := by
  unfold ownAck
  extract_lets mine ok
  have hmine : b.sump.out.find? mine = some r := by
    rw [← hfind]
    congr 1; funext r; cases hw : r.who <;> simp [mine, hw]
  rw [hmine]
  dsimp only
  rw [hwho, if_pos hlegal]
  dsimp only
  by_cases hst : s0Status st = .sumpErr
  · rw [if_pos hst, if_neg (by simp [ok, hst])]
  · rw [if_neg hst, if_pos (by simp [ok, hst])]

/-- The oldest record of the issue store is acknowledged, and none behind it has been: EVT_HEAD passes it alone (R427). -/
theorem recordAck_oldest {seq : BitVec 32} {q : Record} {rest : List (BitVec 32 × Bool × Record)}
    (hissued : b.ev.issued = (seq, false, q) :: rest) (hrest : ∀ x ∈ rest, x.1 ≠ seq ∧ x.2.1 = false) (hevery : fld b.ev.dbCtl 0 16 = 0) :
    recordAck b seq true = { b with ev := { b.ev with
      head := b.ev.head + 1, issued := rest, dbFromUs := some (b.ev.dbFromUs.getD (usNow b)) } } := by
  have hmap : rest.map (fun r => if r.1 = seq then (r.1, true, r.2.2) else r) = rest :=
    (List.map_congr_left (fun x hx => if_neg (hrest x hx).1)).trans (List.map_id' rest)
  have hstop : ∀ c : Block, c.ev.issued = rest → advanceHead c 31 = c := by
    intro c hc
    cases rest with
    | nil => simp only [advanceHead, hc]
    | cons x l =>
      obtain ⟨y, a, z⟩ := x
      have ha : a = false := (hrest _ (List.mem_cons_self ..)).2
      simp only [advanceHead, hc, ha]
  unfold recordAck
  simp only [hissued, List.any_cons, BEq.rfl, Bool.true_or, Bool.true_eq_false, if_false, if_true, List.map_cons, hmap]
  rw [advanceHead]
  dsimp only
  rw [hstop _ (by simp [headStep, hevery])]
  simp [headStep, hevery, usNow, usAt]

/-- A record that fails stops the ring; it and the later ones are kept to be issued again (R431). -/
theorem recordAck_fails {seq : BitVec 32} (h : b.ev.issued.any (fun x => x.1 == seq) = true) :
    evtOn (recordAck b seq false).ev = false ∧ (recordAck b seq false).ev.writeErr = true
      ∧ (recordAck b seq false).ev.head = b.ev.head
      ∧ (recordAck b seq false).ev.issued = b.ev.issued.takeWhile (fun x => x.1 != seq)
      ∧ (recordAck b seq false).ev.again = (b.ev.issued.dropWhile (fun x => x.1 != seq)).map (fun x => x.2.2) ++ b.ev.again := by
  unfold recordAck
  rw [if_neg (by simp [h])]
  refine ⟨?_, rfl, rfl, rfl, rfl⟩
  simp [writeFailed, evtOn, bit]

/-! The doorbell. -/

theorem doorbellTimeout_due {f : Nat} (hfrom : b.ev.dbFromUs = some f) (hlim : fld b.ev.dbCtl 32 16 ≠ 0) (hon : evtOn b.ev = true)
    (hdue : usDue b f (fld b.ev.dbCtl 32 16) = true) :
    doorbellTimeout b = ringDoorbell { b with ev := { b.ev with dbFromUs := none } } := by
  simp only [doorbellTimeout, hfrom]
  exact if_pos ⟨hlim, hon, hdue⟩

theorem doorbellTimeout_idle (h : b.ev.dbFromUs = none) : doorbellTimeout b = b := by simp only [doorbellTimeout, h]

end

/-- Settles O48: each clause is the lemma about its row. -/
theorem eventRingIssues : Obligations.EventRingIssues := by
  intro s
  refine ⟨fun hon hreach hfree => ⟨fun r rest hagain => ?_, fun r rest hagain hroom hlost hqueue => ?_, fun hagain hroom hlost => ?_⟩,
    fun h => congrArg (done s) (issueEvent_blocked h), fun r q seq rest id hfind hwho hissued hrest hevery => ?_,
    fun r seq id hfind hwho hany => ?_, fun f hfrom hlim hon hdue => ⟨fun hout => ?_, fun hout => ?_⟩,
    fun h => congrArg (done s) (doorbellTimeout_idle h)⟩
  · exact congrArg (done s) (issueEvent_again hon hreach hfree hagain)
  · exact congrArg (done s) (issueEvent_pending hon hreach hfree hagain hroom hlost hqueue)
  · exact ⟨_, overflowRecord s.blk, rfl, rfl, rfl, rfl, rfl, issueEvent_overflow hon hreach hfree hagain hroom hlost⟩
  · exact congrArg (done s) ((ownAck_record (st := 0) rfl hfind hwho).trans (recordAck_oldest hissued hrest hevery))
  · refine ⟨_, congrArg (done s) (ownAck_record (st := 10) rfl hfind hwho), ?_⟩
    exact recordAck_fails (b := endS0 { s.blk with sump := { s.blk.sump with errors := satAdd 65535 s.blk.sump.errors 1 } } r) hany
  · exact congrArg (done s) ((doorbellTimeout_due hfrom hlim hon hdue).trans (if_neg (by simp [hout])))
  · exact congrArg (done s) ((doorbellTimeout_due hfrom hlim hon hdue).trans (if_pos hout))

/-! Crash dumps and sequences on N0. -/

section
variable {b : Block} {level : BitVec 8}

/-- The crash dump's sequence begins under a hold-up level of `level`. -/
def dumpBegun (b : Block) (level : BitVec 8) : Block :=
  { b with bring := { b.bring with holdupLevel := level.toNat, nvmSeq := some (2, none), dumpDeferred := none } }

theorem tryDump_high (h : b.bring.holdupMin ≤ level.toNat) : tryDump b level = dumpBegun b level := by
  unfold tryDump holdupOk
  rw [decide_eq_true h]
  rfl

theorem tryDump_low (h : level.toNat < b.bring.holdupMin) : tryDump b level =
    (let kept : Block := { b with bring := { b.bring with holdupLevel := level.toNat } }
     let c := if b.bring.dumpDeferred.isSome then kept else deferNvm kept 2
     { c with bring := { c.bring with dumpDeferred := some (usNow c) } }) := by
  unfold tryDump holdupOk
  rw [decide_eq_false (Nat.not_le.2 h)]

theorem crashDump_tries (hdue : dumpDue b = true) (harea : hasDumpArea b = true) (hslot : emptySlot b ≠ none)
    (hfirst : b.bring.dumpDeferred = none) : crashDump b level = tryDump b level := by
  unfold crashDump
  rw [if_neg (by simp [hdue, hfirst])]
  dsimp only
  rw [if_neg (by simp [harea])]
  split
  · next h => exact absurd h hslot
  · rfl

theorem crashDump_idle (h : b.bring.dumpPending = false) : crashDump b level = b := if_pos (.inl (by simp [dumpDue, h]))

/-- The first failed check of the hold-up defers the dump and counts it (R348). -/
theorem crashDump_defers (hdue : dumpDue b = true) (harea : hasDumpArea b = true) (hslot : emptySlot b ≠ none)
    (hfirst : b.bring.dumpDeferred = none) (hlow : level.toNat < b.bring.holdupMin) :
    (crashDump b level).bring.dumpDeferred = some (usNow b) ∧ (crashDump b level).bring.deferrals = min 65535 (b.bring.deferrals + 1)
      ∧ (crashDump b level).bring.nvmSeq = none := by
  have hseq : b.bring.nvmSeq = none := by
    simp only [dumpDue, Bool.and_eq_true, Option.isNone_iff_eq_none] at hdue
    exact hdue.1.1.2
  rw [crashDump_tries hdue harea hslot hfirst, tryDump_low hlow]
  simp [hfirst, hseq, deferNvm, satAdd, usNow, usAt]

theorem holdupRecheck_due {from_ : Nat} (hdue : dumpDue b = true) (hfrom : b.bring.dumpDeferred = some from_)
    (hus : usDue b from_ 1000 = true) : holdupRecheck b level = tryDump b level := by
  simp only [holdupRecheck, hfrom]
  exact if_pos (by simp [hdue, hus])

theorem nvmDone_idle (h : b.bring.nvmSeq = none) (m : Option Nat) : nvmDone b m = b := by simp only [nvmDone, h]

/-- A crash dump fills the lowest free slot (R350). -/
theorem nvmDone_dump {k : Nat} (hseq : b.bring.nvmSeq = some (2, none)) (hwait : b.recov.dumpWait = none) (hslot : emptySlot b = some k)
    (m : Option Nat) : nvmDone b m = { b with bring := { b.bring with
      nvmSeq := none, dumpSlots := b.bring.dumpSlots ||| (1#4 <<< k), dumpPending := false
      dumps := tset b.bring.dumps k { bootStat := bootStat b, time := b.time.ns, log := b.rlog } } } := by
  have hfree : emptySlot { b with bring := { b.bring with nvmSeq := none } } = some k := hslot
  simp only [nvmDone, hseq, hfree, dumpSettled, hwait]
  rfl

theorem dumpWaitEnd_due {from_ : Nat} (hwait : b.recov.dumpWait = some from_) (hdue : usDue b from_ 100000 = true) :
    dumpWaitEnd b = { b with recov := { b.recov with dumpWait := none, pwrCycleReq := true } } := by
  simp only [dumpWaitEnd, hwait, hdue, if_true, dumpSettled]

theorem dumpWaitEnd_early {from_ : Nat} (hwait : b.recov.dumpWait = some from_) (hdue : usDue b from_ 100000 = false) :
    dumpWaitEnd b = b := by
  simp only [dumpWaitEnd, hwait, hdue, Bool.false_eq_true, if_false]

end

/-- Settles O39: each clause is the lemma about its row. A dump is kept without its framing (log 106). -/
theorem nvmSequencesRun : Obligations.NvmSequencesRun := by
  intro s
  refine ⟨fun level hdue harea hslot => ⟨fun hfirst hhigh => ?_, fun hfirst hlow => ?_, fun from_ hfrom hus => ⟨fun hhigh => ?_, fun hlow => ?_⟩⟩,
    fun level h => congrArg (done s) (crashDump_idle h), fun h m => congrArg (done s) (nvmDone_idle h m), fun cmd hseq => ?_,
    fun cmd off hseq => ?_, fun cmd m hseq => ?_, fun m k hseq hwait hslot => congrArg (done s) (nvmDone_dump hseq hwait hslot m),
    fun from_ hwait => ⟨fun hdue => congrArg (done s) (dumpWaitEnd_due hwait hdue), fun hdue => congrArg (done s) (dumpWaitEnd_early hwait hdue)⟩⟩
  · exact congrArg (done s) ((crashDump_tries hdue harea hslot hfirst).trans (tryDump_high hhigh))
  · exact ⟨_, rfl, crashDump_defers hdue harea hslot hfirst hlow⟩
  · exact congrArg (done s) ((holdupRecheck_due hdue hfrom hus).trans (tryDump_high hhigh))
  · refine congrArg (done s) ((holdupRecheck_due hdue hfrom hus).trans ((tryDump_low hlow).trans ?_))
    simp only [hfrom, Option.isSome_some, if_true]
    rfl
  all_goals refine congrArg (done s) ?_; simp only [nvmDone, hseq]

end Sys2Proof.Machine
end

section
/-! PROOFS. What the ends of a drain, a sweep and a context command leave out: messages for the instance itself hold the causeway's drain
(R361), and a request that a decode failure holds unanswered (R69) is answered at the end of the sweep and not before (R73, R385). -/

namespace Sys2Proof.Machine

/-! The drain of the causeway. -/

/-- A message for the instance itself. -/
def ownMsg : Msg := { kind := .control, hdr := 0, be := none, data := none, since := 0, inp := 0, seq := 0, chunk := 0 }

/-- The handshake for Off whose drain begins at time 0. -/
def offDrain : Handshake :=
  { target := 4, mask := [], auto := false, cmd := none, phase := .drain, granted := true, usedUs := 0, fromUs := 0, drainUs := 0 }

/-- The ports and `held` are empty, and a message for the instance itself waits. -/
def ownMsgWaits : Block :=
  { State.reset.blk with
    power := { State.reset.blk.power with hs := some offDrain }
    cw := { State.reset.blk.cw with local_ := [ownMsg] } }

/-- A message for the instance itself holds the drain as long as its limit is not due. -/
theorem causewayDrainEnd_own {b : Block} {h : Handshake} (hhs : b.power.hs = some h) (hown : b.cw.local_ ≠ [])
    (hdue : usDue b h.drainUs 1000 = false) : causewayDrainEnd b = b := by
  simp [causewayDrainEnd, hhs, hown, hdue]

/-- Refutes O41: its test whether the causeway is empty leaves out the messages for the instance itself, and one of these holds the drain
as every other message does (`causewayDrainEnd_own`). -/
theorem not_offIsEntered : ¬ Obligations.OffIsEntered := by
  unfold Obligations.OffIsEntered
  intro h
  let s : State := { State.reset with blk := ownMsgWaits }
  obtain ⟨hempty, -, -⟩ := h s offDrain rfl rfl
  obtain ⟨t, hexec, hphase, -⟩ := hempty rfl (.inl (by decide))
  have hstays : causewayDrainEnd s.blk = s.blk := causewayDrainEnd_own (h := offDrain) rfl (by decide) (by decide)
  have hblk : s.blk = t.blk := by
    have hnext : Host.Outcome.next { s with blk := causewayDrainEnd s.blk } = .next t := hexec
    rw [hstays] at hnext
    exact congrArg State.blk (Host.Outcome.next.inj hnext)
  rw [← hblk] at hphase
  exact absurd hphase (by decide)

/-! The end of a sweep. -/

/-- A read of context 0 that a decode failure holds unanswered. -/
def heldRead : Txn :=
  { newTxn State.reset.blk 0 (.loc { ch := 0, port := .M0 }) .rd
      { id := 0, addr := 0, len := 0, aux := 0, cls := 0, qos := 0, ctx := 0, shift := 0, ff := false, wake := false } with
    phase := .decodeHeld 1 }

/-- The sweep of a CTX_RESET. -/
def resetSweep : Sweep :=
  { abortOnly := false, abort := false, final := .open, startAt := 0, limitUs := 0, escalated := false, cmds := [] }

/-- The sweep of context 0 has nothing left but the held read. -/
def heldInSweep : Block :=
  { State.reset.blk with
    ctxs := [(0, { Ctx.init with state := .resetting, sweep := some resetSweep })]
    txns := [heldRead] }

/-- The end of a sweep answers the requests that a decode failure holds as it does those that the sweep removed (R384). -/
theorem answerSwept_decodeHeld {b : Block} {x : Txn} {code : Nat} (hx : x ∈ b.txns) (hphase : x.phase = .decodeHeld code)
    (p : Txn → Bool) (hp : p x = true) :
    { x with phase := .answered .aborted, due := b.now + 1 } ∈ (answerSwept b p).txns :=
  List.mem_map.2 ⟨x, hx, by simp [hphase, hp]⟩

/-- Refutes O45: it answers ABORTED only the requests that the sweep removed, but at its end the model answers a request that a decode
failure holds as well (`answerSwept_decodeHeld`). -/
theorem not_sweepEnds : ¬ Obligations.SweepEnds := by
  unfold Obligations.SweepEnds
  intro h
  let s : State := { State.reset with blk := heldInSweep }
  obtain ⟨-, hanswer, -⟩ := h s 0 resetSweep (by decide) rfl
  obtain ⟨c, hexec, -, htxns⟩ := hanswer (by decide) (by decide)
  have hblk : sweepEnd heldInSweep 0 = c := congrArg State.blk (Host.Outcome.next.inj hexec)
  have hreal : (sweepEnd heldInSweep 0).txns.map Txn.phase = [.answered .aborted] := by decide +kernel
  rw [hblk, htxns] at hreal
  exact absurd hreal (by decide)

/-! The start of a sweep by CTX_RESET. -/

/-- CTX_RESET of context 0. -/
def resetCtx0 : Taken := { idx := 0, dw0 := put 0 8 0x11, dw1 := 0, dw2 := 0 }

/-- Context 0 is open, its read is held by a decode failure, and its CTX_RESET stands at the head of the command queue. -/
def heldAtReset : Block :=
  { State.reset.blk with
    bring := { State.reset.blk.bring with phase := 5, inReset := false }
    ctxs := [(0, { Ctx.init with state := .open })]
    txns := [heldRead]
    cmdq := { CmdQ.init with tail := 1, slots := [(0, resetCtx0.dw0)] } }

/-- The block after that command. -/
def heldAfterReset : Block := takeOpc heldAtReset 0x11 (ctxResetTaken State.reset.arr false)

theorem exec_ctxReset_held : exec .ctxReset { State.reset with blk := heldAtReset } = .next { State.reset with blk := heldAfterReset } := rfl

/-- Refutes O46: it says that CTX_RESET leaves every request of its context removed or answered, but one that a decode failure holds
stays held until the end of the sweep (R385). -/
theorem not_contextCommandsAct : ¬ Obligations.ContextCommandsAct := by
  unfold Obligations.ContextCommandsAct
  intro h
  obtain ⟨-, hsweep, -⟩ := h { State.reset with blk := heldAtReset } resetCtx0
  have htakes : heldAtReset.takes 0x11 resetCtx0 := ⟨by decide +kernel, by decide +kernel, by decide +kernel, by decide +kernel⟩
  have hwait : (ctxOf heldAtReset 0).wait = [] := rfl
  obtain ⟨-, hstart, -⟩ := hsweep (.inl htakes) hwait
  have hbump : bumpReady heldAtReset 0 = true := by decide +kernel
  obtain ⟨c, hexec, -, -, -, -, hgone, -⟩ := hstart rfl rfl (by decide) hbump
  rw [if_pos (by decide)] at hexec
  have hblk := congrArg State.blk (Host.Outcome.next.inj (exec_ctxReset_held.symm.trans hexec))
  dsimp only at hblk
  have hstays : heldAfterReset.txns = [heldRead] := by decide +kernel
  have hmem : heldRead ∈ c.txns := by
    rw [← hblk, hstays]
    exact List.mem_singleton_self _
  obtain hswept | ⟨st, hanswered⟩ := hgone heldRead hmem (by decide)
  · exact absurd hswept (by decide)
  · exact absurd hanswered (by simp [heldRead])
end Sys2Proof.Machine
end

section
/-! PROOFS. The issue store when the event ring is enabled (R430, R431): all of it is issued again, acknowledged or not. -/

namespace Sys2Proof.Machine

/-- A PATH_PARITY record of time 0. -/
def parityRecord : Record :=
  { born := 0, type := 0x74, inst := 0, logged := false, synced := false, channel := none, ctx := none, epoch := 0, tgen := 0,
    time := 0, p3 := 0, p4 := 0, p5 := 0, p6 := 0 }

/-- The ring is disabled; of the two records in the issue store the second one is acknowledged. -/
def laterAcked : Block :=
  { State.reset.blk with
    bring := { State.reset.blk.bring with phase := 5, inReset := false }
    ev := { State.reset.blk.ev with issued := [(0, false, parityRecord), (1, true, parityRecord)], nextSeq := 2 } }

/-- The block after EVT_CTL is written with EN = 1. -/
def laterAckedEnabled : Block := g0Write laterAcked 0x0208 1 true

theorem exec_evtEnable_laterAcked :
    exec (.evtEnable 0) { State.reset with blk := laterAcked } = .next { State.reset with blk := laterAckedEnabled } := rfl

/-- Refutes O55: it has only the records that are not acknowledged issued again when the ring is enabled, but the model issues again all
that EVT_HEAD has not covered, and of these one behind an outstanding write may be acknowledged (R431). -/
theorem not_globalRegistersAct : ¬ Obligations.GlobalRegistersAct := by
  unfold Obligations.GlobalRegistersAct
  intro h
  obtain ⟨-, -, -, -, henable, -⟩ := h { State.reset with blk := laterAcked } 0 ⟨rfl, rfl, rfl, rfl⟩
  have hblk := congrArg State.blk (Host.Outcome.next.inj (exec_evtEnable_laterAcked.symm.trans (henable (by decide))))
  dsimp only at hblk
  have hboth : laterAckedEnabled.ev.again.length = 2 := by decide +kernel
  rw [hblk] at hboth
  exact absurd hboth (by decide)

end Sys2Proof.Machine
end

section
/-! PROOFS. Contexts (R376, R379, R383): what opening a context and starting a sweep do to the contexts, and the ends of a context's waits. -/

namespace Sys2Proof.Machine

/-! What a sweep's start does to the contexts. -/

theorem ctxOf_of_ctxs {b c : Block} (h : c.ctxs = b.ctxs) (j : Nat) : ctxOf c j = ctxOf b j := congrArg (tget Ctx.init · j) h

theorem traceCtx_ctxs (b : Block) (kind k : Nat) : (traceCtx b kind k).ctxs = b.ctxs := trace_ctxs ..

theorem laneFetch_ctxs (b : Block) (ch lane : Nat) : (laneFetch b ch lane).ctxs = b.ctxs :=
  (congrArg Block.ctxs (still_laneFetch b ch lane) :)

/-- The removal of a context's work touches no context. -/
theorem sweepWork_ctxs (a : Arrays) (b : Block) (k : Nat) : (sweepWork a b k).ctxs = b.ctxs := by
  unfold sweepWork
  refine foldl_inv (fun c => c.ctxs = b.ctxs) _
    (fun c n hc => foldl_inv (fun c => c.ctxs = b.ctxs) _ (fun c lane hc => (laneFetch_ctxs c n lane).trans hc) _ c hc) _ _ ?_
  exact (DrainsTo.foldl (fun c n => drainWhere_drainsTo a c n _) _ _).ctxs

/-- What the start of a sweep with a bump makes of its context. -/
def Ctx.startedSweep (x : Ctx) (us now : Nat) (abort : Bool) (final : CState) (cmds : List Nat) : Ctx :=
  { x with
    shift := x.shift + 1, lastBump := some us, state := .resetting, resets := satAdd 65535 x.resets 1
    sweep := some { abortOnly := false, abort := abort, final := final, startAt := now, limitUs := us, escalated := false, cmds := cmds } }

/-- The start of a sweep with a bump touches its own context alone. -/
theorem ctxOf_startSweep (a : Arrays) (b : Block) (k : Nat) (abort : Bool) (final : CState) (cmds : List Nat) (j : Nat) :
    ctxOf (startSweep a b k false abort final cmds) j =
      if k = j then (ctxOf b k).startedSweep (usNow b) b.now abort final cmds else ctxOf b j := by
  rw [startSweep, ctxOf_of_ctxs (sweepWork_ctxs ..), ctxOf_of_ctxs (breakTallies_drainsTo ..).ctxs, ctxOf_of_ctxs (traceCtx_ctxs ..)]
  by_cases hj : k = j
  · subst hj
    simp [ctxOf, setCtx, bump, Ctx.startedSweep, tget_tmod, usNow]
    rfl
  · simp [ctxOf, setCtx, bump, tget_tmod, hj]

/-! Opening a context. -/

theorem ctxOf_openCtx (b : Block) (cmd k : Nat) (job : BitVec 32) (pkg : BitVec 14) (j : Nat) :
    ctxOf (openCtx b cmd k job pkg) j = if k = j then { ctxOf b k with
      state := .open, faulted := false, job := job, pkg := pkg, site := (ctxOf b k).site &&& ~~~(1#64 <<< 63), trip := [] } else ctxOf b j := by
  rw [openCtx, ctxOf_of_ctxs (complete_ctxs ..), ctxOf_of_ctxs (traceCtx_ctxs ..), ctxOf_setCtx]
  rfl

/-! The ends of a context's waits. -/

section
variable {b : Block} {k cmd : Nat}

theorem quietEnd_open (a : Arrays) {job : BitVec 32} {pkg : BitVec 14} (hquiet : inQuiet b k = false)
    (hwait : (ctxOf b k).wait = [.openQuiet cmd job pkg]) (hstate : (ctxOf b k).state = .closed) :
    quietEnd a b k = openCtx (setCtx b k (fun x => { x with wait := [] })) cmd k job pkg := by
  simp [quietEnd, hquiet, hwait, resumeWait, hstate]

theorem bumpEnd_close (a : Arrays) (hready : bumpReady b k = true) (hwait : (ctxOf b k).wait = [.bump cmd false true])
    (hstate : (ctxOf b k).state = .open) (hsweep : (ctxOf b k).sweep = none) :
    bumpEnd a b k = startSweep a (setCtx b k (fun x => { x with wait := [] })) k false false .closed
      (if cmd < 2 ^ 32 then some cmd else none).toList := by
  have hready' : bumpReady (setCtx b k (fun x => { x with wait := [] })) k = true := by
    rw [← hready]
    simp only [bumpReady, ctxOf_setCtx_self]
    rfl
  simp [bumpEnd, hready, hwait, resumeWait, ctxResetGo, hsweep, hstate, hready']

end

/-- Settles O47: the wait is over by `quietEnd_open` and `bumpEnd_close`; what opening and a sweep's start do to the contexts is
`ctxOf_openCtx` and `ctxOf_startSweep`. -/
theorem contextWaitsEnd : Obligations.ContextWaitsEnd := by
  unfold Obligations.ContextWaitsEnd
  intro s k hk
  have hok : decide (k < 64) = true := decide_eq_true hk
  refine ⟨fun hquiet => guarded_eq_next hok (by simp [quietEnd, hquiet]), fun cmd job pkg hquiet hwait hstate => ?_,
    fun hready => guarded_eq_next hok (by simp [bumpEnd, hready]), fun cmd hready hwait hstate hsweep => ?_⟩
  · refine ⟨_, guarded_eq_next hok (quietEnd_open s.arr hquiet hwait hstate), ?_⟩
    simp +contextual [ctxOf_openCtx, eq_comm]
  · refine ⟨_, guarded_eq_next hok (bumpEnd_close s.arr hready hwait hstate hsweep), ?_⟩
    simp +contextual [ctxOf_startSweep, Ctx.startedSweep, eq_comm]

end Sys2Proof.Machine
end

section
/-! PROOFS. Wakes (R366 to R370): what each of the wakes makes of the power state. -/

namespace Sys2Proof.Machine

/-! The power state after a change of it. -/

@[simp] theorem setPower_power (b : Block) (f : Power → Power) : (setPower b f).power = f b.power := by
  obtain ⟨t, o, h⟩ := setPower_eq b f
  rw [h]

@[simp] theorem setPower_bring (b : Block) (f : Power → Power) : (setPower b f).bring = b.bring := by
  obtain ⟨t, o, h⟩ := setPower_eq b f
  rw [h]

@[simp] theorem wakeRecord_power (b : Block) (old new mask src : Nat) :
    (wakeRecord b old new mask src).power = { b.power with lastWake := src } := by
  obtain ⟨l, e, q, h⟩ := wakeRecord_eq b old new mask src
  rw [h]

theorem runChan_power {b : Block} {ch : Nat} (h : chPower b ch ≠ .run) (src : Nat) :
    (runChan b ch src).power =
      { b.power with ch := tset b.power.ch ch .run, waking := b.power.waking.filter (fun e => e.1 != ch), lastWake := src } := by
  unfold runChan
  cases hp : chPower b ch with
  | run => exact absurd hp h
  | idle => simp
  | sleep => simp

/-- The core after a wake in Deep sleep is powered, and goes on to Run where the wake asks for it. -/
theorem wakeDeep_power (b : Block) (src : Nat) (toRun : Bool) : (wakeDeep b src toRun).power.inst = .on ∧
    (wakeDeep b src toRun).power.wakingInst = if toRun then some (b.power.wakingInst.getD src) else b.power.wakingInst := by
  cases toRun <;> simp [wakeDeep]

/-- The steps of a wake of the instance before the channels' work goes on: every channel runs, and one record names those that did not. -/
def instRuns (b : Block) (src : Nat) : Block :=
  let l := (List.range b.build.channels).filter (fun c => chPower b c != .run)
  let b := setPower b (fun p => { p with ch := [], waking := [], wakingInst := none })
  let b := l.foldl (fun b n => setChan b n (fun c => { c with idleFrom := b.now })) b
  if l.isEmpty then b else wakeRecord b 3 0 (maskOfChans l) src

theorem wakeComplete_inst {b : Block} {src : Nat} (hwake : b.power.wakingInst = some src) (hon : b.power.inst = .on)
    (hhs : b.power.hs = none) (a : Arrays) : wakeComplete a b .inst = afterWake a (instRuns b src) := by
  simp [wakeComplete, hwake, hon, hhs, instRuns]

/-- After a wake of the instance no channel's power is other than Run, and none is waking. -/
theorem instRuns_power (b : Block) (src : Nat) :
    (instRuns b src).power.ch = [] ∧ (instRuns b src).power.waking = [] ∧ (instRuns b src).power.wakingInst = none := by
  have hfold (l : List Nat) (c : Block) :
      (l.foldl (fun b n => setChan b n (fun c => { c with idleFrom := b.now })) c).power = c.power :=
    foldl_inv (fun d => d.power = c.power) _ (fun _ _ h => (setChan_power ..).trans h) l c rfl
  unfold instRuns
  extract_lets l b' b''
  have hb : b''.power = { b.power with ch := [], waking := [], wakingInst := none } := (hfold ..).trans (setPower_power ..)
  split <;> simp [hb]

/-- A wake in Off powers the core, and leaves it empty and about to boot. -/
theorem wakeOff_spec (b : Block) (src : Nat) : (wakeOff b src).power.inst = .on ∧ (wakeOff b src).bring.phase = 0
    ∧ (wakeOff b src).bring.coreLost = true ∧ (wakeOff b src).chans = [] ∧ (wakeOff b src).bring.store = [] := by
  unfold wakeOff
  extract_lets asks b₁ r b₂ w r' o b₃
  obtain ⟨i, u, hrelease⟩ := releaseCore_eq (wakeRecord b₃ 4 0 (2 ^ b₃.build.channels - 1) src)
  obtain ⟨l, e, q, hrecord⟩ := wakeRecord_eq b₃ 4 0 (2 ^ b₃.build.channels - 1) src
  obtain ⟨t, o', r'', d, -, hreset⟩ := resetCore_eq { b₁ with bring := { b₁.bring with inReset := true } } false
  rw [hrelease, hrecord]
  simp [b₃, r', b₂, r, resetCauseway, hreset, Power.init, resetBring]

/-- Settles O42: the wakes by `runChan_power`, `instRuns_power`, `wakeDeep_power` and `wakeOff_spec`. -/
theorem wakesRunChannels : Obligations.WakesRunChannels := by
  unfold Obligations.WakesRunChannels
  intro s b
  refine ⟨fun ch src hch hwake hfree hon hasleep => ?_, fun src hwake hon hhs => ?_, fun hwake => ?_, fun hdeep => ?_, fun hoff => ?_⟩
  · have hpower := runChan_power hasleep src
    refine ⟨runChan b ch src, guarded_eq_next hch (by simp [wakeComplete, b, hwake, hfree, hon]), ?_, fun n hn => ?_, ?_, ?_⟩
    · simp [chPower, hpower]
    · simp [chPower, hpower, tget_tset, hn.symm]
    · simp [hpower]
    · simp [hpower]
  · obtain ⟨hch, hwaking, hinst⟩ := instRuns_power b src
    exact ⟨instRuns b src, guarded_eq_next rfl (wakeComplete_inst hwake hon hhs s.arr), fun n => by simp [chPower, hch, tget], hinst, hwaking⟩
  · exact guarded_eq_next rfl (by simp [wakeComplete, b, hwake])
  · obtain ⟨hon, hwaking⟩ := wakeDeep_power b 5 true
    exact ⟨{ s with blk := wakeDeep b 5 true }, by simp [exec, execWakeN, wakePin, b, hdeep, done], hon, by simp [hwaking]⟩
  · exact ⟨{ s with blk := wakeOff b 5 }, by simp [exec, execWakeN, wakePin, b, hoff, done], wakeOff_spec b 5⟩

end Sys2Proof.Machine
end

section
/-! PROOFS. The power handshake (R354 to R363): the ask, the commit point, the ends without an entry, and the entry. -/

namespace Sys2Proof.Machine

theorem done_eq_next {s : State} {b c : Block} (h : b = c) : done s b = .next { s with blk := c } := h ▸ rfl

/-! Channels without conditions (R356). -/

section
variable {b : Block} {n : Nat}

theorem answerOf_eq_zero : answerOf b n = 0 ↔ noWork b n = true := by
  simp only [answerOf, noWork]
  cases (conds b n).tallies <;> cases (conds b n).delays <;> decide

/-- A channel without conditions holds no tallies, and its merge buffer is empty. -/
theorem noWork_free (h : noWork b n = true) : holdsTallies b n = false ∧ (chan b n).merge = [] := by
  have hconds : (conds b n).tallies = false ∧ (conds b n).merge = false := by
    simp only [noWork, Conds.delays, Bool.not_eq_true', Bool.or_eq_false_iff] at h
    exact ⟨h.1, by simp [h]⟩
  exact ⟨hconds.1, by simpa [conds] using hconds.2⟩

end

theorem drainAsked_free {b : Block} {l : List Nat} (hfree : ∀ n ∈ l, (chan b n).merge = []) (a : Arrays) : drainAsked a b l = b := by
  induction l with
  | nil => rfl
  | cons n l ih =>
    have hn : drainWhere a b n (fun _ => true) = b := by simp [drainWhere, hfree n (by simp)]
    rw [drainAsked, List.foldl_cons, hn]
    exact ih fun k hk => hfree k (by simp [hk])

theorem refuser_free {b : Block} {l : List Nat} (hfree : ∀ n ∈ l, holdsTallies b n = false) : refuser b l = none := by
  simpa [refuser] using hfree

/-! The ask (R354, R355). -/

/-- The ask of a channel for an automatic entry. -/
def autoAsk (b : Block) (target ch : Nat) : Handshake :=
  { target := target, mask := [ch], auto := true, cmd := none, phase := .ask, granted := false, usedUs := 0, fromUs := usNow b, drainUs := 0 }

theorem startHs_auto {b : Block} {target ch : Nat} (htarget : target < 3) (hwork : noWork b ch = true) (a : Arrays) :
    startHs a b target [ch] true none = { b with power := { b.power with hs := some (autoAsk b target ch) } } := by
  let c : Block := { b with power := { b.power with hs := some (autoAsk b target ch) } }
  have hasked : askedChans c (autoAsk b target ch) = [ch] := if_neg (by simpa [autoAsk] using htarget)
  obtain ⟨htallies, hmerge⟩ := noWork_free hwork
  have hrefuse : refuser c [ch] = none := refuser_free fun n hn => List.mem_singleton.1 hn ▸ htallies
  calc startHs a b target [ch] true none
      = checkRefuse (drainAsked a c (askedChans c (autoAsk b target ch))) := rfl
    _ = checkRefuse c := by rw [hasked, drainAsked_free fun n hn => List.mem_singleton.1 hn ▸ hmerge]
    _ = c := by
      unfold checkRefuse
      simp only [c]
      rw [show askedChans _ (autoAsk b target ch) = [ch] from hasked, show refuser _ [ch] = none from hrefuse]

theorem idleAfter_asks {b : Block} {ch : Nat} (hready : autoReady b ch = true) (hrun : chPower b ch = .run)
    (hn : fld b.regs.pwrPolicy 0 16 ≠ 0) (hdue : (chan b ch).idleFrom + fld b.regs.pwrPolicy 0 16 ≤ b.now) (hwork : noWork b ch = true)
    (hroster : rosterOwned b ch = false) (a : Arrays) :
    idleAfter a b ch = { b with power := { b.power with hs := some (autoAsk b 1 ch) } } := by
  rw [idleAfter, if_pos (by simp [hready, hrun, hn, hdue, hwork, hroster]), startHs_auto (by decide) hwork]

theorem idleAfter_waits {b : Block} {ch : Nat}
    (h : fld b.regs.pwrPolicy 0 16 = 0 ∨ b.now < (chan b ch).idleFrom + fld b.regs.pwrPolicy 0 16 ∨ noWork b ch = false) (a : Arrays) :
    idleAfter a b ch = b := by
  obtain h | h | h := h
  · simp [idleAfter, h]
  · simp [idleAfter, Nat.not_le.2 h]
  · simp [idleAfter, h]

theorem sleepAfter_asks {b : Block} {ch : Nat} (hready : autoReady b ch = true) (hidle : chPower b ch = .idle)
    (hm : fld b.regs.pwrPolicy 16 32 ≠ 0) (hdue : usDue b (tget 0 b.power.idleUs ch) (fld b.regs.pwrPolicy 16 32) = true)
    (hwork : noWork b ch = true) (a : Arrays) :
    sleepAfter a b ch = { b with power := { b.power with hs := some (autoAsk b 2 ch) } } := by
  rw [sleepAfter, if_pos (by simp [hready, hidle, hm, hdue]), startHs_auto (by decide) hwork]

theorem sleepAfter_waits {b : Block} {ch : Nat} (h : chPower b ch ≠ .idle ∨ fld b.regs.pwrPolicy 16 32 = 0) (a : Arrays) :
    sleepAfter a b ch = b := by
  obtain h | h := h <;> simp [sleepAfter, h]

/-! The commit point (R355, R357, R358, R361). -/

section
variable {b : Block} {h : Handshake} (hhs : b.power.hs = some h)
include hhs

/-- Where every channel agrees, the commit is the choice by target. -/
theorem hsCommit_agreed (hask : h.phase = .ask) (hagree : allAgree b h = true) (hedge : b.now % 4 = 0) (a : Arrays) :
    hsCommit a b =
      if h.target < 3 then { b with power := { b.power with hs := some { h with phase := .entering } } }
      else if sumpQuiet b = false ∨ b.bring.wiping = true then b
      else if h.target = 3 then { b with power := { b.power with hs := some { h with phase := .entering } } }
      else if h.granted = false then sendOffReq b h
      else { b with
        power := { b.power with hs := some { h with phase := .drain, drainUs := usNow b } }
        cw := { b.cw with stopTransit := true } } := by
  have hfree (n : Nat) (hn : n ∈ askedChans b h) : holdsTallies b n = false ∧ (chan b n).merge = [] :=
    noWork_free (answerOf_eq_zero.1 (by simpa using List.all_eq_true.1 hagree n hn))
  simp only [hsCommit, hhs]
  rw [if_neg (by simp [hask]), refuser_free fun n hn => (hfree n hn).1, if_neg (by decide),
    drainAsked_free fun n hn => (hfree n hn).2, if_neg (by simp [hagree, hedge])]

theorem abandonHs_power (reason ch : Nat) :
    (abandonHs b reason ch).power = { b.power with hs := none, refuseReason := reason, refuseCh := ch } := by
  simp [abandonHs, hhs]

end

/-- OFF_REQ is a message: beside the handshake nothing of the power state changes. -/
theorem sendOffReq_power (b : Block) (h : Handshake) : (sendOffReq b h).power = { b.power with hs := some { h with
    phase := .offAck, usedUs := h.usedUs + (usNow b - h.fromUs), fromUs := usNow b } } :=
  (routeCtl_sends ..).keeps Block.power

/-! The entry (R359). -/

theorem tget_foldl_tset {α : Type} (d v : α) (l : List Nat) (t : Tbl α) (n : Nat) :
    tget d (l.foldl (fun t n => tset t n v) t) n = if n ∈ l then v else tget d t n := by
  induction l generalizing t with
  | nil => simp
  | cons k l ih => by_cases hn : n ∈ l <;> simp [ih, hn, tget_tset, eq_comm]

/-- The held requests of the state entered wake the core in Deep sleep alone, and begin no handshake. -/
theorem wakeHeld_hs (b : Block) : (wakeHeld b).power.hs = b.power.hs := by
  have hdeep (src : Nat) (toRun : Bool) : (wakeDeep b src toRun).power.hs = b.power.hs := by cases toRun <;> simp [wakeDeep]
  unfold wakeHeld
  split
  · split
    · exact hdeep ..
    · exact hdeep ..
    · rfl
  · rfl

/-- The power state when a handshake of channels has entered its state. -/
def Power.entered (p : Power) (h : Handshake) (us : Nat) : Power :=
  { p with
    hs := none, ch := h.mask.foldl (fun t n => tset t n (if h.target = 1 then .idle else .sleep)) p.ch
    idleUs := if h.target = 1 then h.mask.foldl (fun t n => tset t n us) p.idleUs else p.idleUs }

/-- The entry of channels is the change of the power state, its record and the command's end, then the wakes of held requests. -/
theorem entryComplete_chans {b : Block} {h : Handshake} (hhs : b.power.hs = some h) (hentering : h.phase = .entering)
    (htarget : h.target = 1 ∨ h.target = 2) :
    ∃ c, entryComplete b = wakeHeld c ∧ c.power = b.power.entered h (usNow b) := by
  have hasked : askedChans b h = h.mask := if_neg (by omega)
  have h3 : h.target ≠ 3 := by omega
  have h4 : h.target ≠ 4 := by omega
  simp only [entryComplete, hhs, hentering, hasked]
  rw [if_neg (by simp), if_neg h4]
  refine ⟨_, rfl, ?_⟩
  simp [entryRecord, h3, h4, Power.entered]

/-- Settles O40: the asks are `idleAfter_asks` and `sleepAfter_asks` (one automatic entry at a time, log 66), the commit
`hsCommit_agreed`, the entry `entryComplete_chans`, and an abandoned handshake leaves what `abandonHs_power` says. -/
theorem powerHandshakeRuns : Obligations.PowerHandshakeRuns := by
  unfold Obligations.PowerHandshakeRuns
  refine ⟨fun s ch hch hready => ?_, fun s h hhs => ?_⟩
  · exact ⟨fun hrun hn hdue hwork hroster => guarded_eq_next hch (idleAfter_asks hready hrun hn hdue hwork hroster s.arr),
      fun h => guarded_eq_next hch (idleAfter_waits h s.arr),
      fun hidle hm hdue hwork => guarded_eq_next hch (sleepAfter_asks hready hidle hm hdue hwork s.arr),
      fun h => guarded_eq_next hch (sleepAfter_waits h s.arr)⟩
  · intro b with_
    have hmay (hquiet : sumpQuiet b = true) (hwipe : b.bring.wiping = false) : ¬ (sumpQuiet b = false ∨ b.bring.wiping = true) := by
      rw [hquiet, hwipe]
      decide
    have hopen (hask : h.phase = .ask) : hsOpen h = true := by simp [hsOpen, hask]
    refine ⟨fun hask hagree hedge => ⟨fun hlow => ?_, fun h3 hquiet hwipe => ?_, fun h4 hquiet hwipe hgrant => ?_,
      fun h4 hquiet hwipe hgrant => ?_⟩, fun n hask hrefuse => ?_, fun hphase => ⟨?_, ?_⟩, fun code ch hask hdue hreason => ?_,
      fun hphase hdue => ?_, fun hphase => ?_, fun hphase htarget => ?_⟩
    · exact done_eq_next ((hsCommit_agreed hhs hask hagree hedge s.arr).trans (if_pos hlow))
    · exact done_eq_next ((hsCommit_agreed hhs hask hagree hedge s.arr).trans (by simp [h3, hquiet, hwipe, b, with_]))
    · have hcommit : hsCommit s.arr b = sendOffReq b h :=
        (hsCommit_agreed hhs hask hagree hedge s.arr).trans (by
          rw [if_neg (by omega), if_neg (hmay hquiet hwipe), if_neg (by omega), if_pos hgrant])
      exact ⟨{ s with blk := sendOffReq b h }, done_eq_next hcommit, _, congrArg Power.hs (sendOffReq_power b h), rfl, h4⟩
    · refine ⟨_, done_eq_next ((hsCommit_agreed hhs hask hagree hedge s.arr).trans
        (by rw [if_neg (by omega), if_neg (hmay hquiet hwipe), if_neg (by omega), if_neg (by simp [hgrant])])), rfl, rfl⟩
    · have hcommit : hsCommit s.arr b = abandonHs b 1 n := by
        simp [hsCommit, checkRefuse, b, hhs, hask, hrefuse, hopen hask]
      have hpower := abandonHs_power hhs 1 n
      exact ⟨{ s with blk := abandonHs b 1 n }, done_eq_next hcommit, by simp [b, hpower]⟩
    · exact done_eq_next (by simp [hsCommit, b, hhs, hphase])
    · exact done_eq_next (by simp [hsLimit, b, hhs, hphase])
    · have hlimit : hsLimit b = abandonHs b code ch := by simp [hsLimit, b, hhs, hask, hdue, hreason]
      have hpower := abandonHs_power hhs code ch
      exact ⟨{ s with blk := abandonHs b code ch }, done_eq_next hlimit, by simp [b, hpower]⟩
    · have hlate : offAckTimeout b = abandonHs b 7 0 := by simp [offAckTimeout, b, hhs, hphase, hdue]
      have hpower := abandonHs_power hhs 7 0
      exact ⟨{ s with blk := abandonHs b 7 0 }, done_eq_next hlate, by simp [b, hpower]⟩
    · exact done_eq_next (by simp [offAckTimeout, b, hhs, hphase])
    · obtain ⟨c, hentry, hpower⟩ := entryComplete_chans hhs hphase htarget
      refine ⟨wakeHeld c, done_eq_next hentry, by simp [wakeHeld_hs, hpower, Power.entered], fun hon n => ?_⟩
      have hheld : wakeHeld c = c := if_neg (by simp [hpower, Power.entered, b] at hon ⊢; simp [hon])
      rw [hheld, chPower, hpower]
      exact tget_foldl_tset ..

end Sys2Proof.Machine
end

section
/-! PROOFS. Presence, tamper and wipes (R341 to R346): HOLD_MS, what the start of a wipe does to the seams, the slot that stores a line as
zeros, and the end of a wipe. -/

namespace Sys2Proof.Machine

theorem doneArr_eq_next {s : State} {r : Arrays × Block} {a : Arrays} {c : Block} (h : r = (a, c)) :
    doneArr s r = .next { s with arr := a, blk := c } := h ▸ rfl

/-! Presence (R341, R342). -/

theorem closeDebug_bring (b : Block) : (closeDebug b).bring = b.bring := by
  unfold closeDebug
  split <;> rfl

/-- HOLD_MS is taken anew; debug access that DEBUG_UNLOCK opened stays while PRESENT holds. -/
theorem refreshHold_bring (b : Block) : (refreshHold b).bring =
    { b.bring with holdMs := holdNow b, unlocked := if 100 ≤ holdNow b then b.bring.unlocked else false } := by
  unfold refreshHold
  by_cases h : 100 ≤ holdNow b
  · simp [present, h]
  · simp [present, h, closeDebug_bring]

theorem refreshHold_dbg {b : Block} (h : 100 ≤ holdNow b) : (refreshHold b).dbg = b.dbg := by
  simp [refreshHold, present, h]

/-- A change of PRESENCE_N starts its time anew. -/
theorem presencePin_bring {b : Block} {low : Bool} (h : low ≠ b.bring.presenceLow) : (presencePin b low).bring =
    { b.bring with presenceLow := low, presenceFrom := usNow b, holdMs := 0, unlocked := false } := by
  have hhold : holdNow { b with bring := { b.bring with presenceLow := low, presenceFrom := usNow b } } = 0 := by
    cases low
    · rfl
    · exact (congrArg (fun n => min 65535 (n / 1000)) (Nat.sub_self (usNow b))).trans rfl
  rw [presencePin, if_neg h, refreshHold_bring, hhold]
  rfl

/-! The start of a wipe (R345, R346). -/

/-- Zeroing a seam drains merge entries and posts operations. -/
theorem zeroSeam_undrained (a : Arrays) (b : Block) (kind : LKind) (n : Nat) : (zeroSeam a b kind n).undrained = b.undrained := by
  unfold zeroSeam
  refine foldl_inv (fun c : Block => c.undrained = b.undrained) _
    (fun c ch hc => foldl_inv (fun c : Block => c.undrained = b.undrained) _ (fun c bank hc => ?_) _ c hc) _ _
    (DrainsTo.foldl (fun c ch => drainWhere_drainsTo a c ch (fun e => e.seam == n)) (List.range b.build.channels) b).fixed
  split
  · exact hc
  · exact hc

/-- The seams that a wipe zeroes: those that are SECURE. -/
def secureSeams (b : Block) : List Nat := (b.seams.filter (fun e => e.2.valid && e.2.secure)).map (fun e => e.1)

/-- The block when a wipe has emptied their owner sets. -/
def wipeBegun (b : Block) (cause : Nat) : Block :=
  { b with
    seams := b.seams.map (fun e => if (secureSeams b).contains e.1 then (e.1, { e.2 with owners := 0 }) else e)
    bring := { b.bring with wiping := true, wipeSeams := secureSeams b, wipeCause := cause } }

theorem startWipe_undrained {b : Block} (h : b.bring.wiping = false) (a : Arrays) (cause : Nat) :
    (startWipe a b cause).undrained = (wipeBegun b cause).undrained := by
  have hfold : startWipe a b cause = (secureSeams b).foldl (fun b n => zeroSeam a b .wipe n) (wipeBegun b cause) := by
    rw [startWipe, if_neg (by simp [h])]
    rfl
  rw [hfold]
  exact foldl_inv (fun c : Block => c.undrained = (wipeBegun b cause).undrained) _ (fun c n hc => (zeroSeam_undrained a c .wipe n).trans hc) _ _ rfl

theorem startWipe_frame {b : Block} (h : b.bring.wiping = false) (a : Arrays) (cause : Nat) :
    (startWipe a b cause).seams = (wipeBegun b cause).seams ∧ (startWipe a b cause).bring = (wipeBegun b cause).bring
    ∧ (startWipe a b cause).power = b.power ∧ (startWipe a b cause).build = b.build ∧ (startWipe a b cause).cmdq = b.cmdq := by
  have hframe := startWipe_undrained h a cause
  exact ⟨(congrArg Block.seams hframe :), (congrArg Block.bring hframe :), (congrArg Block.power hframe :), (congrArg Block.build hframe :),
    (congrArg Block.cmdq hframe :)⟩

theorem secureSeams_mem {b : Block} {n : Nat} {e : Seam} (h : (n, e) ∈ b.seams) (hvalid : e.valid = true) (hsecure : e.secure = true) :
    n ∈ secureSeams b :=
  List.mem_map.2 ⟨(n, e), List.mem_filter.2 ⟨h, by simp [hvalid, hsecure]⟩, rfl⟩

/-- A core that runs does not have to wake for its wipe. -/
theorem wakeForWipe_awake {b : Block} (hon : b.power.inst = .on) (hstate : coreState b ≤ 1) : wakeForWipe b = b := by
  simp [wakeForWipe, hon, hstate]

/-- The block when TAMPER_N has gone low, recorded with its wipe. -/
def tamperSeen (b : Block) : Block :=
  emit { b with bring := { b.bring with tamper := true, tampered := true } } 0x54 none none (putBit 0 true)

/-- The first low of TAMPER_N on a core that is awake starts a wipe at once. -/
theorem tamperAssert_awake {b : Block} (htamper : b.bring.tamper = false) (hready : isReady b = true) (hon : b.power.inst = .on)
    (hclk : b.safety.clkHeld = false) (hwiping : b.bring.wiping = false) (hhs : b.power.hs = none) (hstate : coreState b ≤ 1) (a : Arrays) :
    tamperAssert a b = startWipe a (tamperSeen b) 1 := by
  obtain ⟨-, -, hpower, hbuild, -⟩ := startWipe_frame (b := tamperSeen b) (by simpa [tamperSeen] using hwiping) a 1
  have hon' : (startWipe a (tamperSeen b) 1).power.inst = .on := by rw [hpower, ← hon]; simp [tamperSeen]
  have hstate' : coreState (startWipe a (tamperSeen b) 1) ≤ 1 := by
    refine le_of_eq_of_le ?_ hstate
    simp only [coreState, chPower, hpower, hbuild]
    simp [tamperSeen]
  have hready' : isReady { b with bring := { b.bring with tamper := true, tampered := true } } = true := hready
  rw [← wakeForWipe_awake (b := startWipe a (tamperSeen b) 1) hon' hstate']
  have hpowered : (IState.on != .off) = true := rfl
  simp [tamperAssert, htamper, hready', hon, hclk, hhs, tamperSeen, hpowered]

/-! The slot of a wipe (R67, R345). -/

theorem performOp_zero {b : Block} {op : LineOp} (hk : op.kind = .wipe ∨ op.kind = .clear) (h : b.noTurn op) (a : Arrays) (bs : BankSt)
    (slot : Nat) : performOp a b bs slot op =
      performZero a { b with ops := b.ops.filter (fun o => o.serial != op.serial) } (slotted b bs slot op) := by
  unfold performOp
  extract_lets coll turn ackAt next c d
  have hturn : turn = false := by rcases hk with hk | hk <;> simp [turn, hk, bySequencer]
  have hnext : next = slotted b bs slot op := by simp only [next, hturn]; rfl
  have hd : d = c := by unfold d; rcases hk with hk | hk <;> rw [hk]
  have hc : c.ops = b.ops.map (fun o => if o.serial = op.serial then slotted b bs slot op else o) := by rw [← hnext]
  have hact : actOnLine a c (slotted b bs slot op) =
      performZero a { c with ops := c.ops.filter (fun o => o.serial != (slotted b bs slot op).serial) } (slotted b bs slot op) := by
    have hkind : (slotted b bs slot op).kind = op.kind := rfl
    rcases hk with hk | hk <;> simp only [actOnLine, hkind, hk]
  rw [hd, hnext, turnAhead_slotted h hc, if_neg Bool.false_ne_true, hact, hc, filter_slotted]

theorem performZero_arr (a : Arrays) (b : Block) (op : LineOp) :
    (performZero a b op).1 = putLine a b op.ch op.bank op.row (fun _ => storeWord false 0) := by
  unfold performZero
  dsimp only
  split <;> rfl

/-- The seam's next line in the bank bids. -/
theorem performZero_next {b : Block} {op : LineOp} {line : Nat} (h : lineIn b (seamOf b op.seam) op.ch op.bank (op.row + 1) = some line)
    (a : Arrays) : { op with row := op.row + 1, line := line, stage := .bank, readyAt := b.now + 1, waited := 0, reported := false } ∈
      (performZero a b op).2.ops := by
  have hline : lineIn (dropClaim b op.ch op.bank op.row) (seamOf b op.seam) op.ch op.bank (op.row + 1) = some line := h
  simp only [performZero, hline]
  exact List.mem_append_right _ (List.mem_singleton_self _)

/-! The end of a wipe (R345). -/

theorem tagSeam_mem (a : Arrays) (b : Block) (s : Seam) : (tagSeam a b s).mem = a.mem := by
  refine foldl_inv (fun c : Arrays => c.mem = a.mem) _ (fun c ch hc => foldl_inv (fun c : Arrays => c.mem = a.mem) _ (fun c row hc => ?_) _ c hc)
    _ a rfl
  dsimp only
  split
  · exact hc
  · exact hc

theorem clearTags_frame (a : Arrays) (b : Block) (n : Nat) :
    (clearTags a b n).1.mem = a.mem ∧ (clearTags a b n).2.seams = b.seams ∧ (clearTags a b n).2.bring = b.bring := by
  unfold clearTags
  dsimp only
  split
  · exact ⟨tagSeam_mem .., rfl, rfl⟩
  · exact ⟨rfl, rfl, rfl⟩

/-- The seams of a wipe cleared by their tags. -/
def clearWiped (a : Arrays) (b : Block) (l : List Nat) : Arrays × Block := l.foldl (fun r n => clearTags r.1 r.2 n) (a, b)

theorem clearWiped_frame (a : Arrays) (b : Block) (l : List Nat) :
    (clearWiped a b l).1.mem = a.mem ∧ (clearWiped a b l).2.seams = b.seams ∧ (clearWiped a b l).2.bring = b.bring := by
  refine foldl_inv (fun r : Arrays × Block => r.1.mem = a.mem ∧ r.2.seams = b.seams ∧ r.2.bring = b.bring) _ (fun r n hr => ?_) l (a, b)
    ⟨rfl, rfl, rfl⟩
  obtain ⟨hmem, hseams, hbring⟩ := clearTags_frame r.1 r.2 n
  exact ⟨hmem.trans hr.1, hseams.trans hr.2.1, hbring.trans hr.2.2⟩

/-- Where none of them is a ZMAP seam there is nothing to do. -/
theorem clearWiped_plain {b : Block} {l : List Nat} (h : ∀ n ∈ l, (seamOf b n).zmap = false) (a : Arrays) : clearWiped a b l = (a, b) := by
  induction l with
  | nil => rfl
  | cons n l ih =>
    have hn : clearTags a b n = (a, b) := by simp [clearTags, h n (by simp)]
    rw [clearWiped, List.foldl_cons, hn]
    exact ih fun k hk => h k (by simp [hk])

theorem advanceLife_frame (b : Block) : (advanceLife b).seams = b.seams ∧ (advanceLife b).bring.wiping = b.bring.wiping
    ∧ (advanceLife b).bring.wipeSeams = b.bring.wipeSeams := by
  have hclose (c : Block) : (closeDebug c).seams = c.seams := by unfold closeDebug; split <;> rfl
  unfold advanceLife
  split
  · exact ⟨rfl, rfl, rfl⟩
  · simp [hclose, closeDebug_bring]

/-- The block when the tags of a wipe's seams are set and the wipe is recorded. -/
def wipeEnded (c : Block) : Block :=
  let c := emit c 0x53 none none (put 0 2 c.bring.wipeCause ||| put 8 8 c.bring.wipeSeams.length)
  { c with bring := { c.bring with wiping := false, wipeSeams := [], wipeCause := 0, wipeHold := false } }

theorem wipeDone_due {b : Block} (hwiping : b.bring.wiping = true) (hready : wipeReady b = true)
    (hzero : b.bring.wipeSeams.all (seamZeroed b) = true) (a : Arrays) :
    wipeDone a b = ((clearWiped a b b.bring.wipeSeams).1, advanceLife (wipeEnded (clearWiped a b b.bring.wipeSeams).2)) := by
  rw [wipeDone, if_neg (by simp [hwiping, hready, hzero])]
  rfl

theorem wipeDone_waits {b : Block} (h : b.bring.wiping = false ∨ b.bring.wipeSeams.all (seamZeroed b) = false) (a : Arrays) :
    wipeDone a b = (a, b) := if_pos (h.imp_right .inr)

/-- Settles O38: presence by `presencePin_bring` and `refreshHold_bring`, tamper by `tamperAssert_awake` and `startWipe_frame`, the end of
the wipe by `wipeDone_due`, the slot by `performOp_zero`. That the line of the next row in the bank bids next is the choice of log 50. -/
theorem tamperWipesSecureSeams : Obligations.TamperWipesSecureSeams := by
  unfold Obligations.TamperWipesSecureSeams
  intro s b
  refine ⟨fun low h => done_eq_next (if_pos h), fun low h => ?_, ?_, fun h => done_eq_next (if_pos h),
    fun htamper hready hon hclk hwiping hhs hstate => ?_, rfl, fun h => doneArr_eq_next (wipeDone_waits h s.arr),
    fun hwiping hready hzero => ?_, fun ch bank slot rank op hgrant hk => ?_⟩
  · refine ⟨_, done_eq_next rfl, ?_⟩
    simp [b, presencePin_bring h]
  · refine ⟨_, done_eq_next rfl, ?_⟩
    simp +contextual [b, refreshHold_bring, refreshHold_dbg]
  · obtain ⟨hseams, hbring, -⟩ := startWipe_frame (b := tamperSeen b) (by simpa [tamperSeen] using hwiping) s.arr 1
    refine ⟨_, done_eq_next (tamperAssert_awake htamper hready hon hclk hwiping hhs hstate s.arr), ?_⟩
    have hseen : (tamperSeen b).seams = b.seams := by simp [tamperSeen]
    have hsecure : secureSeams (tamperSeen b) = secureSeams b := by rw [secureSeams, hseen, secureSeams]
    rw [hbring, hseams, wipeBegun, hseen, hsecure]
    refine ⟨by simp [tamperSeen], by simp [tamperSeen], rfl, rfl, fun n e he hvalid hsec => ?_⟩
    have hn := secureSeams_mem he hvalid hsec
    exact ⟨List.mem_map.2 ⟨(n, e), he, by simp [hn]⟩, hn⟩
  · obtain ⟨hmem, hseams, hbring⟩ := clearWiped_frame s.arr b b.bring.wipeSeams
    obtain ⟨hlseams, hlwiping, hlwiped⟩ := advanceLife_frame (wipeEnded (clearWiped s.arr b b.bring.wipeSeams).2)
    refine ⟨_, doneArr_eq_next (wipeDone_due hwiping hready hzero s.arr), hmem, fun hplain => ?_, ?_, ?_, ?_⟩
    · exact congrArg (fun r => r.1.tags) (clearWiped_plain hplain s.arr)
    · exact hlwiping
    · exact hlwiped
    · exact hlseams.trans ((emit_seams ..).trans hseams)
  · intro key
    obtain ⟨rfl, rfl, c, hc, hturn, hexec⟩ := exec_bankSlotGrant hgrant
    have hkey : servedKey c op.ch op.bank op.row = key := hc.servedKey op.bank op.row
    rw [performOp_zero hk hturn] at hexec
    refine ⟨_, hexec, ?_, fun k hk => ?_, fun i hi => ?_, fun line hline => ?_⟩
    · rw [performZero_arr]
      rfl
    · rw [performZero_arr, ← hkey]
      exact readWord_writeLine _ _ _ hk
    · rw [performZero_arr]
      refine readByte_writeLine_out _ _ ?_
      rw [← hkey] at hi
      exact hi
    · have hnext : lineIn c (seamOf c op.seam) op.ch op.bank (op.row + 1) = some line := by
        rw [hc.eq]
        exact hline
      have hmem := performZero_next (b := { c with ops := c.ops.filter (fun o => o.serial != op.serial) })
        (op := slotted c (bankOf (chan s.blk op.ch) op.bank) slot op) hnext s.arr
      exact ⟨_, hmem, rfl, rfl, rfl, rfl, rfl, rfl, rfl⟩

end Sys2Proof.Machine
end

section
/-! PROOFS. The observation unit (R446, R452 to R460): what the entering of trace records leaves alone, and its rows. -/

namespace Sys2Proof.Machine

/-! What the entering of records changes. -/

/-- Everything of the observation unit that the entering of trace records leaves alone. -/
def Observe.unrecorded (o : Observe) : Observe :=
  { o with buffer := [], written := 0, oldest := 0, dropped := 0, disc := 0, inCycle := (0, 0), postLeft := 0 }

theorem trcDrop_unrecorded (o : Observe) (cls : Nat) : (trcDrop o cls).unrecorded = o.unrecorded := by
  unfold trcDrop
  extract_lets add o'
  split <;> rfl

theorem trcPlace_unrecorded (o : Observe) (r : TraceRec) : (trcPlace o r).unrecorded = o.unrecorded := by
  unfold trcPlace
  extract_lets app full
  split
  · rfl
  split
  · split
    · rfl
    · exact trcDrop_unrecorded ..
  split
  · exact trcDrop_unrecorded ..
  split
  · exact (trcDrop_unrecorded ..).trans rfl
  · exact trcDrop_unrecorded ..

theorem unrecorded_written (o : Observe) (l : List TraceRec) (n : Nat) :
    ({ o with buffer := l, written := n } : Observe).unrecorded = o.unrecorded := rfl

theorem trcOust_unrecorded (o : Observe) (v : Option (Nat × TraceRec)) : (trcOust o v).unrecorded = o.unrecorded := by
  cases v with
  | none => rfl
  | some e =>
    obtain ⟨n, r⟩ := e
    simp only [trcOust]
    generalize ho' : trcDrop _ r.cls = o'
    have ho : o'.unrecorded = o.unrecorded := by rw [← ho', trcDrop_unrecorded, unrecorded_written]
    split
    · exact Eq.trans rfl ho
    · exact ho

theorem trcSettle_unrecorded (o : Observe) (cls : Nat) : (trcSettle o cls).unrecorded = o.unrecorded := by
  unfold trcSettle
  extract_lets after
  split
  · split <;> rfl
  · rfl

/-- From `b` to `c` trace records enter, and nothing else happens. -/
structure Records (b c : Block) : Prop where
  frame : c = { b with obs := c.obs }
  obs : c.obs.unrecorded = b.obs.unrecorded

theorem Records.of_obs {b : Block} {o : Observe} (h : o.unrecorded = b.obs.unrecorded) : Records b { b with obs := o } := ⟨rfl, h⟩

theorem Records.refl (b : Block) : Records b b := ⟨rfl, rfl⟩

theorem Records.trans {b c d : Block} (hbc : Records b c) (hcd : Records c d) : Records b d :=
  ⟨by rw [hcd.frame, hbc.frame], hcd.obs.trans hbc.obs⟩

/-- What does not look at the records is kept. -/
theorem Records.keeps {b c : Block} (h : Records b c) {α : Type} (f : Observe → α) (hf : ∀ o : Observe, f o.unrecorded = f o := by intro; rfl) :
    f c.obs = f b.obs :=
  (hf _).symm.trans ((congrArg f h.obs).trans (hf _))

theorem trcPut_records (b : Block) (cls kind info : Nat) (trig win : Bool) (w : Word) : Records b (trcPut b cls kind info trig win w) := by
  unfold trcPut
  split
  · exact .of_obs ((trcPlace_unrecorded ..).trans rfl)
  · exact .refl b

theorem trcEnter_records (b : Block) (cls kind info : Nat) (w : Word) : Records b (trcEnter b cls kind info w) := by
  unfold trcEnter
  split
  · extract_lets cyc used win ousted o' b'
    have hb : Records b b' := .of_obs rfl
    split
    · exact hb.trans (.of_obs (trcDrop_unrecorded ..))
    · refine hb.trans (.trans (.of_obs (trcOust_unrecorded ..)) ((trcPut_records ..).trans (.of_obs ?_)))
      rw [trcSettle_unrecorded]
      split <;> rfl
  · exact .refl b

/-! The rows. -/

/-- A SYNC sets the time from which the next one counts. -/
theorem traceSync_obs (b : Block) : ∃ p, traceSync b = { b with obs := p } ∧ p.syncAt = b.obs.stamp := by
  unfold traceSync
  extract_lets c
  have hc : Records b c := trcEnter_records ..
  exact ⟨_, by rw [hc.frame], hc.keeps Observe.stamp⟩

theorem triggerTrace_obs {b : Block} (harmed : b.obs.trcState = .armed) : ∃ p, triggerTrace b = { b with obs := p } ∧ p.trcState = .triggered
    ∧ p.postLeft = b.obs.post ∧ (bit b.obs.trcTrig 63 = true → p.trigFrozen = true) := by
  unfold triggerTrace
  rw [if_pos harmed]
  extract_lets src o c d o' e
  have hd : Records c d := trcPut_records ..
  have hpost : d.obs.post = b.obs.post := (hd.keeps Observe.post).trans rfl
  have hframe : d = { b with obs := d.obs } := hd.frame
  have htrig : e.obs.trcTrig = b.obs.trcTrig := (hd.keeps Observe.trcTrig).trans rfl
  rw [htrig]
  split
  next h =>
    refine ⟨(withFreeze e (fun o => { o with trigFrozen := true })).obs, ?_, rfl, hpost, fun _ => rfl⟩
    simp only [withFreeze, e]
    rw [hframe]
  next h => exact ⟨e.obs, by simp only [e]; rw [hframe], rfl, hpost, fun h' => absurd h' h⟩

theorem endTrace_obs (b : Block) (st : TrcState) : ∃ p, endTrace b st = { b with obs := p } ∧ p.trcState = st := by
  unfold endTrace
  extract_lets c
  have hc : Records b c := trcPut_records ..
  exact ⟨_, by rw [hc.frame], rfl⟩

/-- The samples of a period are records alone. -/
theorem counterSample_due {b : Block} (hon : clsOn b.obs 0 = true) (hper : fld b.obs.trcCtl 48 16 * 1024 ≠ 0) (hruns : trcRuns b = true)
    (hlive : trcLive b.obs = true) (hdue : fld b.obs.trcCtl 48 16 * 1024 ≤ stampSince b.obs b.obs.sampleFrom) :
    Records { b with obs := { b.obs with sampleFrom := (b.obs.sampleFrom + fld b.obs.trcCtl 48 16 * 1024) % 2 ^ 32 } } (counterSample b) := by
  unfold counterSample
  rw [if_pos (by simp [hon, hper, hruns, hlive, hdue])]
  refine foldl_inv (Records _) _ (fun c n hc => hc.trans ?_) _ _ (.refl _)
  split
  · dsimp only
    split
    · exact (trcPut_records ..).trans (.of_obs rfl)
    · exact trcPut_records ..
  · exact .refl c

theorem traceTrigger_none {b : Block} (h : b.obs.trigDue = false) (src : Nat) : traceTrigger b src = b :=
  if_neg (by simp [h])

theorem syncDue_due {b : Block} (hruns : trcRuns b = true) (hdue : 2 ^ 20 ≤ stampSince b.obs b.obs.syncAt) : syncDue b = traceSync b :=
  if_pos (by simpa [hruns] using hdue)

theorem syncDue_early {b : Block} (h : stampSince b.obs b.obs.syncAt < 2 ^ 20) : syncDue b = b :=
  if_neg (by simp only [Bool.and_eq_true, decide_eq_true_eq]; exact fun hdue => absurd hdue.2 (Nat.not_le.2 h))

theorem counterSample_none {b : Block} (h : fld b.obs.trcCtl 48 16 * 1024 = 0 ∨ trcLive b.obs = false) : counterSample b = b := by
  obtain h | h := h
  · exact if_neg (by simp [h])
  · exact if_neg (by simp [h])

theorem t0Send_due {b : Block} {r : TraceRec} {rest : List TraceRec} (hbuffer : b.obs.buffer = r :: rest) (hstream : b.obs.stream = true)
    (hruns : trcRuns b = true) (hdue : b.obs.t0 = none ∨ b.obs.t0At + 16 ≤ b.now) : t0Send b = { b with obs := { b.obs with
      buffer := rest, oldest := (b.obs.oldest + 1) % 16384, t0 := some (r.w0, r.w1), t0At := b.now } } := by
  have hfree : (b.obs.t0.isNone || decide (b.obs.t0At + 16 ≤ b.now)) = true := by simpa using hdue
  simp only [t0Send, hbuffer, hstream, hruns, hfree]
  rfl

theorem t0Send_none {b : Block} (h : b.obs.buffer = [] ∨ b.obs.stream = false) : t0Send b = b := by
  simp only [t0Send]
  obtain h | h := h
  · simp [h]
  · split <;> simp [h]

/-- Settles O50: each clause is the lemma about its row. FREEZE acts, and is counted, at its command (the choice of log 108). -/
theorem observationRuns : Obligations.ObservationRuns := by
  unfold Obligations.ObservationRuns
  intro s b o
  refine ⟨fun high => ?_, fun src hdue hsrc harmed => ?_, fun src hdue => done_eq_next (traceTrigger_none hdue src),
    fun hstate hleft => ?_, fun h => done_eq_next (if_neg fun h' => h.elim (absurd h'.1) (absurd h'.2)), fun hruns hdue => ?_, fun hearly => ?_,
    ⟨fun hon hper hruns hlive hdue => ?_, fun h => ?_⟩, fun r rest hbuffer hstream hruns hdue => ?_, fun h => ?_,
    fun hbusy => done_eq_next (if_pos hbusy), fun hbusy => done_eq_next (if_neg (Bool.eq_false_iff.1 hbusy))⟩
  · refine ⟨(freezePin b high).obs, done_eq_next rfl, rfl, ?_⟩
    simp only [freezePin, withFreeze, Bool.and_eq_true, Bool.not_eq_true']
    refine if_congr (and_congr_right fun _ => ?_) rfl rfl
    simp [obsFrozen, or_assoc, b, o]
  · obtain ⟨p, hp, hspec⟩ := triggerTrace_obs (b := b) harmed
    exact ⟨p, done_eq_next ((if_pos ⟨hdue, hsrc⟩).trans hp), hspec⟩
  · obtain ⟨p, hp, hspec⟩ := endTrace_obs b .stopped
    exact ⟨p, done_eq_next ((if_pos ⟨hstate, hleft⟩).trans hp), hspec⟩
  · obtain ⟨p, hp, hspec⟩ := traceSync_obs b
    exact ⟨p, done_eq_next ((syncDue_due hruns hdue).trans hp), hspec⟩
  · exact done_eq_next (syncDue_early hearly)
  · have hrec := counterSample_due hon hper hruns hlive hdue
    refine ⟨(counterSample b).obs, done_eq_next hrec.frame, hrec.keeps Observe.sampleFrom, hrec.keeps Observe.ocnt⟩
  · exact done_eq_next (counterSample_none h)
  · exact done_eq_next (t0Send_due hbuffer hstream hruns hdue)
  · exact done_eq_next (t0Send_none h)

end Sys2Proof.Machine
end

section
/-! PROOFS. One step (log 2): a command at the front of the queue runs; with none, time passes. Nothing of what the tick does on the way,
on its clock edges and in the pipelines, touches the time itself. -/

namespace Sys2Proof.Machine

theorem foldl_now {α : Type} {f : Block → α → Block} (h : ∀ b x, (f b x).now = b.now) (l : List α) (b : Block) :
    (l.foldl f b).now = b.now :=
  foldl_inv (fun c => c.now = b.now) f (fun c x hc => (h c x).trans hc) l b rfl

theorem DrainsTo.now {b c : Block} (h : DrainsTo b c) : c.now = b.now := (congrArg Block.now h.fixed :)

theorem now_of_still {b c : Block} (h : c.still = b.still) : c.now = b.now := (congrArg Block.now h :)

@[simp] theorem traceSync_now (b : Block) : (traceSync b).now = b.now := by
  obtain ⟨o, h⟩ := traceSync_eq b
  rw [h]

/-! The ports and the counts. -/

theorem haltD0_now (b : Block) (p : PortId) (x : Txn) (st : Status) : (haltD0 b p x st).now = b.now := by
  unfold haltD0
  split <;> simp

theorem holdBeat_now (b : Block) (p : PortId) : (holdBeat b p).now = b.now := by
  unfold holdBeat
  split
  · exact (haltD0_now ..).trans rfl
  · rfl

theorem stallTick_now (b : Block) (p : PortId) : (stallTick b p).now = b.now := by
  unfold stallTick
  extract_lets o rd wr c
  have hc : c.now = b.now := by
    unfold c
    split
    · exact (holdBeat_now ..).trans (count_now ..)
    · rfl
  exact hc

theorem cycleCounts_now (b : Block) : (cycleCounts b).now = b.now := by
  unfold cycleCounts
  simp only [count_now]
  refine (foldl_now (fun c o => ?_) _ _).trans ((foldl_now (fun c x => ?_) _ _).trans (count_now ..))
  · split <;> simp
  · split <;> split <;> simp

/-! The clock edges. -/

theorem timeEdge_now (b : Block) : (timeEdge b).now = b.now := by
  unfold timeEdge
  split
  · simp [timeLoaded, discontinuity]
  · split <;> rfl

theorem refTick_now (b : Block) : (refTick b).now = b.now := by
  have hperiod (c : Block) : (abortPeriod c).now = c.now := by unfold abortPeriod; split <;> rfl
  exact (hperiod _).trans (timeEdge_now b)

theorem refreshHold_now (b : Block) : (refreshHold b).now = b.now := by
  have hclose (c : Block) : (closeDebug c).now = c.now := by unfold closeDebug; split <;> rfl
  unfold refreshHold
  dsimp only
  split
  · rfl
  · exact hclose _

theorem usTick_now (b : Block) : (usTick b).now = b.now := by
  have hretrain (c : Block) : (retrainCheck c).now = c.now := by unfold retrainCheck; dsimp only; split <;> rfl
  have hbeat (c : Block) : (beatTimer c).now = c.now := by unfold beatTimer; split <;> rfl
  exact (hbeat _).trans ((hretrain _).trans (refreshHold_now b))

theorem inactiveCheck_now (b : Block) : (inactiveCheck b).now = b.now := by
  have hparity (c : Block) (ch r k slot : Nat) : (parityCheck c ch r k slot).now = c.now := by
    unfold parityCheck
    dsimp only
    split <;> simp
  exact foldl_now (fun c ch => foldl_now (fun c e => hparity ..) _ c) _ b

theorem bankTick_now (b : Block) : (bankTick b).now = b.now := by
  unfold bankTick
  split
  · refine (inactiveCheck_now _).trans ?_
    split <;> rfl
  · rfl

theorem edges_now (b : Block) : (edges b).now = b.now := by
  have hite (p : Prop) [Decidable p] (f : Block → Block) (hf : ∀ c, (f c).now = c.now) (c : Block) : (if p then f c else c).now = c.now := by
    split
    · exact hf c
    · rfl
  have htrace (c : Block) : (traceTick c).now = c.now := by unfold traceTick; split <;> rfl
  unfold edges
  dsimp only
  rw [hite _ traceTick htrace, hite _ bankTick bankTick_now, hite _ usTick usTick_now, hite _ refTick refTick_now]

/-! The pipelines. -/

theorem decodeAll_now (b : Block) : (decodeAll b).now = b.now := by
  have hfail (c : Block) (x : Txn) (code : Nat) : (failDecode c x code).now = c.now := by
    unfold failDecode
    split
    · rfl
    · dsimp only
      split <;> simp [dropRecord]
  refine foldl_now (fun c x => ?_) _ b
  unfold decodeTxn
  split
  · rfl
  · split
    · rfl
    · exact hfail ..
    · rfl

theorem stageC_now (b : Block) : (stageC b).now = b.now := by
  refine foldl_now (fun c op => ?_) _ b
  unfold returnOp deliver
  dsimp only
  split <;> rfl

theorem drainLine_now (a : Arrays) (b : Block) (ch line : Nat) : (drainLine a b ch line).now = b.now := by
  unfold drainLine
  split
  · exact (startDrain_drainsTo ..).now
  · rfl

theorem claimZero_now (a : Arrays) (seen b : Block) (op : LineOp) : (claimZero a seen b op).now = b.now := by
  unfold claimZero
  split
  · exact (drainsTo_takeZero a seen b op).now
  · rfl

theorem tagNote_now (a : Arrays) (b : Block) (ch row : Nat) : (tagNote a b ch row).now = b.now := by
  unfold tagNote
  dsimp only
  split
  · rfl
  · split <;> rfl

theorem forwardOp_now (a : Arrays) (seen : Block) (acc : Block × List LineOp) (op : LineOp) :
    (forwardOp a seen acc op).1.now = acc.1.now := by
  unfold forwardOp
  extract_lets b b' c z back o d
  have hc : c.now = acc.1.now := by
    unfold c
    split
    · exact (tagNote_now ..).trans rfl
    · rfl
  split
  · exact Eq.trans (by simp [z, zeroHit]) hc
  · exact (drainLine_now ..).trans hc
  · have hd : d.now = acc.1.now := by
      unfold d
      split
      · split
        · exact hc
        · exact (claimZero_now ..).trans hc
      · exact (claimZero_now ..).trans hc
      · exact hc
    split
    · exact hd
    · exact hd

theorem bidSpine_now (b : Block) (op : LineOp) : (bidSpine b op).now = b.now :=
  now_of_still (still_bidLine (past := fun b op => pastSpine b op op.readyAt) (fun _ _ => rfl) ..)

theorem stageF_now (a : Arrays) (b : Block) : (stageF a b).now = b.now := by
  refine (foldl_now (fun _ _ => bidSpine_now ..) _ _).trans ?_
  exact foldl_inv (fun r : Block × List LineOp => r.1.now = b.now) _ (fun r op hr => (forwardOp_now a b r op).trans hr) _ _ rfl

theorem drainAtF_now (a : Arrays) (b : Block) : (drainAtF a b).now = b.now := foldl_now (fun _ _ => drainLine_now ..) _ b

theorem tallyArrive_now (a : Arrays) (b : Block) (x : Txn) : (tallyArrive a b x).now = b.now := by
  unfold tallyArrive
  extract_lets line seam l ctx due c mine
  clear_value mine
  split
  · split
    · rfl
    · split
      · rfl
      · split
        · rfl
        · exact (grantTally_drainsTo ..).now
  · split
    · rfl
    · split <;> rfl
  · split
    · rfl
    · dsimp only
      split
      · exact (tallyGrants_drainsTo ..).now.trans (drainsTo_traceTally ..).now
      · rfl

theorem tallyLogic_now (a : Arrays) (b : Block) : (tallyLogic a b).now = b.now := foldl_now (fun c x => tallyArrive_now a c x) _ b

theorem pipes_now (a : Arrays) (b : Block) : (pipes a b).now = b.now := by
  unfold pipes
  split
  · rw [now_of_still (still_pump _), tallyLogic_now, drainAtF_now, stageF_now, stageC_now, decodeAll_now]
  · rfl

/-! The handshake, the timers and the other instances. -/

theorem askTick_now (a : Arrays) (b : Block) : (askTick a b).now = b.now := by
  have habandon (c : Block) (reason ch : Nat) : (abandonHs c reason ch).now = c.now := by unfold abandonHs; split <;> simp
  have hrefuse (c : Block) : (checkRefuse c).now = c.now := by
    unfold checkRefuse
    split
    · rfl
    · split
      · split
        · exact habandon ..
        · rfl
      · rfl
  unfold askTick
  split
  · split
    · exact (hrefuse _).trans (DrainsTo.foldl (fun c n => drainWhere_drainsTo a c n _) _ b).now
    · rfl
  · rfl

theorem idleTimers_now (b : Block) : (idleTimers b).now = b.now := by
  refine foldl_now (fun c n => ?_) _ b
  split <;> rfl

theorem sendLines_now (b : Block) (x : Txn) (inst orig : Nat) : (sendLines b x inst orig).now = b.now := by
  unfold sendLines
  extract_lets lines send
  have h : (x.results.foldl send (b, x.beatsOut)).1.now = b.now :=
    foldl_inv (fun r : Block × Nat => r.1.now = b.now) send (fun _ _ hr => hr) _ _ rfl
  dsimp only
  split
  · exact h
  · exact h

theorem sendPacked_now (b : Block) (x : Txn) (inst orig fuel : Nat) : (sendPacked b x inst orig fuel).now = b.now := by
  induction fuel generalizing b x with
  | zero => rfl
  | succ fuel ih =>
    unfold sendPacked
    dsimp only
    split
    · split
      · rfl
      · exact (ih ..).trans rfl
    · rfl

theorem flushRemote_now (b : Block) : (flushRemote b).now = b.now := by
  have hone (c : Block) (u : Nat) : (flushOne c u).now = c.now := by
    unfold flushOne
    split
    · rfl
    · split
      · split <;> rfl
      · split
        · split
          · rfl
          · exact sendLines_now ..
        · split
          · exact sendPacked_now ..
          · rfl
      · rfl
  unfold flushRemote
  split
  · exact foldl_now hone _ b
  · rfl

theorem flushViolations_now (b : Block) (n : Nat) : (flushViolations b n).now = b.now := by
  unfold flushViolations
  split
  · split <;> simp
  · rfl

/-- One port cycle passes in a tick. -/
theorem tick_now (a : Arrays) (b : Block) : (tick a b).now = b.now + 1 := by
  unfold tick
  extract_lets c d e f
  have hc : c.now = b.now := (foldl_now stallTick_now _ _).trans (cycleCounts_now b)
  have hd : d.now = b.now + 1 := (pipes_now ..).trans ((edges_now _).trans (congrArg (· + 1) hc))
  have he : e.now = b.now + 1 := by
    unfold e
    split
    · exact (askTick_now ..).trans hd
    · exact hd
  have hf : f.now = b.now + 1 := by
    unfold f
    split
    · exact (idleTimers_now _).trans ((flushRemote_now _).trans he)
    · exact he
  exact (foldl_now flushViolations_now _ _).trans hf

/-- Settles O1: a step is by definition the front command's effect, or the tick (log 2), in which one cycle passes (`tick_now`). -/
theorem stepRunsFrontCommand : Obligations.StepRunsFrontCommand := by
  unfold Obligations.StepRunsFrontCommand
  refine ⟨fun c rest s h => by simp [step, h], fun s h => ⟨{ s with blk := tick s.arr s.blk }, by simp [step, h], rfl, h, tick_now s.arr s.blk⟩⟩

end Sys2Proof.Machine
end

section
/-! PROOFS. Writes on G0 (R467 to R472) of the registers of channels, the observation block and the peer ports, on an instance that runs. -/

namespace Sys2Proof.Machine

/-! A write of a mapped register. -/

/-- A write of a register outside the debug window is performed or ignored at once on an instance that runs. -/
theorem g0Write_running {b : Block} (hrun : b.running) {off : Nat} (hoff : off < 0xC0000) (hmap : (regAt b off).isSome = true) (v : Word) :
    g0Write b off v true = respond0 (writeReg b off (w1cTaken b off v)).1 (if (writeReg b off (w1cTaken b off v)).2 then 0 else 1) 0 := by
  obtain ⟨hphase, hreset, hon, hclk⟩ := hrun
  have hopen : g0Open b = true := by simp [g0Open, hphase, hreset, hon, hclk]
  have hwake : g0Wake b = b := by simp [g0Wake, hon]
  have hready : isReady b = true := by simp [isReady, hphase, hreset]
  have hwindow : inWindow off = false := by simpa [inWindow] using hoff
  have hmap' : (regAt b off).isNone = false := by simpa using hmap
  simp only [g0Write, hopen, hwake, writeTaken, hwindow, hmap', hready]
  rfl

/-- A status of OKAY or IGNORED carries no data. -/
theorem respond0_zero (b : Block) (st : Nat) : respond0 b st 0 = { b with g0 := some { rdata := 0, status := st } } := by
  simp [respond0]

theorem w1cTaken_of_mask {off : Nat} (h : w1cMask off = 0) (b : Block) (v : Word) : w1cTaken b off v = v := by
  simp only [w1cTaken, h, BitVec.ofNat_eq_ofNat, BitVec.zero_and]
  exact BitVec.and_allOnes

/-! Channels. -/

section
variable {s : State} {ch : Nat} (hrun : s.blk.running) (hok : chanOk s.blk ch = true) (hch : ch < 8)
include hrun hok hch

/-- A write of a channel's register that is mapped and has writable bits is its `writeChan`. -/
theorem chanRow_running {off : Nat} (hoff : off < 0x10000) (hmap : (chanReg s.blk ch off).isSome = true)
    (hwrite : [0x848, 0x850, 0x900, 0x918, 0x940].contains off = true) (v : Word) :
    chanRow s ch off v = .next { s with blk :=
      let r := writeChan s.blk ch off (w1cTaken s.blk (chOff ch off) v)
      { r.1 with g0 := some { rdata := 0, status := if r.2 then 0 else 1 } } } := by
  have hlow : ¬ chOff ch off < 0x10000 := by unfold chOff; omega
  have hhigh : chOff ch off < 0x90000 := by unfold chOff; omega
  have hdiv : (chOff ch off - 0x10000) / 0x10000 = ch := by unfold chOff; omega
  have hmod : chOff ch off % 0x10000 = off := by unfold chOff; omega
  have hreg : (regAt s.blk (chOff ch off)).isSome = true := by
    rw [regAt, if_neg hlow, if_pos hhigh, hdiv, hmod, if_pos (by simpa [chanOk] using hok)]
    exact hmap
  have hwritable : writable (chOff ch off) = true := by
    simp only [writable, hasW1c, hlow, hhigh, hmod, hwrite, if_true, if_false, Bool.or_true]
  refine guarded_eq_next (decide_eq_true hch) ?_
  have hwritten (w : Word) : writeReg s.blk (chOff ch off) w = writeChan s.blk ch off w := by
    rw [writeReg, if_neg (by simp [hwritable]), if_neg hlow, if_pos hhigh, hdiv, hmod]
  rw [g0Write_running hrun (by omega) hreg, respond0_zero, hwritten]


/-- A control bit of a channel's register that is no W1C bit acts as written. -/
theorem chanRow_plain {off : Nat} (hoff : off < 0x10000) (hmap : (chanReg s.blk ch off).isSome = true)
    (hwrite : [0x848, 0x900, 0x940].contains off = true) (v : Word) :
    chanRow s ch off v = .next { s with blk :=
      let r := writeChan s.blk ch off v
      { r.1 with g0 := some { rdata := 0, status := if r.2 then 0 else 1 } } } := by
  have hoffs : off = 0x848 ∨ off = 0x900 ∨ off = 0x940 := by simpa using hwrite
  have hmask : w1cMask (chOff ch off) = 0 := by
    have hlow : ¬ chOff ch off < 0x10000 := by unfold chOff; omega
    have hhigh : chOff ch off < 0x90000 := by unfold chOff; omega
    have hmod : chOff ch off % 0x10000 = off := by unfold chOff; omega
    simp only [w1cMask, hlow, hhigh, hmod, if_true, if_false]
    rcases hoffs with rfl | rfl | rfl <;> rfl
  rw [chanRow_running hrun hok hch hoff hmap (by rcases hoffs with rfl | rfl | rfl <;> rfl), w1cTaken_of_mask hmask]

/-- An operation code of the ECC test starts an operation while none runs, and is ignored while one does (R240). -/
theorem eccRow_busy (hbusy : (chan s.blk ch).ecc.busy = true) (v : Word) :
    chanRow s ch 0x940 v = .next { s with blk := { s.blk with g0 := some { rdata := 0, status := 1 } } } := by
  rw [chanRow_plain hrun hok hch (by decide) rfl rfl]
  simp only [writeChan, hbusy]
  rfl

theorem eccRow_free (hfree : (chan s.blk ch).ecc.busy = false) (v : Word) :
    chanRow s ch 0x940 v = .next { s with blk := { eccStart s.blk ch (fld v 0 4) with g0 := some { rdata := 0, status := 0 } } } := by
  rw [chanRow_plain hrun hok hch (by decide) rfl rfl]
  simp only [writeChan, hfree]
  rfl

end

section
variable {b : Block} {ch : Nat}

/-- The ECC test of a channel in another state. -/
def setEcc (b : Block) (ch : Nat) (t : EccTest) : Block := setChan b ch (fun c => { c with ecc := t })

theorem eccStart_code {op : Nat} (hop : op = 1 ∨ op = 4) : eccStart b ch op = setEcc b ch { (chan b ch).ecc with busy := true, op := op } := by
  simp only [eccStart]
  rw [if_pos hop]
  exact setChan_congr rfl

theorem eccStart_noBank {op : Nat} (hop : op = 2 ∨ op = 3) (hbank : 66 ≤ fld (chan b ch).ecc.addr 0 7) :
    eccStart b ch op = setEcc b ch { (chan b ch).ecc with err := true, op := op } := by
  simp only [eccStart]
  rw [if_neg (by omega), if_pos hop, if_pos (.inl hbank)]
  exact setChan_congr rfl

/-- A bank number below 64 is served by itself. -/
theorem eccStart_protected (hbank : fld (chan b ch).ecc.addr 0 7 < 64)
    (hprot : rawProtected b ch (fld (chan b ch).ecc.addr 0 7) (fld (chan b ch).ecc.addr 7 13) = true) :
    eccStart b ch 2 = setEcc b ch { (chan b ch).ecc with err := true, op := 2 } := by
  have h64 : fld (chan b ch).ecc.addr 0 7 ≠ 64 := by omega
  have h65 : fld (chan b ch).ecc.addr 0 7 ≠ 65 := by omega
  simp only [eccStart, h64, h65, false_and, if_false]
  rw [if_neg (by decide), if_pos (by decide), if_pos (.inr ⟨trivial, hbank, hprot⟩)]
  exact setChan_congr rfl

theorem eccStart_raw {op : Nat} (hop : op = 2 ∨ op = 3) (hbank : fld (chan b ch).ecc.addr 0 7 < 64)
    (hfree : op = 2 → rawProtected b ch (fld (chan b ch).ecc.addr 0 7) (fld (chan b ch).ecc.addr 7 13) = false) :
    ∃ o : LineOp, eccStart b ch op =
        { setEcc b ch { (chan b ch).ecc with busy := true, err := false, op := op } with serial := b.serial + 1, ops := b.ops ++ [o] }
      ∧ o.kind = .test ∧ o.ch = ch ∧ o.bank = fld (chan b ch).ecc.addr 0 7 ∧ o.row = fld (chan b ch).ecc.addr 7 13 ∧ o.stage = .bank
      ∧ o.readyAt = b.now + 1 := by
  have h64 : fld (chan b ch).ecc.addr 0 7 ≠ 64 := by omega
  have h65 : fld (chan b ch).ecc.addr 0 7 ≠ 65 := by omega
  have hgo : ¬ (66 ≤ fld (chan b ch).ecc.addr 0 7 ∨ (op = 2 ∧ fld (chan b ch).ecc.addr 0 7 < 64
      ∧ rawProtected b ch (fld (chan b ch).ecc.addr 0 7) (fld (chan b ch).ecc.addr 7 13) = true)) := by
    rintro (h | ⟨hop2, -, hprot⟩)
    · omega
    · exact absurd hprot (by simp [hfree hop2])
  simp only [eccStart, h64, h65, false_and, if_false]
  rw [if_neg (by omega), if_pos hop, if_neg hgo]
  exact ⟨_, rfl, rfl, rfl, rfl, rfl, rfl, rfl⟩

theorem eccDone_idle (h : (chan b ch).ecc.busy = false) : eccDone b ch = b := if_pos (.inl h)

theorem eccDone_code (hbusy : (chan b ch).ecc.busy = true) (hdone : b.ops.any (fun o => o.kind == .test && o.ch == ch) = false) :
    ((chan b ch).ecc.op = 1 → eccDone b ch = setEcc b ch { (chan b ch).ecc with
      busy := false, check := ((chan b ch).ecc.check &&& ~~~0xFF#64) ||| put 0 8 (eccEncode (chan b ch).ecc.data).toNat })
    ∧ ((chan b ch).ecc.op = 4 → eccDone b ch = setEcc b ch { (chan b ch).ecc with
      busy := false, check := checkWord (fld (chan b ch).ecc.check 0 8)
        (eccDecode (chan b ch).ecc.data (BitVec.ofNat 8 (fld (chan b ch).ecc.check 0 8))) }) := by
  have hgo : ¬ ((chan b ch).ecc.busy = false ∨ b.ops.any (fun o => o.kind == .test && o.ch == ch) = true) := by
    simp [hbusy, ← Bool.not_eq_true, hdone]
  refine ⟨fun hop => ?_, fun hop => ?_⟩
  · simp only [eccDone, hgo, if_false, hop, setEcc]
  · simp only [eccDone, hgo, if_false, hop, setEcc]

/-- The bits of the nine ports. -/
theorem getLsbD_nineOnes (k : Nat) : (0x1FF#64).getLsbD k = decide (k < 9) := by
  by_cases hk : k < 64
  · exact (by decide : ∀ k : Fin 64, (0x1FF#64).getLsbD k = decide (k.1 < 9)) ⟨k, hk⟩
  · rw [BitVec.getLsbD_of_ge _ _ (by omega)]
    simp
    omega

/-- CONF_CLR clears the counters of the nine ports whose bits are set (R64). -/
theorem clearConf_conf (v : Word) (k : Nat) :
    tget 0 (chan (clearConf b ch v) ch).conf k = if k < 9 ∧ bit v k = true then 0 else tget 0 (chan b ch).conf k := by
  have hbit : bit (v &&& 0x1FF#64) k = (decide (k < 9) && bit v k) := by
    rw [bit, BitVec.getLsbD_and, getLsbD_nineOnes, Bool.and_comm, bit]
  rw [clearConf, chan_setChan_self]
  refine (tget_filter 0 (fun k => !bit (v &&& 0x1FF#64) k) (chan b ch).conf k).trans ?_
  by_cases hk : k < 9 ∧ bit v k = true
  · simp [hbit, hk]
  · have hoff : (decide (k < 9) && bit v k) = false := by
      rw [← Bool.not_eq_true]
      simpa using hk
    simp [hbit, hoff, if_neg hk]

end

/-! The observation block (R446, R448, R454, R455, R459). -/

/-- A write of a register of the observation block that is mapped and has writable bits is its `writeObs`. -/
theorem obsRow_running {s : State} (hrun : s.blk.running) {off : Nat} (hlow : 0x95000 ≤ off) (hhigh : off < 0xC0000)
    (hmap : (regAt s.blk off).isSome = true) (hwrite : writable off = true) (v : Word) :
    regRow s off v = .next { s with blk :=
      { writeObs s.blk (off - 0xA0000) (w1cTaken s.blk off v) with g0 := some { rdata := 0, status := 0 } } } := by
  have hwritten (w : Word) : writeReg s.blk off w = (writeObs s.blk (off - 0xA0000) w, true) := by
    rw [writeReg, if_neg (by simp [hwrite]), if_neg (by omega), if_neg (by omega), if_neg (by omega), if_neg (by omega), if_pos hhigh]
  exact done_eq_next (by rw [g0Write_running hrun hhigh hmap, respond0_zero, hwritten]; rfl)

/-- The rows of OBS_CTL and of TRC_CTL. -/
theorem obsCtlRow_running {s : State} (hrun : s.blk.running) (v : Word) : regRow s 0xA2000 v = .next { s with blk :=
    { writeObsCtl s.blk (w1cTaken s.blk 0xA2000 v) with g0 := some { rdata := 0, status := 0 } } } :=
  obsRow_running hrun (by decide) (by decide) rfl (by decide) v

theorem trcCtlRow_running {s : State} (hrun : s.blk.running) (v : Word) : regRow s 0xA2100 v = .next { s with blk :=
    { writeTrcCtl s.blk v with g0 := some { rdata := 0, status := 0 } } } := by
  rw [obsRow_running hrun (by decide) (by decide) rfl (by decide), w1cTaken_of_mask (by decide)]
  rfl

section
variable {b : Block} {v : Word}

theorem bit_or (v w : Word) (i : Nat) : bit (v ||| w) i = (bit v i || bit w i) := BitVec.getLsbD_or
theorem bit_and (v w : Word) (i : Nat) : bit (v &&& w) i = (bit v i && bit w i) := BitVec.getLsbD_and
theorem bit_not (v : Word) (i : Nat) (h : i < 64) : bit (~~~v) i = !bit v i := by simp [bit, h]

/-- A W1C bit that the block has set stands in the way of no other bit of OBS_CTL (R472). -/
theorem bit_w1cTaken_obsCtl {i : Nat} (hi : i < 64) (v : Word) :
    bit (w1cTaken b 0xA2000 v) i = (bit v i && !(bit (4#64) i && bit (tget 0 b.ctlClear 0xA2000) i)) := by
  rw [w1cTaken, bit_and, bit_not _ _ hi, bit_and]
  rfl

theorem writeObsCtl_clear (h : bit v 3 = true) : (writeObsCtl b v).obs.ocnt = [] ∧ (writeObsCtl b v).obs.freeze = bit v 0
    ∧ (writeObsCtl b v).obs.pinEn = bit v 1 ∧ (writeObsCtl b v).chans = b.chans.map (fun e => (e.1, clearFixed e.2))
    ∧ { writeObsCtl b v with obs := b.obs, chans := b.chans } = b := by
  simp only [writeObsCtl, h, if_true]
  exact ⟨rfl, rfl, rfl, rfl, rfl⟩

theorem chan_clearFixed (n : Nat) : tget Channel.init (b.chans.map (fun e => (e.1, clearFixed e.2))) n = clearFixed (chan b n) :=
  tget_map Channel.init (fun _ => clearFixed) b.chans n rfl

theorem writeObsCtl_keep (h : bit v 3 = false) : writeObsCtl b v = { b with obs := (writeObsCtl b v).obs }
    ∧ (writeObsCtl b v).obs.freeze = bit v 0 ∧ (writeObsCtl b v).obs.pinEn = bit v 1 ∧ (writeObsCtl b v).obs.ocnt = b.obs.ocnt
    ∧ (writeObsCtl b v).obs.trigFrozen = (b.obs.trigFrozen && !bit v 2) := by
  simp only [writeObsCtl, h]
  exact ⟨rfl, rfl, rfl, rfl, rfl⟩

theorem Records.setObs {b c : Block} (h : Records b c) (o : Observe) : ({ c with obs := o } : Block) = { b with obs := o } := by
  rw [h.frame]

/-- The end of a trace leaves the fields and the counters. -/
theorem endTrace_keeps (b : Block) (st : TrcState) : ∃ p, endTrace b st = { b with obs := p } ∧ p.trcState = st
    ∧ p.trcCtl = b.obs.trcCtl ∧ p.ocnt = b.obs.ocnt := by
  unfold endTrace
  extract_lets c
  have hc : Records b c := trcPut_records ..
  exact ⟨_, hc.setObs _, rfl, hc.keeps Observe.trcCtl, hc.keeps Observe.ocnt⟩

theorem stopTrace_spec (b : Block) : ∃ p, stopTrace b = { b with obs := p }
    ∧ p.trcState = (match b.obs.trcState with | .armed => .idle | .triggered => .stopped | st => st)
    ∧ p.trcCtl = b.obs.trcCtl ∧ p.ocnt = b.obs.ocnt := by
  unfold stopTrace
  cases hstate : b.obs.trcState with
  | armed => exact endTrace_keeps b .idle
  | triggered => exact endTrace_keeps b .stopped
  | idle => exact ⟨b.obs, rfl, hstate, rfl, rfl⟩
  | stopped => exact ⟨b.obs, rfl, hstate, rfl, rfl⟩

/-- ARM latches its fields as they stand (R454). -/
theorem armTrace_spec (b : Block) : ∃ p, armTrace b = { b with obs := p } ∧ p.trcState = .armed ∧ p.trcCtl = b.obs.trcCtl
    ∧ p.stream = bit b.obs.trcCtl 32 ∧ p.pre = clampPre b.obs ∧ p.ocnt = b.obs.ocnt := by
  let armed : Block := { b with obs := { b.obs with
    trcState := .armed, stream := bit b.obs.trcCtl 32, pre := clampPre b.obs, post := clampPost b.obs, postLeft := 0, dropped := 0
    written := 0, trigDue := false, sampleFrom := b.obs.stamp, buffer := b.obs.buffer.map (fun r => { r with inWindow := false }) } }
  let noted : Block := traceSys armed 0 (armed.time.tgen % 256 + (if armed.time.synced then 256 else 0)) armed.time.ns
  let synced : Block := { noted with obs := { noted.obs with syncAt := noted.obs.stamp } }
  have hnoted : Records armed noted := trcEnter_records ..
  have hstart : Records synced (armTrace b) := trcEnter_records ..
  have hkeeps {α : Type} (f : Observe → α) (hf : ∀ o : Observe, f o.unrecorded = f o) (hsync : ∀ o n, f { o with syncAt := n } = f o) :
      f (armTrace b).obs = f armed.obs :=
    (hstart.keeps f hf).trans ((hsync ..).trans (hnoted.keeps f hf))
  have hframe : armTrace b = { b with obs := (armTrace b).obs } := hstart.frame.trans (hnoted.setObs _)
  exact ⟨(armTrace b).obs, hframe, hkeeps Observe.trcState (fun _ => rfl) (fun _ _ => rfl), hkeeps Observe.trcCtl (fun _ => rfl) (fun _ _ => rfl),
    hkeeps Observe.stream (fun _ => rfl) (fun _ _ => rfl), hkeeps Observe.pre (fun _ => rfl) (fun _ _ => rfl),
    hkeeps Observe.ocnt (fun _ => rfl) (fun _ _ => rfl)⟩

/-- A trigger leaves the counters' values; on a trace that is not ARMED it does nothing (R455). -/
theorem triggerTrace_spec (b : Block) : ∃ p, triggerTrace b = { b with obs := p }
    ∧ (b.obs.trcState = .armed → p.trcState = .triggered ∧ p.postLeft = b.obs.post) ∧ (b.obs.trcState ≠ .armed → p.trcState = b.obs.trcState)
    ∧ p.ocnt = b.obs.ocnt := by
  by_cases harmed : b.obs.trcState = .armed
  · unfold triggerTrace
    rw [if_pos harmed]
    extract_lets src o c d o' e
    have hd : Records c d := trcPut_records ..
    have hpost : d.obs.post = b.obs.post := hd.keeps Observe.post
    have hocnt : d.obs.ocnt = b.obs.ocnt := hd.keeps Observe.ocnt
    split
    · exact ⟨_, hd.setObs _, fun _ => ⟨rfl, hpost⟩, fun h => absurd harmed h, hocnt⟩
    · exact ⟨_, hd.setObs _, fun _ => ⟨rfl, hpost⟩, fun h => absurd harmed h, hocnt⟩
  · exact ⟨b.obs, if_neg harmed, fun h => absurd h harmed, fun _ => rfl, rfl⟩

end

/-! TRC_CTL (R454, R455). -/

/-- The fields of TRC_CTL that hold a value. -/
def trcFields : Word := 0xFFFFFF01FFFFFFF0#64

/-- A field depends on its own bits. -/
theorem fld_congr {w w' : Word} {lo len : Nat} (h : ∀ i, i < len → bit w (lo + i) = bit w' (lo + i)) : fld w lo len = fld w' lo len := by
  refine Nat.eq_of_testBit_eq fun i => ?_
  simp only [fld, Nat.testBit_mod_two_pow, Nat.testBit_shiftRight]
  by_cases hi : i < len
  · simpa [hi, bit, BitVec.getLsbD] using h i hi
  · simp [hi]

/-- STREAM and PRE are among the fields. -/
theorem trcFields_spec (v : Word) : bit (v &&& trcFields) 32 = bit v 32 ∧ fld (v &&& trcFields) 18 14 = fld v 18 14 := by
  have hpre : ∀ i : Fin 14, bit trcFields (18 + i.1) = true := by decide
  refine ⟨by rw [bit_and]; exact Bool.and_true _, fld_congr fun i hi => ?_⟩
  rw [bit_and, hpre ⟨i, hi⟩, Bool.and_true]

/-- A control bit beside the fields leaves them as they are. -/
theorem or_and_trcFields {w : Word} (h : w &&& trcFields = 0) (v : Word) : (v ||| w) &&& trcFields = v &&& trcFields := by
  refine BitVec.eq_of_getLsbD_eq fun i hi => ?_
  have hbit : (w.getLsbD i && trcFields.getLsbD i) = false := by
    rw [← BitVec.getLsbD_and, h]
    exact BitVec.getLsbD_zero
  rw [BitVec.getLsbD_and, BitVec.getLsbD_or, BitVec.getLsbD_and, Bool.and_or_distrib_right, hbit, Bool.or_false]

section
variable {b : Block} {v : Word}

/-- The block when TRC_CTL's fields are written. -/
def trcWritten (b : Block) (v : Word) : Block := { b with obs := { b.obs with trcCtl := v &&& trcFields } }

theorem writeTrcCtl_arm (harm : bit v 1 = true) (hforce : bit v 3 = false) : ∃ p, writeTrcCtl b v = { b with obs := p }
    ∧ p.trcState = .armed ∧ p.trcCtl = v &&& trcFields ∧ p.stream = bit v 32 ∧ p.pre = min 16367 (fld v 18 14) ∧ p.ocnt = b.obs.ocnt := by
  obtain ⟨hstream, hpre⟩ := trcFields_spec v
  have hstop : ∃ q, (if bit v 2 = true then stopTrace (trcWritten b v) else trcWritten b v) = { b with obs := q }
      ∧ q.trcCtl = v &&& trcFields ∧ q.ocnt = b.obs.ocnt := by
    split
    · obtain ⟨q, hq, -, hctl, hocnt⟩ := stopTrace_spec (trcWritten b v)
      exact ⟨q, hq, hctl, hocnt⟩
    · exact ⟨_, rfl, rfl, rfl⟩
  obtain ⟨q, hq, hctl, hocnt⟩ := hstop
  obtain ⟨p, hp, hstate, hpctl, hpstream, hppre, hpocnt⟩ := armTrace_spec { b with obs := q }
  refine ⟨p, ?_, hstate, hpctl.trans hctl, hpstream.trans (by simp [hctl, hstream]), hppre.trans (by simp [clampPre, hctl, hpre]),
    hpocnt.trans hocnt⟩
  rw [writeTrcCtl, if_neg (by simp [hforce]), if_pos harm]
  exact (congrArg armTrace hq).trans hp

theorem writeTrcCtl_stop (hstop : bit v 2 = true) (harm : bit v 1 = false) (hforce : bit v 3 = false) :
    writeTrcCtl b v = stopTrace (trcWritten b v) := by
  rw [writeTrcCtl, if_neg (by simp [hforce]), if_neg (by simp [harm]), if_pos hstop]
  rfl

theorem writeTrcCtl_force (hforce : bit v 3 = true) (harm : bit v 1 = false) (hstop : bit v 2 = false) :
    writeTrcCtl b v = triggerTrace (trcWritten b v) := by
  rw [writeTrcCtl, if_pos hforce, if_neg (by simp [harm]), if_neg (by simp [hstop])]
  rfl

end

/-! The peer ports (R291, R293, R322). -/

theorem peerCtl_running {s : State} (hrun : s.blk.running) {n : Nat} (hok : peerOk s.blk n = true) (hn : n < 4) (v : Word) :
    peerCtl s n v = .next { s with blk := { writePeer s.blk n 8 v with g0 := some { rdata := 0, status := 0 } } } := by
  have hlow : 0x91000 ≤ peerOff n 8 := by unfold peerOff; omega
  have hhigh : peerOff n 8 < 0x95000 := by unfold peerOff; omega
  have hdiv : (peerOff n 8 - 0x91000) / 0x1000 = n := by unfold peerOff; omega
  have hmod : peerOff n 8 % 0x1000 = 8 := by unfold peerOff; omega
  have hreg : (regAt s.blk (peerOff n 8)).isSome = true := by
    rw [regAt, if_neg (by omega), if_neg (by omega), if_neg (by omega), if_pos hhigh, hdiv, hmod, if_pos (by simpa [peerOk] using hok)]
    rfl
  have hwritable : writable (peerOff n 8) = true := by
    rw [writable, hasW1c, if_neg (by omega), if_neg (by omega), if_neg (by omega), if_pos hhigh, hmod]
    exact Bool.or_true _
  have hmask : w1cMask (peerOff n 8) = 0 := by
    unfold w1cMask
    rw [if_neg (by omega), if_neg (by omega)]
    split
    · omega
    · omega
    · rfl
  have hwritten : writeReg s.blk (peerOff n 8) v = (writePeer s.blk n 8 v, true) := by
    rw [writeReg, if_neg (by simp [hwritable]), if_neg (by omega), if_neg (by omega), if_neg (by omega), if_pos hhigh, hdiv, hmod]
  refine guarded_eq_next (decide_eq_true hn) ?_
  rw [g0Write_running hrun (by omega) hreg, respond0_zero, w1cTaken_of_mask hmask, hwritten]
  rfl

theorem peerRow_running {s : State} (hrun : s.blk.running) {n : Nat} (hok : peerOk s.blk n = true) (hn : n < 4)
    (hon : (linkOf s.blk n).disable = false) (v : Word) :
    peerRow s n v = .next { s with blk := { writePeer s.blk n 8 v with g0 := some { rdata := 0, status := 0 } } } := by
  have hv : v ||| putBit 2 (linkOf s.blk n).disable = v := by
    rw [hon]
    exact BitVec.or_zero
  rw [peerRow, hv, peerCtl_running hrun hok hn]

section
variable {b : Block} {n : Nat}

/-- A link that changes after another change of it, each with its records. -/
theorem LinkOnly.trans {c d : Block} {l m : Link} (hbc : LinkOnly Block.quiet b c n l) (hcd : LinkOnly Block.quiet c d n m) :
    LinkOnly Block.quiet b d n m :=
  ⟨hcd.own, fun k hk => (hcd.others k hk).trans (hbc.others k hk),
    (congrArg (fun e : Block => { e with cw := { e.cw with links := b.cw.links } }) hcd.frame).trans hbc.frame⟩

/-- DISABLE written 0 on a port that is not DISABLED. -/
theorem disablePort_off (hstate : (linkOf b n).state ≠ .disabled) :
    disablePort b n false = setLink b n (fun l => { l with disable := false }) := by
  unfold disablePort
  dsimp only
  rw [linkOf_setLink_self]
  split
  next h => exact absurd h hstate
  next => rfl

theorem disablePort_enabled (hstate : (linkOf b n).state ≠ .disabled) (hon : (linkOf b n).disable = false) :
    LinkOnly Block.quiet b (disablePort b n false) n (linkOf b n) := by
  have hlink : { linkOf b n with disable := false } = linkOf b n := by rw [← hon]
  rw [disablePort_off hstate, ← hlink]
  exact (LinkOnly.refl _ b n).setLink fun l => { l with disable := false }

theorem writePeer_train (hon : (linkOf b n).disable = false) (hstate : (linkOf b n).state = .down ∨ (linkOf b n).state = .held) :
    LinkOnly Block.quiet b (writePeer b n 8 1) n { linkOf b n with state := .training, downUs := usNow b, attempts := 1 } := by
  have hoff := disablePort_enabled (b := b) (n := n) (by rcases hstate with h | h <;> simp [h]) hon
  have hrow : writePeer b n 8 1 = startTraining (disablePort b n false) n := by
    have htrain : trainPort (disablePort b n false) n = startTraining (disablePort b n false) n := by
      rw [trainPort, hoff.own]
      rcases hstate with h | h <;> rw [h]
    exact Eq.trans rfl htrain
  have hus : usNow (disablePort b n false) = usNow b := hoff.keeps usNow
  rw [hrow]
  have h := hoff.trans (startTraining_spec (disablePort b n false) n)
  rwa [hoff.own, hus] at h

theorem writePeer_retrain (hon : (linkOf b n).disable = false) (hstate : (linkOf b n).state = .active) :
    LinkOnly Block.quiet b (writePeer b n 8 2) n { linkOf b n with
      state := .retraining, downUs := usNow b, retrains := min 65535 ((linkOf b n).retrains + 1), retr := true
      oldWidth := (linkOf b n).width } := by
  have hoff := disablePort_enabled (b := b) (n := n) (by simp [hstate]) hon
  have hrow : writePeer b n 8 2 = startRetrain (disablePort b n false) n := rfl
  have hus : usNow (disablePort b n false) = usNow b := hoff.keeps usNow
  rw [hrow]
  have h := hoff.trans (startRetrain_active (b := disablePort b n false) (n := n) (by rw [hoff.own, hstate]))
  rwa [hoff.own, hus] at h

theorem writePeer_chkClr (hon : (linkOf b n).disable = false) (hstate : (linkOf b n).state ≠ .disabled) :
    LinkOnly id b (writePeer b n 8 8) n { linkOf b n with chk := [], log := [], logNext := 0, logWrap := false } := by
  have hclear : LinkOnly id b (clearCheck b n) n { linkOf b n with chk := [], log := [], logNext := 0, logWrap := false } :=
    (LinkOnly.refl id b n).setLink fun l => { l with chk := [], log := [], logNext := 0, logWrap := false }
  have hrow : writePeer b n 8 8 = setLink (clearCheck b n) n (fun l => { l with disable := false }) :=
    Eq.trans rfl (disablePort_off (b := clearCheck b n) (by rw [hclear.own]; exact hstate))
  have hlink : ({ linkOf b n with chk := [], log := [], logNext := 0, logWrap := false, disable := false } : Link) =
      { linkOf b n with chk := [], log := [], logNext := 0, logWrap := false } := by rw [← hon]
  rw [hrow, ← hlink]
  exact hclear.setLink fun l => { l with disable := false }

theorem writePeer_disable (hstate : (linkOf b n).state ≠ .disabled) :
    (linkOf (writePeer b n 8 (putBit 2 true)) n).state = .disabled ∧ (linkOf (writePeer b n 8 (putBit 2 true)) n).disable = true
      ∧ (linkOf (writePeer b n 8 (putBit 2 true)) n).replay = [] ∧ (writePeer b n 8 (putBit 2 true)).txns = b.txns
      ∧ (writePeer b n 8 (putBit 2 true)).chans = b.chans := by
  let c : Block := setLink b n (fun l => { l with disable := true })
  have hlink : linkOf c n = { linkOf b n with disable := true } := linkOf_setLink_self ..
  have hrow : writePeer b n 8 (putBit 2 true) = loseLink c n .disabled := by
    have hlose : disablePort b n true = loseLink c n .disabled := by
      unfold disablePort
      dsimp only
      rw [linkOf_setLink_self]
      split
      next h => exact absurd h hstate
      next => rfl
    exact Eq.trans rfl hlose
  obtain ⟨hst, hreplay, -, htxns, hchans⟩ := loseLink_spec c n .disabled
  have hdisable : (linkOf (loseLink c n .disabled) n).disable = true := by
    rw [(loseLink_sends c n .disabled).keepsLink n Link.disable, linkOf_setLink_self, hlink]
    rfl
  rw [hrow]
  exact ⟨hst, hdisable, hreplay, htxns, hchans⟩

theorem writePeer_enable (hstate : (linkOf b n).state = .disabled) :
    LinkOnly Block.quiet b (writePeer b n 8 (putBit 2 false)) n { linkOf b n with disable := false, state := .down, downUs := usNow b } := by
  have hrow : writePeer b n 8 (putBit 2 false) = enterLink (setLink b n (fun l => { l with disable := false })) n .down := by
    have henter : disablePort b n false = enterLink (setLink b n (fun l => { l with disable := false })) n .down := by
      unfold disablePort
      dsimp only
      rw [linkOf_setLink_self]
      simp only [hstate]
      rfl
    exact Eq.trans rfl henter
  rw [hrow]
  exact ((LinkOnly.refl _ b n).setLink fun l => { l with disable := false }).enterLink .down

end

end Sys2Proof.Machine
end

section
/-! PROOFS. The registers of channels, peer ports and observation (R64, R240, R291, R446, R454), put together. -/

namespace Sys2Proof.Machine

/-! The rows of a channel. -/

section
variable {s : State} {ch : Nat} (hrun : s.blk.running) (hok : chanOk s.blk ch = true) (hch : ch < 8)
include hrun hok hch

theorem exec_dmaResume : exec (.dmaResume ch) s = .next { s with blk := { (if bit (w1cTaken s.blk (chOff ch 0x918) 1#64) 0 = true
    then setChan s.blk ch (fun c => { c with dmaHalt := false }) else s.blk) with g0 := some { rdata := 0, status := 0 } } } :=
  chanRow_running hrun hok hch (by decide) rfl (by decide) 1

theorem exec_confClr (v : Word) : exec (.confClr ch v) s = .next { s with blk :=
    { clearConf s.blk ch v with g0 := some { rdata := 0, status := 0 } } } :=
  chanRow_plain hrun hok hch (by decide) rfl (by decide) v

theorem exec_clrCnt : exec (.clrCnt ch) s = .next { s with blk := { clearEcc s.blk ch with g0 := some { rdata := 0, status := 0 } } } :=
  chanRow_plain hrun hok hch (by decide) rfl (by decide) 1

/-- The rows of the ECC test while an operation runs. -/
theorem exec_ecc_busy (hbusy : (chan s.blk ch).ecc.busy = true) :
    ∀ row ∈ [Instr.encode ch, .rawWrite ch, .rawRead ch, .decode ch],
      exec row s = .next { s with blk := { s.blk with g0 := some { rdata := 0, status := 1 } } } := by
  simp only [List.forall_mem_cons, List.not_mem_nil, false_implies, implies_true, and_true]
  exact ⟨eccRow_busy hrun hok hch hbusy 1, eccRow_busy hrun hok hch hbusy 2, eccRow_busy hrun hok hch hbusy 3, eccRow_busy hrun hok hch hbusy 4⟩

/-- The rows of the ECC test while no operation runs start theirs. -/
theorem exec_ecc_free (hfree : (chan s.blk ch).ecc.busy = false) {i : Instr} {op : Nat}
    (hrow : (i, op) ∈ [(Instr.encode ch, 1), (.rawWrite ch, 2), (.rawRead ch, 3), (.decode ch, 4)]) :
    exec i s = .next { s with blk := { eccStart s.blk ch op with g0 := some { rdata := 0, status := 0 } } } := by
  have hfields : fld (1 : Word) 0 4 = 1 ∧ fld (2 : Word) 0 4 = 2 ∧ fld (3 : Word) 0 4 = 3 ∧ fld (4 : Word) 0 4 = 4 := by decide
  simp only [List.mem_cons, Prod.mk.injEq, List.not_mem_nil, or_false] at hrow
  obtain ⟨rfl, rfl⟩ | ⟨rfl, rfl⟩ | ⟨rfl, rfl⟩ | ⟨rfl, rfl⟩ := hrow
  · exact eccRow_free hrun hok hch hfree 1
  · exact eccRow_free hrun hok hch hfree 2
  · exact eccRow_free hrun hok hch hfree 3
  · exact eccRow_free hrun hok hch hfree 4

end

/-! The bits of OBS_CTL and TRC_CTL. -/

/-- FREEZE, PIN_EN and CLEAR of OBS_CTL are no W1C bits. -/
theorem bit_w1cTaken_plain {i : Nat} (hi : i < 64) (hplain : bit (4#64) i = false) (b : Block) (v : Word) :
    bit (w1cTaken b 0xA2000 v) i = bit v i := by
  rw [bit_w1cTaken_obsCtl hi, hplain, Bool.false_and, Bool.not_false, Bool.and_true]

/-- A bit that is not written keeps its value. -/
theorem bit_or_off {w : Word} {i : Nat} (h : bit w i = false) (v : Word) : bit (v ||| w) i = bit v i := by
  rw [bit_or, h, Bool.or_false]

theorem bit_or_on {w : Word} {i : Nat} (h : bit w i = true) (v : Word) : bit (v ||| w) i = true := by
  rw [bit_or, h, Bool.or_true]

theorem bit_and_on {w : Word} {i : Nat} (h : bit w i = true) (v : Word) : bit (v &&& w) i = bit v i := by
  rw [bit_and, h, Bool.and_true]

/-- OBS_CTL written with CLEAR. -/
theorem obsCtlClear_bits (b : Block) (v : Word) : bit (w1cTaken b 0xA2000 (v ||| 8#64)) 3 = true
    ∧ bit (w1cTaken b 0xA2000 (v ||| 8#64)) 0 = bit v 0 ∧ bit (w1cTaken b 0xA2000 (v ||| 8#64)) 1 = bit v 1 :=
  ⟨(bit_w1cTaken_plain (by decide) rfl b _).trans (bit_or_on rfl v), (bit_w1cTaken_plain (by decide) rfl b _).trans (bit_or_off rfl v),
    (bit_w1cTaken_plain (by decide) rfl b _).trans (bit_or_off rfl v)⟩

/-- OBS_CTL written without CLEAR. -/
theorem obsCtlFreeze_bits (b : Block) (v : Word) : bit (w1cTaken b 0xA2000 (v &&& ~~~8#64)) 3 = false
    ∧ bit (w1cTaken b 0xA2000 (v &&& ~~~8#64)) 0 = bit v 0 ∧ bit (w1cTaken b 0xA2000 (v &&& ~~~8#64)) 1 = bit v 1
    ∧ bit (w1cTaken b 0xA2000 (v &&& ~~~8#64)) 2 = bit (w1cTaken b 0xA2000 v) 2 := by
  have hclear : bit (v &&& ~~~8#64) 3 = false := by rw [bit_and, show bit (~~~8#64) 3 = false from rfl, Bool.and_false]
  refine ⟨(bit_w1cTaken_plain (by decide) rfl b _).trans hclear, (bit_w1cTaken_plain (by decide) rfl b _).trans (bit_and_on rfl v),
    (bit_w1cTaken_plain (by decide) rfl b _).trans (bit_and_on rfl v), ?_⟩
  rw [bit_w1cTaken_obsCtl (by decide), bit_w1cTaken_obsCtl (by decide), bit_and_on rfl]

/-- TRC_CTL's fields are those of the value written, whatever its control bits. -/
theorem fld_or_two (v : Word) : fld (v ||| 2#64) 18 14 = fld v 18 14 := by
  have hoff : ∀ i : Fin 14, bit (2#64) (18 + i.1) = false := by decide
  exact fld_congr fun i hi => bit_or_off (hoff ⟨i, hi⟩) v

/-- Settles O56: each clause is the lemma about its register; the value that a bit's row writes is the choice of log 77, and a ROW above
the bank's lines that of log 99. -/
theorem unitRegistersAct : Obligations.UnitRegistersAct := by
  unfold Obligations.UnitRegistersAct
  intro s v hrun b o ans
  refine ⟨fun ch hok hch => ?_, ?_, ?_, fun hforce => ?_, fun harm hforce => ?_, fun harm hstop => ?_, fun n hok hn => ?_⟩
  · intro c t test
    refine ⟨exec_dmaResume hrun hok hch, exec_ecc_busy hrun hok hch, fun hfree => ?_, fun hbusy hdone => ?_, ?_, exec_clrCnt hrun hok hch⟩
    · have hrow {i : Instr} {op : Nat} := exec_ecc_free hrun hok hch hfree (i := i) (op := op)
      refine ⟨?_, ?_, fun hbank => ⟨?_, ?_⟩, fun hbank hprot => ?_, fun hbank hprot => ?_, fun hbank => ?_,
        guarded_eq_next hok (eccDone_idle hfree)⟩
      · rw [hrow (op := 1) (by simp), eccStart_code (.inl rfl)]
        rfl
      · rw [hrow (op := 4) (by simp), eccStart_code (.inr rfl)]
        rfl
      · rw [hrow (op := 2) (by simp), eccStart_noBank (.inl rfl) hbank]
        rfl
      · rw [hrow (op := 3) (by simp), eccStart_noBank (.inr rfl) hbank]
        rfl
      · rw [hrow (op := 2) (by simp), eccStart_protected hbank hprot]
        rfl
      · obtain ⟨op, hstart, hop⟩ := eccStart_raw (op := 2) (.inl rfl) hbank fun _ => hprot
        exact ⟨op, by rw [hrow (op := 2) (by simp), hstart]; rfl, hop⟩
      · obtain ⟨op, hstart, hop⟩ := eccStart_raw (op := 3) (.inr rfl) hbank fun h => absurd h (by decide)
        exact ⟨op, by rw [hrow (op := 3) (by simp), hstart]; rfl, hop⟩
    · obtain ⟨hencode, hdecode⟩ := eccDone_code hbusy hdone
      exact ⟨fun h => guarded_eq_next hok (hencode h), fun h => guarded_eq_next hok (hdecode h)⟩
    · refine ⟨clearConf b ch v, exec_confClr hrun hok hch v, clearConf_conf v, ?_, fun k hk => chan_setChan_ne b _ hk.symm, rfl⟩
      rw [clearConf, chan_setChan_self]
  · obtain ⟨hclear, hbit0, hbit1⟩ := obsCtlClear_bits b v
    obtain ⟨hocnt, hfreeze, hpin, hchans, hframe⟩ := writeObsCtl_clear (b := b) hclear
    refine ⟨_, obsCtlRow_running hrun _, hocnt, hfreeze.trans hbit0, hpin.trans hbit1, fun n => ?_, hframe⟩
    rw [chan, hchans, chan_clearFixed]
    rfl
  · obtain ⟨hkeep, hbit0, hbit1, hbit2⟩ := obsCtlFreeze_bits b v
    obtain ⟨hframe, hfreeze, hpin, hocnt, htrig⟩ := writeObsCtl_keep (b := b) hkeep
    refine ⟨_, (obsCtlRow_running hrun _).trans (by rw [hframe]), hfreeze.trans hbit0, hpin.trans hbit1, hocnt, htrig.trans (by rw [hbit2])⟩
  · obtain ⟨p, hp, hstate, hctl, hstream, hpre, hocnt⟩ :=
      writeTrcCtl_arm (b := b) (v := v ||| 2#64) (bit_or_on rfl v) ((bit_or_off rfl v).trans hforce)
    exact ⟨p, (trcCtlRow_running hrun _).trans (by rw [hp]), hstate, hctl.trans (or_and_trcFields (by decide) v),
      hstream.trans (bit_or_off rfl v), hpre.trans (by rw [fld_or_two]), hocnt⟩
  · obtain ⟨p, hp, hstate, -, hocnt⟩ := stopTrace_spec (trcWritten b (v ||| 4#64))
    have hstop := writeTrcCtl_stop (b := b) (v := v ||| 4#64) (bit_or_on rfl v) ((bit_or_off rfl v).trans harm) ((bit_or_off rfl v).trans hforce)
    exact ⟨p, (trcCtlRow_running hrun _).trans (by rw [hstop, hp]; rfl), hstate, hocnt⟩
  · obtain ⟨p, hp, harmed, hother, hocnt⟩ := triggerTrace_spec (trcWritten b (v ||| 8#64))
    have hrow := writeTrcCtl_force (b := b) (v := v ||| 8#64) (bit_or_on rfl v) ((bit_or_off rfl v).trans harm) ((bit_or_off rfl v).trans hstop)
    exact ⟨p, (trcCtlRow_running hrun _).trans (by rw [hrow, hp]; rfl), harmed, hother, hocnt⟩
  · intro l only noted
    refine ⟨fun hon => ⟨fun hstate => ?_, fun hstate => ?_, fun hstate => ?_, fun hstate htx => ?_⟩, fun hstate => ?_⟩
    · obtain ⟨hown, hothers, hframe⟩ := writePeer_train hon hstate
      exact ⟨_, peerRow_running hrun hok hn hon 1, hown, hothers, hframe⟩
    · obtain ⟨hown, hothers, hframe⟩ := writePeer_retrain hon hstate
      exact ⟨_, peerRow_running hrun hok hn hon 2, hown, hothers, hframe⟩
    · obtain ⟨hown, hothers, hframe⟩ := writePeer_chkClr hon hstate
      exact ⟨_, peerRow_running hrun hok hn hon 8, hown, hothers, hframe⟩
    · exact ⟨_, peerCtl_running hrun hok hn _, writePeer_disable hstate⟩
    · obtain ⟨hown, hothers, hframe⟩ := writePeer_enable hstate
      exact ⟨_, peerCtl_running hrun hok hn _, hown, hothers, hframe⟩

end Sys2Proof.Machine
end

section
/-! PROOFS. The commands of channels, power, sounding, the life cycle, NVM and debug (R244, R342 to R349, R355, R395, R398, R402, R460): one
lemma for each way in which such a command ends or goes on, on the block that has taken it. -/

namespace Sys2Proof.Machine

/-! CH_STOP and CH_START (R402). -/

/-- A block without what wakes and drains change. -/
def Block.bare (b : Block) : Block := { b.still with zeroLines := [] }

theorem startDrain_bare (a : Arrays) (b : Block) (ch : Nat) (e : MergeEntry) : (startDrain a b ch e).bare = b.bare := by
  unfold startDrain
  split
  · rfl
  · extract_lets op asWrite op' c d
    have hc : c.bare = b.bare := by
      unfold c
      split
      · rfl
      · exact congrArg (fun x : Block => { x with zeroLines := [] }) (still_count ..)
    refine Eq.trans ?_ hc
    unfold takeZero
    split <;> rfl

theorem drainAsked_bare (a : Arrays) (b : Block) (l : List Nat) : (drainAsked a b l).bare = b.bare :=
  foldl_inv (fun c => c.bare = b.bare) _
    (fun _ n hc => foldl_inv (fun c => c.bare = b.bare) _ (fun c e hc => (startDrain_bare a c n e).trans hc) _ _ hc) l b rfl

theorem wakeChans_still (b : Block) (l : List Nat) (src : Nat) : (wakeChans b l src).still = b.still := by
  refine still_foldl _ (fun c n => ?_) l b
  dsimp only
  split
  · rfl
  · split
    · rfl
    · exact still_runChan ..
  · split <;> rfl

/-- CH_STOP wakes and drains its channels, and waits. -/
theorem chStop_bare (a : Arrays) (b : Block) (i : Nat) (t : Taken) : (chStop a b i t).bare =
    ({ b with recov := { b.recov with stopWait := b.recov.stopWait ++ [(i, chansOf (fld t.dw0 32 8))] } } : Block).bare := by
  let l := chansOf (fld t.dw0 32 8)
  let wait (c : Block) : Block := { c with recov := { c.recov with stopWait := c.recov.stopWait ++ [(i, l)] } }
  have hwait : (wait (wakeChans b l 4)).bare = (wait b).bare :=
    (congrArg (fun c => (wait c).bare) (wakeChans_still b l 4) :)
  exact (drainAsked_bare a (wait (wakeChans b l 4)) l).trans hwait

/-- A step on each of some channels, taken once or more often, reaches those channels alone. -/
theorem chan_foldl {step : Block → Nat → Block} {P : Block → Prop} {f : Channel → Channel} (hf : ∀ c, f (f c) = f c)
    (hP : ∀ b n, P b → P (step b n)) (hstep : ∀ b n j, P b → chan (step b n) j = if n = j then f (chan b j) else chan b j)
    (l : List Nat) {b : Block} (hb : P b) (j : Nat) :
    chan (l.foldl step b) j = if l.contains j = true then f (chan b j) else chan b j := by
  induction l generalizing b with
  | nil => rfl
  | cons n l ih =>
    rw [List.foldl_cons, ih (hP b n hb), hstep b n j hb]
    by_cases hn : n = j
    · subst hn
      by_cases hl : n ∈ l <;> simp [hl, hf]
    · simp [hn, Ne.symm hn]

/-- The channels of a CH_STOP stopped. -/
def stopAll (b : Block) (l : List Nat) : Block := l.foldl (fun b n => setChan b n (fun c => { c with stopped := true })) b

theorem chan_stopAll (b : Block) (l : List Nat) (j : Nat) :
    chan (stopAll b l) j = if l.contains j = true then { chan b j with stopped := true } else chan b j :=
  chan_foldl (P := fun _ => True) (f := fun c => { c with stopped := true }) (fun _ => rfl) (fun _ _ _ => trivial)
    (fun b n j _ => by rw [chan_setChan]; split <;> simp_all) l trivial j

theorem stopAll_frame (b : Block) (l : List Nat) : stopAll b l = { b with chans := (stopAll b l).chans } := by
  refine foldl_inv (fun c : Block => c = { b with chans := c.chans }) _ (fun c n hc => ?_) l b rfl
  rw [hc]
  rfl

section
variable {b : Block} {k : Nat} {m : List Nat} (hwait : b.recov.stopWait = [(k, m)])
include hwait

theorem chStopDone_unsettled (h : m.all (chSettled b) = false) : chStopDone b = b := by
  simp only [chStopDone, hwait, List.filter, h]
  simp [← hwait]

theorem chStopDone_settled (h : m.all (chSettled b) = true) :
    chStopDone b = complete (stopAll { b with recov := { b.recov with stopWait := [] } } m) k cOkay 0 := by
  simp only [chStopDone, hwait, List.filter, h]
  rfl

end

/-- The channels of a CH_START run again. -/
def startAll (b : Block) (l : List Nat) : Block :=
  l.foldl (fun b n => if (chan b n).stopped then setChan b n (fun c => { c with stopped := false, idleFrom := b.now }) else b) b

theorem startAll_frame (b : Block) (l : List Nat) : startAll b l = { b with chans := (startAll b l).chans } := by
  refine foldl_inv (fun c : Block => c = { b with chans := c.chans }) _ (fun c n hc => ?_) l b rfl
  split
  · rw [hc]
    rfl
  · exact hc

theorem chan_startAll (b : Block) (l : List Nat) (j : Nat) : chan (startAll b l) j =
    if (l.contains j && (chan b j).stopped) = true then { chan b j with stopped := false, idleFrom := b.now } else chan b j := by
  have h := chan_foldl (P := fun c => c.now = b.now)
    (step := fun b n => if (chan b n).stopped then setChan b n (fun c => { c with stopped := false, idleFrom := b.now }) else b)
    (f := fun c => if c.stopped = true then { c with stopped := false, idleFrom := b.now } else c)
    (fun c => by by_cases hc : c.stopped = true <;> simp [hc])
    (fun c n hc => by split <;> exact hc)
    (fun c n j hc => by
      by_cases hn : n = j
      · subst hn
        by_cases hs : (chan c n).stopped = true <;> simp [hs, hc]
      · by_cases hs : (chan c n).stopped = true <;> simp [hs, hn]) l (b := b) rfl j
  refine h.trans ?_
  by_cases hs : (chan b j).stopped = true <;> simp [hs]

theorem chStart_alone {b : Block} (hwait : b.recov.stopWait = []) (i : Nat) (t : Taken) :
    chStart b i t = complete (startAll b (chansOf (fld t.dw0 32 8))) i cOkay 0 := by
  have hb : ({ b with recov := { b.recov with stopWait := [] } } : Block) = b := by rw [← hwait]
  simp only [chStart, hwait, List.filter_nil, List.foldl_nil, hb]
  rfl

/-- CH_START ends a CH_STOP of one of its channels that waits. -/
theorem chStart_ends {b : Block} {k : Nat} {m : List Nat} (hwait : b.recov.stopWait = [(k, m)]) (t : Taken)
    (hmeet : m.any (fun j => (chansOf (fld t.dw0 32 8)).contains j) = true) (i : Nat) :
    chStart b i t = complete (startAll (complete { b with recov := { b.recov with stopWait := [] } } k cRefused rBusy)
      (chansOf (fld t.dw0 32 8))) i cOkay 0 := by
  simp only [chStart, hwait, List.filter, hmeet]
  rfl

end Sys2Proof.Machine
end

section
/-! PROOFS. The rest of these commands: CH_RESET, INST_RESET and BANK_RETIRE (R244, R395, R398), PWR_SET (R355), and the privileged ones
(R342, R344, R347). -/

namespace Sys2Proof.Machine

/-! CH_RESET and INST_RESET (R395, R398). -/

/-- The freeze of a channel while neither a handshake nor a sounding's copy runs. -/
theorem freezeChan_quiet {b : Block} (hhs : b.power.hs = none) (hcopy : b.obs.sndBusy = false) (n : Nat) (r : Recov) :
    (chan (freezeChan b n r) n).recov = some { r with phase := .reset, suspects := suspectsOf b n }
    ∧ (freezeChan b n r).recov = { b.recov with chRecoveries := min 65535 (b.recov.chRecoveries + 1), lastLevel := 2 }
    ∧ (∀ k, k ≠ n → chan (freezeChan b n r) k = chan b k) ∧ (freezeChan b n r).txns = b.txns ∧ (freezeChan b n r).ops = b.ops
    ∧ (freezeChan b n r).cmdq = b.cmdq ∧ (freezeChan b n r).obs.sndBusy = true ∧ (freezeChan b n r).obs.sndCause = 2 := by
  obtain ⟨hrecov, -, htxns, hops⟩ := freezeChan_spec hhs n r
  obtain ⟨q, o, hframe⟩ := freezeChan_eq hhs n r
  let c : Block := markSuspects (setChan b n (fun c => { c with recov := some { r with phase := .reset, suspects := suspectsOf b n } }))
    (suspectsOf b n) true
  have hc : c.obs = b.obs ∧ c.cmdq = b.cmdq := by
    obtain ⟨x, hx⟩ := markSuspects_eq (setChan b n (fun c => { c with recov := some { r with phase := .reset, suspects := suspectsOf b n } }))
      (suspectsOf b n) true
    exact ⟨by rw [show c = _ from hx]; rfl, by rw [show c = _ from hx]; rfl⟩
  have hsound : freezeChan b n r = soundingRecovery { c with recov :=
      { c.recov with chRecoveries := satAdd 65535 c.recov.chRecoveries 1, lastLevel := 2 } } n := by
    simp only [freezeChan, hhs, Bool.false_eq_true, if_false]
    rfl
  have hfree : c.obs.sndBusy = false := by rw [hc.1, hcopy]
  refine ⟨hrecov, by rw [hframe]; rfl, fun k hk => ?_, htxns, hops, ?_, ?_, ?_⟩
  · rw [hframe]
    exact (chan_markSuspects ..).trans (chan_setChan_ne _ _ hk.symm)
  · rw [hsound]
    simp only [soundingRecovery, hfree]
    exact hc.2
  · rw [hsound]
    rfl
  · rw [hsound]
    rfl

theorem chResetCmd_frozen {b : Block} {n : Nat} (h : chFrozen b n = true) (i : Nat) (abort : Bool) :
    chResetCmd b i n abort = complete b i cRefused rBusy := if_pos h

theorem chResetCmd_free {b : Block} {n : Nat} (h : chFrozen b n = false) (i : Nat) (abort : Bool) :
    chResetCmd b i n abort = freezeChan b n (newRecov b n 0 false abort (some i)) := if_neg (by simp [h])

/-- Without a job to abort INST_RESET only begins the drain. -/
theorem startInstReset_noJobs {b : Block} (hdrain : b.recov.draining = none) (hreset : b.bring.inReset = false) (hjobs : jobPairs b = [])
    (a : Arrays) (cause : Nat) (retrain : Bool) : startInstReset a b cause retrain =
      { emit { b with cw := { b.cw with jobs := [] } } 0x64 none none (put 0 4 cause ||| putBit 4 retrain) with
        bring := { b.bring with dumpPending := b.bring.dumpPending || isPithead b }
        recov := { b.recov with draining := some (usNow b), cause := cause, retrain := retrain, resetUs := usNow b } } := by
  obtain ⟨l, e, o, hemit⟩ := emit_eq { b with cw := { b.cw with jobs := [] } } 0x64 none none (put 0 4 cause ||| putBit 4 retrain) 0 0 0
  rw [startInstReset, if_neg (by simp [hdrain, hreset]), hjobs]
  simp only [startAborts, List.isEmpty_nil, if_true, hemit]
  rfl

/-! BANK_RETIRE (R244, R245). -/

section
variable {b : Block} {n bank : Nat}

theorem retireTrigger_busy (hphase : (chan b n).spare.phase ≠ 0) (h : (chan b n).spare.bank = bank ∨ (chan b n).spare.waiting.isSome = true)
    (a : Arrays) (i : Nat) : retireTrigger a b n bank (some i) = complete b i cRefused rBusy := by
  simp only [retireTrigger]
  rw [if_neg hphase, if_pos h]
  rfl

theorem retireTrigger_waits (hphase : (chan b n).spare.phase ≠ 0) (hbank : (chan b n).spare.bank ≠ bank)
    (hwait : (chan b n).spare.waiting = none) (a : Arrays) (cmd : Option Nat) : retireTrigger a b n bank cmd =
      setChan b n (fun c => { c with spare := { (chan b n).spare with waiting := some { bank := bank, cmd := cmd } } }) := by
  simp only [retireTrigger]
  rw [if_neg hphase, if_neg (by simp [hbank, hwait])]

/-- The sparing of a bank of which the merge buffer holds nothing begins with nothing to drain. -/
theorem retireTrigger_starts {onto : Nat} (hphase : (chan b n).spare.phase = 0) (hfree : freeSpare (chan b n).spare = some onto)
    (hmerge : (chan b n).merge.any (fun e => e.bank == bank) = false) (a : Arrays) (cmd : Option Nat) :
    retireTrigger a b n bank cmd = setChan b n (fun c => { c with
      spare := { (chan b n).spare with
        phase := 1, bank := bank, onto := onto, startUs := usNow b, cmd := cmd, row := 0, redo := false, bad := false }
      dredge := { c.dredge with
        reads := c.dredge.reads.filter (fun k => k != bank && k != onto), turns := c.dredge.turns.filter (fun k => k != bank && k != onto) } }) := by
  simp only [retireTrigger, startSparing, hphase, if_true, hfree]
  have hnone (c : Block) (hc : (chan c n).merge = (chan b n).merge) : drainWhere a c n (fun e => e.bank == bank) = c := by
    have hfilter : (chan c n).merge.filter (fun e => e.bank == bank) = [] := by
      rw [hc, List.filter_eq_nil_iff]
      simpa using hmerge
    simp [drainWhere, hfilter]
  exact hnone _ (by rw [chan_setChan_self])

theorem retireTrigger_noSpare (hphase : (chan b n).spare.phase = 0) (hfree : freeSpare (chan b n).spare = none)
    (hknown : (chan b n).spare.noSpare.contains bank = true) (a : Arrays) (i : Nat) :
    retireTrigger a b n bank (some i) = complete b i cRefused rNoSpare := by
  simp only [retireTrigger, startSparing, hphase, if_true, hfree, hknown]
  rfl

end

/-! PWR_SET (R355). -/

/-- The ask of a command. -/
def cmdAsk (b : Block) (i target : Nat) (mask : List Nat) : Handshake :=
  { target := target, mask := mask, auto := false, cmd := some i, phase := .ask, granted := false, usedUs := 0, fromUs := usNow b, drainUs := 0 }

/-- Where no channel that is asked holds tallies or merge entries, the ask changes nothing else. -/
theorem startHs_free {b : Block} {i target : Nat} {mask : List Nat}
    (hfree : ∀ k ∈ askedChans b (cmdAsk b i target mask), (chan b k).merge = [] ∧ holdsTallies b k = false) (a : Arrays) :
    startHs a b target mask false (some i) = { b with power := { b.power with hs := some (cmdAsk b i target mask) } } := by
  let c : Block := { b with power := { b.power with hs := some (cmdAsk b i target mask) } }
  have hdrain : drainAsked a c (askedChans c (cmdAsk b i target mask)) = c :=
    drainAsked_free (b := c) (fun k hk => (hfree k hk).1) a
  have hrefuse : refuser c (askedChans c (cmdAsk b i target mask)) = none := refuser_free (b := c) fun k hk => (hfree k hk).2
  calc startHs a b target mask false (some i)
      = checkRefuse (drainAsked a c (askedChans c (cmdAsk b i target mask))) := rfl
    _ = checkRefuse c := by rw [hdrain]
    _ = c := by
      unfold checkRefuse
      simp only [c]
      rw [show refuser _ (askedChans _ (cmdAsk b i target mask)) = none from hrefuse]

theorem pwrSet_taken {b : Block} {g : Handshake} (hhs : b.power.hs = some g) (hcmd : g.auto = false) (a : Arrays) (i state mask : Nat) :
    pwrSet a b i state mask = complete { b with power := { b.power with refuseReason := 9, refuseCh := 0 } } i cRefused 9 := by
  simp [pwrSet, hhs, hcmd]

/-- Channels that run have nothing to wake. -/
theorem wakeChans_run {b : Block} {l : List Nat} (h : ∀ k ∈ l, chPower b k = .run) (src : Nat) : wakeChans b l src = b := by
  induction l with
  | nil => rfl
  | cons k l ih =>
    rw [wakeChans, List.foldl_cons, h k (by simp)]
    exact ih fun j hj => h j (by simp [hj])

section
variable {b : Block} (hhs : b.power.hs = none)
include hhs

theorem pwrSet_free (a : Arrays) (i state mask : Nat) : pwrSet a b i state mask =
    if state = 0 then
      settleRun { wakeChans b (chansOf mask) 4 with
        power := { (wakeChans b (chansOf mask) 4).power with runWait := (wakeChans b (chansOf mask) 4).power.runWait ++ [(i, chansOf mask)] } }
    else if state ≤ 2 then
      if ((chansOf mask).filter (fun n => decide (levelOf b n < state))).isEmpty then complete b i cOkay 0
      else startHs a b state ((chansOf mask).filter (fun n => decide (levelOf b n < state))) false (some i)
    else startHs a b state [] false (some i) := by
  simp only [pwrSet]
  split
  next h heq => exact absurd heq (by simp [hhs])
  next => rw [if_neg (by simp [hhs])]

theorem pwrSet_run (hwait : b.power.runWait = []) {mask : Nat} (hrun : ∀ k ∈ chansOf mask, chPower b k = .run) (a : Arrays) (i : Nat) :
    pwrSet a b i 0 mask = complete b i cOkay 0 := by
  let c : Block := { b with power := { b.power with runWait := [(i, chansOf mask)] } }
  have hgone : (chansOf mask).all (fun n => chPower c n == .run) = true :=
    List.all_eq_true.2 fun k hk => beq_iff_eq.2 (hrun k hk)
  have hsame : ({ b with power := { b.power with runWait := [] } } : Block) = b := by rw [← hwait]
  have hsettle : settleRun c = complete b i cOkay 0 := by
    simp only [settleRun, c, List.filter] at hgone ⊢
    rw [hgone]
    exact congrArg (fun c => complete c i cOkay 0) hsame
  rw [pwrSet_free hhs, if_pos rfl, wakeChans_run hrun, hwait]
  exact hsettle

section
variable {state mask : Nat} (hpos : 0 < state) (hlow : state ≤ 2)
include hpos hlow

theorem pwrSet_none (hnone : (chansOf mask).filter (fun n => decide (levelOf b n < state)) = []) (a : Arrays) (i : Nat) :
    pwrSet a b i state mask = complete b i cOkay 0 := by
  rw [pwrSet_free hhs, if_neg (by omega), if_pos hlow, hnone]
  rfl

/-- The channels that are lower are asked. -/
theorem pwrSet_lower (hsome : (chansOf mask).filter (fun n => decide (levelOf b n < state)) ≠ [])
    (hfree : ∀ k ∈ (chansOf mask).filter (fun n => decide (levelOf b n < state)), (chan b k).merge = [] ∧ holdsTallies b k = false)
    (a : Arrays) (i : Nat) : pwrSet a b i state mask = { b with power := { b.power with
      hs := some (cmdAsk b i state ((chansOf mask).filter (fun n => decide (levelOf b n < state)))) } } := by
  rw [pwrSet_free hhs, if_neg (by omega), if_pos hlow, if_neg (by simpa using hsome)]
  refine startHs_free (fun k hk => hfree k ?_) a
  rwa [askedChans, if_neg (by simp only [cmdAsk]; omega)] at hk

end

/-- Deep sleep and Off (R355) ask every channel. -/
theorem pwrSet_inst {state : Nat} (hinst : 3 ≤ state) (hfree : ∀ k, k < b.build.channels → (chan b k).merge = [] ∧ holdsTallies b k = false)
    (a : Arrays) (i mask : Nat) :
    pwrSet a b i state mask = { b with power := { b.power with hs := some (cmdAsk b i state []) } } := by
  rw [pwrSet_free hhs, if_neg (by omega), if_neg (by omega)]
  refine startHs_free (fun k hk => hfree k ?_) a
  rw [askedChans, if_pos (by simpa only [cmdAsk] using hinst)] at hk
  exact List.mem_range.1 hk

end

/-! The privileged commands (R342, R344, R347 to R349). -/

/-- LC_ADVANCE starts its wipe, and waits for it. -/
theorem lcAdvance_starts {b : Block} {i : Nat} {t : Taken} (hpresent : present b = true) (hlater : b.bring.lcState < fld t.dw0 32 2)
    (hfree : nvmBusy b i = false) (a : Arrays) : lcAdvance a b i t =
      { startWipe a b 0 with bring := { (startWipe a b 0).bring with wipeCmd := some i, wipeTarget := fld t.dw0 32 2 } } := by
  simp only [lcAdvance]
  rw [if_neg (by simp [hpresent]), if_neg (by omega), if_neg (by simp [hfree])]

/-- A wipe, new or running, keeps the command queue and the life-cycle state. -/
theorem startWipe_keeps (a : Arrays) (b : Block) (cause : Nat) : (startWipe a b cause).bring.wiping = true
    ∧ (startWipe a b cause).cmdq = b.cmdq ∧ (startWipe a b cause).bring.lcState = b.bring.lcState := by
  by_cases hwiping : b.bring.wiping = true
  · rw [startWipe, if_pos hwiping]
    exact ⟨hwiping, rfl, rfl⟩
  · obtain ⟨-, hbring, -, -, hcmdq⟩ := startWipe_frame (Bool.eq_false_iff.2 hwiping) a cause
    exact ⟨by rw [hbring]; rfl, hcmdq, by rw [hbring]; rfl⟩

end Sys2Proof.Machine
end

section
/-! PROOFS. The commands of channels and the privileged ones, put together. -/

namespace Sys2Proof.Machine

section
variable {s : State} {t : Taken}

/-- A command that is taken has its effect on the block that has taken it. -/
theorem exec_taken {opc : Nat} (h : s.blk.takes opc t) {f : Block → Nat → Taken → Block} {c : Block}
    (hf : f (s.blk.taken t) t.idx.toNat t = c) : done s (takeOpc s.blk opc f) = .next { s with blk := c } :=
  done_eq_next ((takeOpc_of_takes h f).trans hf)

/-- The four privileged commands need PRESENT (R342). -/
theorem exec_absent {opc : Nat} (hopc : [0x30, 0x31, 0x32, 0x33].contains opc = true) (h : s.blk.takes opc t)
    (habsent : present (s.blk.taken t) = false) (level : BitVec 8) (img : List Byte) (err : Bool) :
    exec (opcRow level img err opc) s = .next { s with blk := privRefuse (s.blk.taken t) t.idx.toNat t rPresence } := by
  simp only [List.contains_cons, List.contains_nil, Bool.or_false, Bool.or_eq_true, beq_iff_eq] at hopc
  obtain rfl | rfl | rfl | rfl := hopc
  · exact exec_taken h (if_pos habsent)
  · exact exec_taken h (if_pos habsent)
  · exact exec_taken h (if_pos habsent)
  · exact exec_taken h (if_pos habsent)

end

theorem present_ne {b : Block} (h : present b = true) : ¬ present b = false := by simp [h]

/-- A held copy does not stop a SOUNDING that forces its own. -/
theorem not_held_of_free {held force : Bool} (h : held = false ∨ force = true) : ¬(held = true ∧ force = false) := by
  rintro ⟨rfl, rfl⟩
  simp at h

theorem complete_cmdq_congr {b c : Block} (h : c.cmdq = b.cmdq) (i st re : Nat) (v : Word) :
    (complete c i st re v).cmdq = (complete b i st re v).cmdq := by
  unfold complete
  rw [h]
  cases takeFirst (fun t : Taken => t.idx.toNat == i) b.cmdq.running <;> simp [h]

/-! NVM_WRITE and DUMP_ERASE past their first checks (R347, R349). -/

theorem nvmWrite_badImage {b : Block} {i : Nat} {t : Taken} {img : List Byte} {err : Bool} (hpresent : present b = true)
    (hlc : b.bring.lcState ≠ 3) (hpithead : isPithead b = true) (hfree : nvmBusy b i = false)
    (himg : err = true ∨ imageRefused b (img.take (fld t.dw2 0 25)) = true) (level : BitVec 8) :
    nvmWrite level img err b i t = complete b i cRefused rImage := by
  rw [nvmWrite, if_neg (present_ne hpresent), if_neg hlc, if_neg (by simp [hpithead]), if_neg (by simp [hfree])]
  exact if_pos himg

theorem nvmWrite_starts {b : Block} {i : Nat} {t : Taken} {img : List Byte} {level : BitVec 8} (hpresent : present b = true)
    (hlc : b.bring.lcState ≠ 3) (hpithead : isPithead b = true) (hfree : nvmBusy b i = false)
    (himg : imageRefused b (img.take (fld t.dw2 0 25)) = false) (hlevel : b.bring.holdupMin ≤ level.toNat) :
    nvmWrite level img false b i t = { b with bring := { b.bring with holdupLevel := level.toNat, nvmSeq := some (0, some i) } } := by
  rw [nvmWrite, if_neg (present_ne hpresent), if_neg hlc, if_neg (by simp [hpithead]), if_neg (by simp [hfree])]
  simp [himg, holdupOk, hlevel]

theorem dumpErase_checked {b : Block} {i : Nat} {t : Taken} {level : BitVec 8} (hpresent : present b = true) (hpithead : isPithead b = true)
    (hfree : nvmBusy b i = false) (hlevel : b.bring.holdupMin ≤ level.toNat) : dumpErase level b i t =
      { b with bring := { b.bring with holdupLevel := level.toNat, nvmSeq := some (1, some i) } } := by
  rw [dumpErase, if_neg (present_ne hpresent), if_neg (by simp [hpithead]), if_neg (by simp [hfree])]
  simp [holdupOk, hlevel]

/-- Settles O54: each clause is the lemma about its command, on the block that has taken it (`exec_taken`). SOUNDING's refusals are those of
log 75; that PWR_SET of channels none of which is lower completes OKAY is log 66. -/
theorem channelAndPrivilegedCommandsAct : Obligations.ChannelAndPrivilegedCommandsAct := by
  unfold Obligations.ChannelAndPrivilegedCommandsAct
  intro s t b i n l
  refine ⟨fun h => ?_, fun k m hwait => ⟨fun hnot => ?_, fun hall => ?_⟩, fun h => ⟨fun hwait => ?_, fun k m hwait hmeet => ?_⟩,
    fun h => ⟨fun hfrozen => ?_, fun hfrozen hhs hcopy => ?_⟩, fun h hdrain hreset hjobs => ?_, fun h => ?_, fun h => ?_,
    fun h => ⟨fun hbusy => ?_, fun hbusy hheld hforce => ?_, fun hbusy hfree => ?_⟩,
    fun opc level img err hopc h habsent => exec_absent hopc h habsent level img err,
    fun h hpresent => ⟨fun hlow => ?_, fun hlater hbusy => ?_, fun hlater hfree => ?_⟩,
    fun level img h hpresent hlc hpithead hfree => ⟨fun himg => ?_, ?_, fun himg hlevel => ?_⟩,
    fun h hpresent => ⟨fun hlc => ?_, fun h1 h2 => ?_⟩, fun level h hpresent => ⟨fun hpithead => ?_, fun hpithead hfree hlevel => ?_⟩⟩
  · exact ⟨_, exec_taken h rfl, chStop_bare s.arr b i t⟩
  · exact done_eq_next (chStopDone_unsettled hwait hnot)
  · have hframe := stopAll_frame { s.blk with recov := { s.blk.recov with stopWait := [] } } m
    exact ⟨_, done_eq_next (chStopDone_settled hwait hall), by rw [hframe], chan_stopAll _ m, by rw [hframe]⟩
  · exact ⟨startAll b l, exec_taken h (chStart_alone (b := b) hwait i t), chan_startAll b l, by rw [startAll_frame b l]⟩
  · let c : Block := complete { b with recov := { b.recov with stopWait := [] } } k cRefused rBusy
    have hframe := startAll_frame c l
    refine ⟨startAll c l, exec_taken h (chStart_ends (b := b) hwait t hmeet i), ?_, ?_⟩
    · rw [hframe]
      exact congrArg Recovery.stopWait (complete_recov ..)
    · rw [hframe]
      exact complete_cmdq_congr (b := b) (c := { b with recov := { b.recov with stopWait := [] } }) rfl k cRefused rBusy 0
  · exact exec_taken h (chResetCmd_frozen hfrozen i _)
  · obtain ⟨hrecov, hglobal, hothers, htxns, hops, hcmdq, hsnd, hcause⟩ :=
      freezeChan_quiet hhs hcopy n (newRecov b n 0 false (bit t.dw0 40) (some i))
    exact ⟨_, _, exec_taken h (chResetCmd_free hfrozen i _), hrecov, rfl, rfl, rfl, rfl, hglobal, hothers, htxns, hops, hcmdq, hsnd, hcause⟩
  · exact ⟨_, exec_taken h (startInstReset_noJobs hdrain hreset hjobs s.arr 1 _), rfl⟩
  · intro sp bank
    exact ⟨fun hphase hbank => exec_taken h (retireTrigger_busy hphase hbank s.arr i),
      fun hphase hbank hwait => exec_taken h (retireTrigger_waits hphase hbank hwait s.arr (some i)),
      fun onto hphase hfree hmerge => exec_taken h (retireTrigger_starts hphase hfree hmerge s.arr (some i)),
      fun hphase hfree hknown => exec_taken h (retireTrigger_noSpare hphase hfree hknown s.arr i)⟩
  · intro m lower ask
    refine ⟨fun g hhs hauto => exec_taken h (pwrSet_taken hhs hauto s.arr i n m), fun hhs hn hwait hrun => ?_, fun hhs hpos hlow hnone => ?_,
      fun hhs hpos hlow hsome hfree => ?_, fun hhs hinst hfree => ?_⟩
    · exact exec_taken h ((congrArg (fun n => pwrSet s.arr b i n m) hn).trans (pwrSet_run hhs hwait hrun s.arr i))
    · exact exec_taken h (pwrSet_none hhs hpos hlow hnone s.arr i)
    · exact exec_taken h (pwrSet_lower hhs hpos hlow hsome hfree s.arr i)
    · exact exec_taken h (pwrSet_inst hhs hinst hfree s.arr i m)
  · exact exec_taken h (if_pos hbusy)
  · exact exec_taken h ((if_neg (Bool.eq_false_iff.1 hbusy)).trans (if_pos ⟨hheld, hforce⟩))
  · exact ⟨snapshotOf b 1 0, exec_taken h ((if_neg (Bool.eq_false_iff.1 hbusy)).trans (if_neg (not_held_of_free hfree)))⟩
  · exact exec_taken h ((if_neg (present_ne hpresent)).trans (if_pos hlow))
  · exact exec_taken h ((if_neg (present_ne hpresent)).trans ((if_neg (Nat.not_le.2 hlater)).trans (if_pos hbusy)))
  · obtain ⟨hwiping, hcmdq, hlc⟩ := startWipe_keeps s.arr b 0
    exact ⟨_, exec_taken h (lcAdvance_starts hpresent hlater hfree s.arr), rfl, hwiping, rfl, rfl, hcmdq, hlc⟩
  · exact exec_taken h (nvmWrite_badImage hpresent hlc hpithead hfree (.inr himg) level)
  · exact exec_taken h (nvmWrite_badImage hpresent hlc hpithead hfree (.inl rfl) level)
  · exact exec_taken h (nvmWrite_starts hpresent hlc hpithead hfree himg hlevel)
  · exact exec_taken h ((if_neg (present_ne hpresent)).trans (if_pos hlc))
  · exact exec_taken h ((if_neg (present_ne hpresent)).trans (if_neg (not_or.2 ⟨h1, h2⟩)))
  · exact exec_taken h ((if_neg (present_ne hpresent)).trans (if_pos hpithead))
  · exact exec_taken h (dumpErase_checked hpresent hpithead hfree hlevel)

end Sys2Proof.Machine
end
